-- ==== Sys2Proof/Word.lean ====
section
/-! DEFINITION. The lane word, the byte and the other widths the spec gives a name to. -/

namespace Sys2Proof

/-- A lane, an a-register or a constant: 32 bits (R125, R189). -/
abbrev Word := BitVec 32

/-- The smallest addressable unit (R6). -/
abbrev Byte := BitVec 8

/-- A 64-bit little-endian word of a structure in memory, or a lane pair (R6, R190). -/
abbrev DWord := BitVec 64

/-- A token tag code, 4 bits (R129). -/
abbrev Tag := BitVec 4

/-- A lane: `none` is an invalid lane, whose payload is zero wherever a token is produced (R128). -/
abbrev Lane := Option Word

/-- The sixteen lanes of a token or of a v register (R128). -/
abbrev Lanes := Vector Lane 16

/-- The vector whose lane `l` is `f l`; written out, so that the kernel evaluates it. -/
def Lanes.ofFn {α : Type} (f : Fin 16 → α) : Vector α 16 :=
  #v[f 0, f 1, f 2, f 3, f 4, f 5, f 6, f 7, f 8, f 9, f 10, f 11, f 12, f 13, f 14, f 15]

/-- The payload of a lane; an invalid lane reads zero (R128). -/
def Lane.bits (l : Lane) : Word := l.getD 0

end Sys2Proof
end

