-- ==== Sys2Proof/Syntax.lean ====
section
/-! DEFINITION. The instructions as syntax: the fields of a slot word (R141, R234), the active message
(R29), the frames and remote accesses that reach the part from outside, and Instr, one constructor for
each row of spec/opcode_table.json. -/

namespace Sys2Proof

/-- The element type of a column (R1). -/
inductive ElemType where
  | ag | pe | se | me
deriving DecidableEq, Repr

/-- A source specifier (R235). -/
inductive Src where
  | v (n : Fin 8)
  | head (q : Fin 4)
  | a (n : Fin 4)
  | c (n : Fin 8)
  | imm
  | lane
  | zero
  | x (n : Fin 2)
  | ones
  | none
deriving DecidableEq, Repr

/-- A destination specifier (R236). -/
inductive Dst where
  | v (n : Fin 8)
  | o (q : Fin 4)
  | a (n : Fin 4)
  | x (n : Fin 2)
  | none
deriving DecidableEq, Repr

/-- A predicate mode (R239). -/
inductive PredMode where
  | keep | lane0 | anyLane | allLanes | setTrue | setFalse | endTag | invert
deriving DecidableEq, Repr

/-- An enabled input test of a trigger: queue, tag or class, code (R141). -/
structure InputTest where
  q : Fin 4
  cls : Bool
  code : BitVec 4
deriving DecidableEq, Repr

/-- The fields of a slot word but OPC, which the constructor of Instr stands for (R141, R234). -/
structure Slot where
  /-- PRI, bits 126:125. -/
  pri : BitVec 2
  /-- Bit k set: PCOND asks pk TRUE. -/
  condT : BitVec 8
  /-- Bit k set: PCOND asks pk FALSE. -/
  condF : BitVec 8
  test0 : Option InputTest
  test1 : Option InputTest
  da : Dst
  db : Dst
  otag : Tag
  /-- DEQ: bit q set dequeues iq at selection. -/
  deq : BitVec 4
  sa : Src
  sb : Src
  sc : Src
  pd : Fin 8
  pm : PredMode
  /-- RND/MOD. -/
  rnd : BitVec 3
  d : Bool
  kt : Bool
  sat : Bool
  ack : Bool
  x : Bool
  imm : Word
deriving DecidableEq, Repr

/-- Where an active message comes from: the host's card, an AMSEND firing (with the entry of the system
answer buffer that waits for it), or another package of the pod (R43, R343). -/
inductive AmFrom where
  | host
  | element (eid : Nat) (entry : Option Nat)
  | remote (pkg : BitVec 8)
deriving DecidableEq, Repr

/-- An active message (R29). -/
structure Am where
  amop : BitVec 8
  vf : BitVec 9
  part : BitVec 4
  seq : BitVec 11
  operand : Word
  cont : DWord
  sender : AmFrom
deriving DecidableEq, Repr

/-- Where a soft error strikes (R12, R173). -/
inductive SoftPlace where
  /-- Corrected in tile SRAM or a buffer of the tile. -/
  | corrected (tile : Nat)
  /-- Corrected in HBM or an edge cache of the cluster. -/
  | correctedHbm (g : Nat)
  /-- Uncorrectable in a buffer or configuration bank of the element. -/
  | buffer (eid : Nat)
  /-- Uncorrectable in the 64-bit word of tile SRAM that holds the local address. -/
  | sram (tile addr : Nat)
  /-- Uncorrectable in the 64-bit word of HBM that holds the physical address. -/
  | hbm (pa : Nat)
deriving DecidableEq, Repr

/-- What an access from another package asks (R162). -/
inductive RemoteKind where
  | load (len : Nat)
  | store (bytes : List Byte) (poison : Bool)
  | atomic (op : BitVec 4) (b : Word)
  | cas (cmp new : Word)
deriving DecidableEq, Repr

/-- An access that arrives over Aqric (R14, R15, R162). -/
structure RemoteAccess where
  pkg : BitVec 8
  ptag : BitVec 5
  pa : BitVec 44
  kind : RemoteKind
deriving DecidableEq, Repr

/-- An Ethernet frame with the fields the part reads or writes (R17 to R20). -/
structure EthFrame where
  dstMac : BitVec 48
  srcMac : BitVec 48
  /-- Version, payload length and next header of the IP header. -/
  version : BitVec 4
  ipLength : BitVec 16
  nextHeader : BitVec 8
  srcIp : BitVec 128
  dstIp : BitVec 128
  /-- Traffic class, flow label and hop limit of the IPv6 header. -/
  tclass : BitVec 8
  flowLabel : BitVec 20
  hopLimit : BitVec 8
  srcPort : BitVec 16
  dstPort : BitVec 16
  udpLength : BitVec 16
  checksum : BitVec 16
  /-- A PAUSE or priority flow control frame. -/
  pause : Bool
  /-- Bytes of the whole frame, header and FCS included. -/
  size : Nat
  /-- The Twithen transport header (R18). -/
  header : BitVec 128
  payload : List Byte
deriving DecidableEq, Repr

/-- One constructor for each row of spec/opcode_table.json: active messages, events of the part's
engines, and the Siroux opcodes. An event without operands acts on the subject that State names
(State.subject): an instance, a launch, a task of a launch, a cluster, a lease slot of a cluster, a tile
or an ownership unit. -/
inductive Instr where
  /-- LAUNCH: Host or AMSEND active message that checks and accepts a task graph launch, or refuses it with a NAK. (R33) -/
  | launch (m : Am)
  /-- CANCEL: Active message that cancels a live launch, with or without CUT, and ends its tasks CANCELLED. (R34) -/
  | cancel (m : Am)
  /-- PREEMPT: Active message that pre-empts a live launch's bound tasks in BOUNDARY or CUT mode. (R34) -/
  | preempt (m : Am)
  /-- RESUME: Active message that makes the tasks of a pre-empted launch ready again in their former order. (R34) -/
  | resume (m : Am)
  /-- SIGNAL: Active message that writes OPERAND into SIGVAL of a completion object as one masked event. (R38) -/
  | signal (m : Am)
  /-- ORDER: Active message answered by COMPLETE once earlier AMs and acknowledged host writes of the VF have taken effect. (R42) -/
  | order (m : Am)
  /-- POLICY: Active message that checks a signed disclosure policy block and installs it for its partition. (R58) -/
  | policy (m : Am)
  /-- MAPROOT: Administrative active message that sets a VF's page-table root and invalidates its walk-cache entries. (R35) -/
  | maproot (m : Am)
  /-- FWLOAD_OPEN: First FWLOAD, with a nonzero length, which opens the boot receiver window. (R44) -/
  | fwloadOpen (m : Am)
  /-- FWLOAD_CLOSE: Second FWLOAD, with OPERAND 0, which closes the window, verifies the image and then installs it or refuses it with BADIMAGE. (R44) -/
  | fwloadClose (m : Am)
  /-- DBGREAD: Administrative active message that reads one item of an element through the disclosure filter and answers with COMPLETE. (R231) -/
  | dbgread (m : Am)
  /-- DBGHOLD: Administrative active message with HOLD = 1 that starts a hold wave, or single-steps an element of an instance already held. (R230) -/
  | dbghold (m : Am)
  /-- DBGHOLD_RELEASE: DBGHOLD with HOLD = 0 that returns a held instance to RUN or releases a faulted one. (R230) -/
  | dbgholdRelease (m : Am)
  /-- USER_AM: User AMOP 0x40-0x4F accepted into a handler entry's queue, or refused. (R36) -/
  | userAm (m : Am)
  /-- AM_UNDEFINED: Active message with an undefined AMOP, refused with NAK UNDEFINED. (R32) -/
  | amUndefined (m : Am)
  /-- USER_AM_DELIVERY: A queued user AM leaves its handler entry as a token into the chosen bound handler instance once one is bound. (R36) -/
  | userAmDelivery (part entry : Nat)
  /-- DEVICE_AM_DELIVERY: The card takes a device-to-host AM of a VF once that VF has credit. (R42) -/
  | deviceAmDelivery (vf : Nat)
  /-- HOST_READ: Host read of device memory or MMIO, translated through the VF's tables and answered or failed. (R28) -/
  | hostRead (vf : BitVec 9) (va : DWord) (len : Nat)
  /-- HOST_WRITE: Host write of device memory, translated through the VF's tables, single-copy atomic per token event. (R28) -/
  | hostWrite (vf : BitVec 9) (va : DWord) (bytes : List Byte)
  /-- VF_TABLE_WRITE: VF 511 writes a VF table entry; the write is discarded while launches are unfinished, and enabling the VF resets its SEQ counters. (R26) -/
  | vfTableWrite (who : BitVec 9) (v : Nat) (val : DWord)
  /-- ATTESTATION_GO: A write of 1 to GO that produces a signed attestation report and a COMPLETE. (R45) -/
  | attestationGo (who : BitVec 9) (part : Nat) (val : DWord)
  /-- TKEY_WRITE: VF 511 writes a partition's tenant key, which resets the active policy to none. (R46) -/
  | tkeyWrite (who : BitVec 9) (part idx : Nat) (val : DWord)
  /-- SAVE_POOL_WRITE: VF 511 writes the save-pool register, accepted only if the partition is idle and owns the pool. (R96) -/
  | savePoolWrite (who : BitVec 9) (part : Nat) (val : DWord)
  /-- PARTITION_LAYOUT_WRITE: VF 511 writes a cluster's partition layout register, which resizes the partitions. (R104) -/
  | partitionLayoutWrite (who : BitVec 9) (g : Nat) (val : DWord)
  /-- RETIREMENT_WRITE: VF 511 sets retirement bits, which retire tiles for the life of the module. (R105) -/
  | retirementWrite (who : BitVec 9) (g : Nat) (val : DWord)
  /-- CLUSTER_CONTROL_WRITE: VF 511 writes a cluster control register; a write with REARM at or above CEILING is discarded, and a change of BASEOP moves the point in force. (R108) -/
  | clusterControlWrite (who : BitVec 9) (g : Nat) (val : DWord)
  /-- SPRINT_REGISTER_WRITE: VF 511 writes SPRINTW; a value above 6,000 is clamped to 6,000 and counted. (R108) -/
  | sprintRegisterWrite (who : BitVec 9) (val : DWord)
  /-- VF_CLAMP_WRITE: VF 511 writes a VF clamp register, which clamps MAXOP and MAXN, counts saturations and clears SATCNT through CLR. (R118) -/
  | vfClampWrite (who : BitVec 9) (v : Nat) (val : DWord)
  /-- THROTTLE_WRITE: VF 511 writes a cluster's throttle register, which sets the slot-return delay in force. (R120) -/
  | throttleWrite (who : BitVec 9) (g : Nat) (val : DWord)
  /-- GATE_REQUEST_WRITE: VF 511 writes GREQ bits, which request gating of unoccupied tiles or ungate them. (R123) -/
  | gateRequestWrite (who : BitVec 9) (g : Nat) (val : DWord)
  /-- OWNERSHIP_WRITE: VF 511 writes an ownership byte, which moves a GiB unit, starts its scrub and invalidates the walk cache. (R163) -/
  | ownershipWrite (who : BitVec 9) (u : Nat) (val : Byte)
  /-- RECORD_BUFFER_WRITE: Write of a fault or trace record buffer register, including CLR, which resets NEXTOFF and DROPPED. (R216) -/
  | recordBufferWrite (who : BitVec 9) (part : Nat) (trace : Bool) (word : Nat) (val : DWord)
  /-- REGISTER_WRITE: Write to a device MMIO register without behaviour of its own, applied or discarded and counted in the AM log. (R27) -/
  | registerWrite (who : BitVec 9) (off : Nat) (val : DWord)
  /-- FIRMWARE_START: The firmware starts, self-tests every tile, retires the tiles kept in flash and resets the generations. (R105) -/
  | firmwareStart (pkg : BitVec 8) (bad : List Nat)
  /-- LEWEN_TRAIN: The Lewen link trains at 8 lanes, or at 4 lanes if a lane fails. (R21) -/
  | lewenTrain (allLanes : Bool)
  /-- BINDING_DECISION: The home Starter's binding decision, run on a scheduling event, binds ready tasks to regions or starts pre-emptions. (R71) -/
  | bindingDecision (part : Nat)
  /-- FINISH_ARRIVAL: FINISH reaches the head of a configured input, so the element stops selecting and enters STOPPING. (R83) -/
  | finishArrival (eid q : Nat)
  /-- FINISH_FORWARD: Once no firing is in flight and owed answers are enqueued, the element sends FINISH on every route. (R83) -/
  | finishForward (eid : Nat)
  /-- ELEMENT_FREED: A stopped element with drained queues and memory retains its image and becomes unoccupied, ending teardown once all are freed. (R83) -/
  | elementFreed (eid : Nat)
  /-- HOLD_WAVE_ARRIVAL: The wave reaches an element, which completes its firings past selection and freezes. (R91) -/
  | holdWaveArrival (eid : Nat)
  /-- SOFT_ERROR: A corrected error is counted, or an uncorrectable error in a buffer or bank faults the element BUFFER-UE. (R173) -/
  | softError (place : SoftPlace)
  /-- TRACK_LINK_FAULT: A track link fails after replay and raises a link fault for the message's source element. (R173) -/
  | trackLinkFault (msg : Nat)
  /-- UPDATE_1MS: The millisecond power-controller update sets PWR, CSHARE, PKGW, H and MELT, cluster states, LIM and the budget end. (R109) -/
  | update1ms (pwr cshare : List (BitVec 16)) (pkgw : BitVec 16)
  /-- TOKEN_TRANSFER: A token moves from an output queue or route buffer into the next buffer once that buffer has room. (R134) -/
  | tokenTransfer (eid entry : Nat)
  /-- FAR_TOKEN_ARRIVAL: A far-channel token reaches an endpoint and is buffered, discarded or faulted FAR-OVERRUN. (R137) -/
  | farTokenArrival (msg : Nat)
  /-- ENDPOINT_DELIVERY: An endpoint moves its oldest token into the receiving queue and returns a credit. (R135) -/
  | endpointDelivery (tile ch : Nat)
  /-- CREDIT_RETURN: A credit return reaches the sending tile and adds one credit to the route entry. (R136) -/
  | creditReturn (msg : Nat)
  /-- TRACK_INJECT: A whole message in the egress buffer is injected into the track. (R139) -/
  | trackInject (tile : Nat) (response : Bool)
  /-- ANSWER_DELIVERY: A split-phase answer arrives and enters its output queue in entry order once there is room. (R301) -/
  | answerDelivery (eid : Nat)
  /-- HOME_EVENT: An access event reaches its home and performs in the granule's home order. (R175) -/
  | homeEvent (acc : Nat)
  /-- PREFETCH: A pattern stream prefetches its next position into its buffer, or marks it withheld on a failure. (R319) -/
  | prefetch (eid strm : Nat)
  /-- WALK_DONE: A page-table walk completes, refilling a translation entry or raising a memory fault. (R161) -/
  | walkDone (acc : Nat)
  /-- COPY_COMPLETE: A copy-engine operation completes, so its lap slot is counted filled or its acknowledgement is enqueued. (R156) -/
  | copyComplete (tile op : Nat)
  /-- REMOTE_ACCESS_RX: An access from another pod package arrives over Aqric and is checked and performed at its home. (R162) -/
  | remoteAccessRx (r : RemoteAccess)
  /-- AQRIC_PORT_FAIL: An Aqric port fails after replay, and its outstanding accesses and AMs complete with a link fault. (R16) -/
  | aqricPortFail (port : Nat)
  /-- AQRIC_REMAP: Once no request is outstanding on a failed port, the hash is remapped over the ports still up. (R16) -/
  | aqricRemap (port : Nat)
  /-- ETH_FRAME_RX: A received Ethernet frame is filtered, delivered to an INGRESS stream in SEQ order, or discarded and counted. (R20) -/
  | ethFrameRx (port : Nat) (f : EthFrame)
  /-- ETH_ACK_RX: A received ACK frame advances its EGRESS stream's unacknowledged window. (R20) -/
  | ethAckRx (port : Nat) (f : EthFrame)
  /-- ETH_ACK_SEND: The receiving port sends an ACK at least once per 16 frames and within 20 µs. (R19) -/
  | ethAckSend (port flow : Nat)
  /-- ETH_RESEND: No ACK advance in 100 µs resends from the first unacknowledged frame, and the eighth resend fails the egress. (R19) -/
  | ethResend (eid strm : Nat)
  /-- RATE_CAP_SECOND: Each aligned second of package time restarts the operator-bound record rate cap. (R55) -/
  | rateCapSecond (part : Nat)
  /-- MOV: Copies source A to the destinations. (R258) -/
  | mov (w : Slot)
  /-- NOP: Computes nothing, but may dequeue and set a predicate. (R264) -/
  | nop (w : Slot)
  /-- ADD: Lane-wise addition modulo 2^32. (R258) -/
  | add (w : Slot)
  /-- SUB: Lane-wise subtraction modulo 2^32. (R258) -/
  | sub (w : Slot)
  /-- ADDS: Saturating signed addition. (R258) -/
  | adds (w : Slot)
  /-- SUBS: Saturating signed subtraction. (R258) -/
  | subs (w : Slot)
  /-- ADDUS: Saturating unsigned addition. (R258) -/
  | addus (w : Slot)
  /-- SUBUS: Saturating unsigned subtraction. (R258) -/
  | subus (w : Slot)
  /-- MUL: Low 32 bits of the product, optionally saturating. (R258) -/
  | mul (w : Slot)
  /-- MULH: High 32 bits of the signed product. (R258) -/
  | mulh (w : Slot)
  /-- MULHU: High 32 bits of the unsigned product. (R258) -/
  | mulhu (w : Slot)
  /-- MAD: Multiply-add a × b + c, optionally saturating. (R258) -/
  | mad (w : Slot)
  /-- DIV: Signed division truncated toward zero. (R259) -/
  | div (w : Slot)
  /-- DIVU: Unsigned division. (R259) -/
  | divu (w : Slot)
  /-- REM: Signed remainder. (R259) -/
  | rem (w : Slot)
  /-- REMU: Unsigned remainder. (R259) -/
  | remu (w : Slot)
  /-- NEG: Negation, optionally saturating. (R258) -/
  | neg (w : Slot)
  /-- ABS: Absolute value, optionally saturating. (R258) -/
  | abs (w : Slot)
  /-- MIN: Signed minimum. (R258) -/
  | min (w : Slot)
  /-- MAX: Signed maximum. (R258) -/
  | max (w : Slot)
  /-- MINU: Unsigned minimum. (R258) -/
  | minu (w : Slot)
  /-- MAXU: Unsigned maximum. (R258) -/
  | maxu (w : Slot)
  /-- AND: Bitwise AND. (R258) -/
  | and (w : Slot)
  /-- OR: Bitwise OR. (R258) -/
  | or (w : Slot)
  /-- XOR: Bitwise XOR. (R258) -/
  | xor (w : Slot)
  /-- ANDN: a AND NOT b. (R258) -/
  | andn (w : Slot)
  /-- NOT: Bitwise NOT. (R258) -/
  | not (w : Slot)
  /-- SHL: Shift left by b[4:0]. (R258) -/
  | shl (w : Slot)
  /-- SHR: Logical shift right by b[4:0]. (R258) -/
  | shr (w : Slot)
  /-- SAR: Arithmetic shift right by b[4:0]. (R258) -/
  | sar (w : Slot)
  /-- ROL: Rotate left by b[4:0]. (R258) -/
  | rol (w : Slot)
  /-- CLZ: Counts leading zero bits. (R258) -/
  | clz (w : Slot)
  /-- POPC: Counts one bits. (R258) -/
  | popc (w : Slot)
  /-- BREV: Reverses the bits. (R258) -/
  | brev (w : Slot)
  /-- BFX: Extracts a bit field, zero- or sign-extended. (R260) -/
  | bfx (w : Slot)
  /-- BFI: Inserts a bit field. (R260) -/
  | bfi (w : Slot)
  /-- SEL: Lane-wise select by c. (R261) -/
  | sel (w : Slot)
  /-- CMPEQ: Lane mask of a = b. (R261) -/
  | cmpeq (w : Slot)
  /-- CMPNE: Lane mask of a ≠ b. (R261) -/
  | cmpne (w : Slot)
  /-- CMPLT: Lane mask of signed a < b. (R261) -/
  | cmplt (w : Slot)
  /-- CMPLE: Lane mask of signed a ≤ b. (R261) -/
  | cmple (w : Slot)
  /-- CMPLTU: Lane mask of unsigned a < b. (R261) -/
  | cmpltu (w : Slot)
  /-- CMPLEU: Lane mask of unsigned a ≤ b. (R261) -/
  | cmpleu (w : Slot)
  /-- ADD64: 64-bit pair addition. (R262) -/
  | add64 (w : Slot)
  /-- SUB64: 64-bit pair subtraction. (R262) -/
  | sub64 (w : Slot)
  /-- MUL64: Low 64 bits of the pair product. (R262) -/
  | mul64 (w : Slot)
  /-- CMPLT64: Pair mask of signed a < b. (R262) -/
  | cmplt64 (w : Slot)
  /-- AMOV: Broadcasts lane n of A to every lane. (R263) -/
  | amov (w : Slot)
  /-- AADD: Scalar lane-0 add, with an optional single wrap at C. (R263) -/
  | aadd (w : Slot)
  /-- FADD: Float addition, rounded once. (R281) -/
  | fadd (w : Slot)
  /-- FSUB: Float subtraction. (R281) -/
  | fsub (w : Slot)
  /-- FMUL: Float multiplication. (R281) -/
  | fmul (w : Slot)
  /-- FFMA: Fused a × b + c. (R281) -/
  | ffma (w : Slot)
  /-- FFMS: Fused a × b − c. (R281) -/
  | ffms (w : Slot)
  /-- FNMA: Fused −(a × b) + c. (R281) -/
  | fnma (w : Slot)
  /-- FMIN: Float minimum. (R282) -/
  | fmin (w : Slot)
  /-- FMAX: Float maximum. (R282) -/
  | fmax (w : Slot)
  /-- FABS: Clears the sign bit. (R282) -/
  | fabs (w : Slot)
  /-- FNEG: Inverts the sign bit. (R282) -/
  | fneg (w : Slot)
  /-- FCOPYSGN: Copies the sign of b onto a. (R282) -/
  | fcopysgn (w : Slot)
  /-- FCMPEQ: Float equality mask. (R282) -/
  | fcmpeq (w : Slot)
  /-- FCMPLT: Float less-than mask. (R282) -/
  | fcmplt (w : Slot)
  /-- FCMPLE: Float less-or-equal mask. (R282) -/
  | fcmple (w : Slot)
  /-- FCMPUN: Unordered mask. (R282) -/
  | fcmpun (w : Slot)
  /-- FDIV: Float division. (R281) -/
  | fdiv (w : Slot)
  /-- FSQRT: Float square root. (R281) -/
  | fsqrt (w : Slot)
  /-- FRCP: Correctly rounded reciprocal. (R281) -/
  | frcp (w : Slot)
  /-- FRSQ: Correctly rounded reciprocal square root. (R281) -/
  | frsq (w : Slot)
  /-- FRINT: Rounds to an integer kept as a float. (R281) -/
  | frint (w : Slot)
  /-- FCLASS: Writes the class bits of a. (R283) -/
  | fclass (w : Slot)
  /-- FSCALE: a × 2^b. (R281) -/
  | fscale (w : Slot)
  /-- FEXPN: Writes ⌊log2 |a|⌋ as an integer. (R282) -/
  | fexpn (w : Slot)
  /-- XCLR: Clears an accumulator and sets its window exponent. (R295) -/
  | xclr (w : Slot)
  /-- XADD: Takes lane values as exact terms into an accumulator. (R295) -/
  | xadd (w : Slot)
  /-- XMAC: Takes exact products as terms into an accumulator. (R295) -/
  | xmac (w : Slot)
  /-- XMERGE: Adds token j of a sent accumulator into an accumulator. (R297) -/
  | xmerge (w : Slot)
  /-- XSEND: Emits token j of an accumulator. (R296) -/
  | xsend (w : Slot)
  /-- XRD: Rounds each accumulator register once. (R298) -/
  | xrd (w : Slot)
  /-- XFLAG: Reads LOST, OV and TOV per lane. (R298) -/
  | xflag (w : Slot)
  /-- CVTFI: binary32 to INT32. (R284) -/
  | cvtfi (w : Slot)
  /-- CVTFU: binary32 to UINT32. (R284) -/
  | cvtfu (w : Slot)
  /-- CVTIF: INT32 to binary32. (R284) -/
  | cvtif (w : Slot)
  /-- CVTUF: UINT32 to binary32. (R284) -/
  | cvtuf (w : Slot)
  /-- CVTSD: binary32 lanes to binary64 pairs. (R284) -/
  | cvtsd (w : Slot)
  /-- CVTDS: binary64 pairs to binary32 lanes. (R284) -/
  | cvtds (w : Slot)
  /-- CVTDI: binary64 to INT64. (R284) -/
  | cvtdi (w : Slot)
  /-- CVTID: INT64 to binary64. (R284) -/
  | cvtid (w : Slot)
  /-- FSINPI: sin(πa) within 1 ULP. (R287) -/
  | fsinpi (w : Slot)
  /-- FCOSPI: cos(πa) within 1 ULP. (R287) -/
  | fcospi (w : Slot)
  /-- FRRED: Exact half-turn reduction. (R286) -/
  | frred (w : Slot)
  /-- FEXP2: 2^a. (R287) -/
  | fexp2 (w : Slot)
  /-- FLOG2: log2 a. (R287) -/
  | flog2 (w : Slot)
  /-- FTANH: tanh a. (R287) -/
  | ftanh (w : Slot)
  /-- FSIGM: Logistic sigmoid. (R287) -/
  | fsigm (w : Slot)
  /-- LSWAP: Swaps lanes by XOR with m. (R288) -/
  | lswap (w : Slot)
  /-- LROT: Rotates lanes upward. (R288) -/
  | lrot (w : Slot)
  /-- LPERM: Permutes lanes by an index token. (R288) -/
  | lperm (w : Slot)
  /-- LBCAST: Broadcasts one lane. (R288) -/
  | lbcast (w : Slot)
  /-- LXOR: Moves lanes by XOR with a scalar. (R288) -/
  | lxor (w : Slot)
  /-- LCOMP: Compacts even or odd lanes. (R288) -/
  | lcomp (w : Slot)
  /-- LEXP: Expands lanes into pairs. (R288) -/
  | lexp (w : Slot)
  /-- LSHUP: Shifts lanes up, filling from C. (R288) -/
  | lshup (w : Slot)
  /-- VMASK: Masks the valid lanes by a bit mask. (R289) -/
  | vmask (w : Slot)
  /-- VVALID: Reads the valid mask or its count. (R289) -/
  | vvalid (w : Slot)
  /-- VRADD: Integer sum reduction. (R290) -/
  | vradd (w : Slot)
  /-- VRMIN: Integer minimum reduction. (R290) -/
  | vrmin (w : Slot)
  /-- VRMAX: Integer maximum reduction. (R290) -/
  | vrmax (w : Slot)
  /-- VRFADD: Float sum over a fixed tree. (R291) -/
  | vrfadd (w : Slot)
  /-- VRFMAX: Float maximum over a fixed tree. (R291) -/
  | vrfmax (w : Slot)
  /-- VSCAN: Integer lane prefix sum with an optional carry. (R292) -/
  | vscan (w : Slot)
  /-- VFSCAN: Float lane prefix sum by fixed doubling. (R292) -/
  | vfscan (w : Slot)
  /-- PASS: Forwards an input head with its tag. (R267) -/
  | pass (w : Slot)
  /-- DUP: Emits a head repeatedly before dequeuing it. (R267) -/
  | dup (w : Slot)
  /-- FILT: Splits valid lanes by a condition. (R268) -/
  | filt (w : Slot)
  /-- GATE: Passes A or nothing by a condition. (R269) -/
  | gate (w : Slot)
  /-- MERGE: Joins two inputs by arrival or by steering. (R270) -/
  | merge (w : Slot)
  /-- ZIP: Advances two streams in step with a mismatch rule. (R271) -/
  | zip (w : Slot)
  /-- ISECT: Intersects two coordinate streams. (R273) -/
  | isect (w : Slot)
  /-- UNION: Unites two coordinate streams with fill values. (R273) -/
  | union (w : Slot)
  /-- RETAG: Passes A with a mapped tag. (R274) -/
  | retag (w : Slot)
  /-- TAGSEL: Steers A by its tag. (R274) -/
  | tagsel (w : Slot)
  /-- ALOOP: Generates a multidimensional index stream. (R275) -/
  | aloop (w : Slot)
  /-- CNT: Keeps a running count while passing tokens. (R276) -/
  | cnt (w : Slot)
  /-- ENDGEN: Delimits a stream into groups with an end tag. (R276) -/
  | endgen (w : Slot)
  /-- PSET: Writes several predicates. (R277) -/
  | pset (w : Slot)
  /-- SLOTEN: Writes slot enables. (R277) -/
  | sloten (w : Slot)
  /-- PACK: Packs valid lanes into whole tokens. (R278) -/
  | pack (w : Slot)
  /-- LDS: Loads a token from tile SRAM. (R304) -/
  | lds (w : Slot)
  /-- STS: Stores a token to tile SRAM. (R304) -/
  | sts (w : Slot)
  /-- LDSX: Indexed SRAM load. (R304) -/
  | ldsx (w : Slot)
  /-- STSX: Indexed SRAM store. (R304) -/
  | stsx (w : Slot)
  /-- ATMS: SRAM atomic per lane. (R305) -/
  | atms (w : Slot)
  /-- CASS: SRAM compare-and-swap per lane. (R305) -/
  | cass (w : Slot)
  /-- TAS: Tests and sets bits of an SRAM bitmap. (R306) -/
  | tas (w : Slot)
  /-- HINS: Inserts keys into a hash table. (R307) -/
  | hins (w : Slot)
  /-- HFIND: Finds keys in a hash table. (R307) -/
  | hfind (w : Slot)
  /-- LBPUT: Writes a granule into a lap-buffer slot. (R308) -/
  | lbput (w : Slot)
  /-- LBGET: Reads a granule of a lap-buffer slot. (R308) -/
  | lbget (w : Slot)
  /-- LBSTAT: Reads lap-buffer counters. (R308) -/
  | lbstat (w : Slot)
  /-- FENCES: SE fence at a scope. (R309) -/
  | fences (w : Slot)
  /-- CPY: Issues a copy-engine operation. (R310) -/
  | cpy (w : Slot)
  /-- RSTS: Stores into another tile's SRAM. (R311) -/
  | rsts (w : Slot)
  /-- RATM: Atomic on another tile's SRAM. (R311) -/
  | ratm (w : Slot)
  /-- LDG: Global token load through an INDEX stream. (R317) -/
  | ldg (w : Slot)
  /-- STG: Global token store with narrowing. (R317) -/
  | stg (w : Slot)
  /-- GATH: Global gather. (R317) -/
  | gath (w : Slot)
  /-- SCAT: Global scatter. (R317) -/
  | scat (w : Slot)
  /-- ATMG: Global atomic. (R318) -/
  | atmg (w : Slot)
  /-- CASG: Global compare-and-swap. (R318) -/
  | casg (w : Slot)
  /-- PATLD: Moves the head prefetched token of a LOAD or INGRESS stream. (R319) -/
  | patld (w : Slot)
  /-- PATST: Stores a token at a STORE or EGRESS stream's next position. (R319) -/
  | patst (w : Slot)
  /-- PLANELD: Emits one exponent or plane token of a PLANE stream. (R321) -/
  | planeld (w : Slot)
  /-- WLD: Emits one weight-block token. (R321) -/
  | wld (w : Slot)
  /-- FENCEG: AG fence that discards prefetched data. (R319) -/
  | fenceg (w : Slot)
  /-- PATSET: Writes stream registers and optionally restarts the stream. (R320) -/
  | patset (w : Slot)
  /-- PREF: Edge-cache prefetch hint. (R320) -/
  | pref (w : Slot)
  /-- MCFG: Configures a matrix element and clears its banks. (R326) -/
  | mcfg (w : Slot)
  /-- MWLOAD: Loads one weight-block token. (R327) -/
  | mwload (w : Slot)
  /-- MEXPT: Latches an exponent token and sets the plane counter. (R328) -/
  | mexpt (w : Slot)
  /-- MPLANE: Adds one plane's exact terms into the accumulators. (R328) -/
  | mplane (w : Slot)
  /-- MDRAIN: Drains one token of the inactive bank. (R329) -/
  | mdrain (w : Slot)
  /-- MCLR: Zeroes the inactive bank. (R329) -/
  | mclr (w : Slot)
  /-- MSWAP: Exchanges the active and inactive banks. (R329) -/
  | mswap (w : Slot)
  /-- MSTAT: Reads matrix-element status. (R329) -/
  | mstat (w : Slot)
  /-- TRAP: Faults with family TRAP and a code. (R332) -/
  | trap (w : Slot)
  /-- BRK: Holds the instance and writes a BREAK record. (R333) -/
  | brk (w : Slot)
  /-- LEASE: Sends a sprint lease request to the power controller. (R334) -/
  | lease (w : Slot)
  /-- LEASEEND: Asks the controller to end a lease by handle. (R335) -/
  | leaseend (w : Slot)
  /-- MELTRD: Reads MELT, STATE, OPNOW and LIVE of the cluster. (R336) -/
  | meltrd (w : Slot)
  /-- CNTRD: Reads a counter group. (R338) -/
  | cntrd (w : Slot)
  /-- CNTCTL: Freezes, runs or clears counter groups. (R338) -/
  | cntctl (w : Slot)
  /-- PACE: Passes a token as a pacer token with a fresh log. (R340) -/
  | pace (w : Slot)
  /-- TSTAMP: Reads package time, element id and instance. (R339) -/
  | tstamp (w : Slot)
  /-- TDONE: Reports a tile-task index done to the Starter. (R341) -/
  | tdone (w : Slot)
  /-- YIELD: Counts the instance's residency as having reached MINRES. (R342) -/
  | yield (w : Slot)
  /-- AMSEND: Sends an active message to the Starter, the host or a remote package. (R343) -/
  | amsend (w : Slot)
  /-- FLAGRD: Reads the sticky flag word. (R345) -/
  | flagrd (w : Slot)
  /-- FLAGCLR: Clears sticky flags. (R345) -/
  | flagclr (w : Slot)
  /-- POLICYRD: Reads a 64-byte piece of the active policy. (R346) -/
  | policyrd (w : Slot)
  /-- SELECTION: An element in RUN makes its selection of a step; even when no slot fires, it resets the AGE of every slot that is not eligible and counts the step in its counters and the region watchdog. (R145) -/
  | selection (eid : Nat)
  /-- AQRIC_REPLAY: An Aqric frame that fails its CRC is replayed, and the replay is counted in the port's physical-layer statistics. (R16) -/
  | aqricReplay (port : Nat)
  /-- COMPLETE: Device sends COMPLETE for a launch once every task is final and every access has performed at PACKAGE scope. (R41) -/
  | complete
  /-- FAULTNOTE: Device sends FAULTNOTE, with a filtered copy to VF 511, once a task's first fault record has performed or been dropped. (R41) -/
  | faultnote
  /-- POWER_UP: The boot ROM checks the flash image and either runs the firmware or enters the boot receiver state. (R44) -/
  | powerUp
  /-- GRAPH_WALK: The admission walk ends, having visited and counted every node of an accepted launch or faulted it. (R65) -/
  | graphWalk
  /-- AGING: A task that has waited 10 ms at one ready level moves up one level. (R68) -/
  | aging
  /-- MINRES_REACHED: An instance's residency reaches MINRES, which triggers the binding decision. (R69) -/
  | minresReached
  /-- RELAY_STAGED: The relay has staged the last element of a region. (R79) -/
  | relayStaged
  /-- CONFIG_FETCH_FAULT: A configuration-fetch fault discards the staged banks, writes one record and fails the task's unissued indices. (R80) -/
  | configFetchFault
  /-- COMMIT_WAVE: Once every element of a staged region is unoccupied, the commit wave starts. (R79) -/
  | commitWave
  /-- COMMIT_DONE: Every element has flipped, so initial tokens are placed, the generation advances and batons start. (R79) -/
  | commitDone
  /-- BATON: The Starter issues the next tile-task index as a baton token once the instance has room. (R75) -/
  | baton
  /-- TDONE_ACCOUNTING: The Starter accounts a TDONE, adds the statistics report and injects FINISH when the instance is finished. (R76) -/
  | tdoneAccounting
  /-- TASK_FINAL: A task reaches final status once its indices, teardown and accesses are complete, and its successors become ready. (R77) -/
  | taskFinal
  /-- COMPLETION_PROGRESS_WRITE: A completion object is rewritten at least every 1 ms while its counts have changed. (R76) -/
  | completionProgressWrite
  /-- WATCHDOG_DEADLOCK: The region watchdog reaches 2^20 steps, which faults the instance DEADLOCK. (R87) -/
  | watchdogDeadlock
  /-- BUCKET_REFILL: Each whole microsecond, every injection bucket gains REFF units up to DEPTH. (R86) -/
  | bucketRefill
  /-- HOLD_COMPLETE: Every element is held, so the Starter writes the BREAK HOLD record and sends COMPLETE. (R230) -/
  | holdComplete
  /-- SAVE_START: Once the region is frozen and route hops have stopped, a context record is allocated, or the pre-emption falls back to BOUNDARY. (R98) -/
  | saveStart
  /-- SAVE_END: The tile saves complete, the region becomes unoccupied and the task shows PREEMPTED, or a failed save discards the context. (R92) -/
  | saveEnd
  /-- RESTORE_DONE: A context record has been read into the staged banks and SRAM, or it fails and the task is faulted. (R102) -/
  | restoreDone
  /-- STARTER_FAULT: The Starter takes an instance's fault, stops batons, counts indices failed, links the record and ends leases. (R224) -/
  | starterFault
  /-- FAULT_RELEASE: A faulted instance is released, by AUTORELEASE once its records are written or by DBGHOLD, and its elements drain and free. (R226) -/
  | faultRelease
  /-- LEASE_REQUEST: A lease request reaches the power controller and is granted or refused. (R111) -/
  | leaseRequest
  /-- RAIL_REACHED: A rail ramp ends at the point in force, and a pending grant's answer is enqueued. (R107) -/
  | railReached
  /-- LEASE_EXPIRY: A lease's granted microseconds pass, which ends it with EXPIRY, with a trap if it is HARD. (R115) -/
  | leaseExpiry
  /-- LEASEEND_REQUEST: A LEASEEND reaches the controller and ends the named lease, answering with its reason. (R335) -/
  | leaseendRequest
  /-- LEASE_BUFFER_ENQUEUE: The lease buffer enqueues its oldest end token onto the lease port when the port has room. (R116) -/
  | leaseBufferEnqueue
  /-- AUTOGATE_TIMER: A tile unoccupied for 1 ms under AUTOGATE starts gating. (R123) -/
  | autogateTimer
  /-- GATE_OFF: Once no accepted operation is outstanding, the tile's supply switches off. (R123) -/
  | gateOff
  /-- UNGATE_DONE: After 20 µs an ungating tile is powered, with its SRAM reading zero. (R124) -/
  | ungateDone
  /-- SCRUB_DONE: The zeroing of a moved ownership unit completes, SCRUB clears and the waiting accesses proceed. (R163) -/
  | scrubDone
deriving DecidableEq, Repr

end Sys2Proof
end

