-- ==== Sys2Proof/Config.lean ====
section
/-! DEFINITION. What is fixed for one part or lies outside it: constants without a body, so that nothing
can evaluate them or prove a value of them (logs 5, 6 and 7). -/

namespace Sys2Proof

/-- The result that the part returns for a special function (by opcode) and an input where R287 states only
a bound; the model uses it where it lies within the bound (log 6). -/
opaque Config.special : Nat → Word → Word

/-- A value that the spec leaves open where the machine goes on: the address in the acknowledgement of a PATST on an EGRESS
stream, which makes no access (R302, R323; log 28). -/
opaque Config.freeWord : Nat → Word

/-- The bytes of a context record's tile header and element blocks, whose sizes R97 gives and whose inner layout it leaves open (log
10). -/
opaque Config.contextByte : Nat → Nat → Byte

/-- Which of several accessing lanes gives the address that an acknowledgement carries, by the number of the firing: R302 names
the access address of a firing that makes several accesses, and not which (log 15). -/
opaque Config.freeLane : Nat → Nat

/-- Whether an image's signature verifies under the key hash in the fuses and its version is not below the
fused minimum (R44; log 5). -/
opaque Config.firmwarePasses : List Byte → Bool

/-- The version of a firmware image (R44; log 5). -/
opaque Config.firmwareVersion : List Byte → Word

/-- SHA-256 of the device identity public key (R45; log 5). -/
opaque Config.identityKeyHash : BitVec 256

/-- The identity key's signature over a hash (R45; log 5). -/
opaque Config.attestationSignature : BitVec 256 → BitVec 512

/-- The MAC address of an Ethernet port, fixed at manufacture (R20; log 5). -/
opaque Config.ethMac : Nat → BitVec 48

/-- The hash that chooses among n Aqric ports by remote package id and granule number, and for active messages by the package
id alone (R15; log 5). -/
opaque Config.aqricHash : Nat → Nat → Nat → Nat
opaque Config.aqricAmHash : Nat → Nat → Nat

/-- What the controller projects for a power and a factor where the factor of the point in force is 0 (R108; log 5). -/
opaque Config.projection : Nat → Nat → Nat

/-- What the sensors measure over a millisecond: by number of the millisecond and cluster, the power and the cooling share in
W, and the package power (R109; log 7). -/
opaque Config.measuredPower : Nat → Nat → BitVec 16
opaque Config.measuredCooling : Nat → Nat → BitVec 16
opaque Config.measuredPackage : Nat → BitVec 16

/-- A byte that another package of the pod returns, by a number of the access and the address there (R14; log 7). -/
opaque Config.remoteByte : Nat → Nat → Byte

/-- Whether another package of the pod refuses an access with PERM-REMOTE, by a number of the access and the address there (R162;
log 7). -/
opaque Config.remoteRefuses : Nat → Nat → Bool

/-- Whether a 64-bit word that another package returns is poisoned, by a number of the access and the number of the word
there (R14, R169; log 7). -/
opaque Config.remotePoison : Nat → Nat → Bool

/-- The answer of another package to an active message: 0 or a NAK reason (R343; log 7). -/
opaque Config.remoteAnswer : Nat → BitVec 8

/-- What reaches the part from outside in a ns of package time: host accesses, frames, accesses of other packages, soft
errors and link failures; and the messages that the card delivers (log 7). -/
opaque Config.outside : Nat → List Instr
opaque Config.hostMessages : Nat → List (BitVec 128)

/-- The active messages of other packages that arrive in a ns, each with the package it comes from (R14, R343; log 7). -/
opaque Config.podMessages : Nat → List (BitVec 8 × BitVec 128)

/-- Whether the card holds back the messages of a VF in a ns: it gives no credit (R42; log 7). -/
opaque Config.cardHolds : Nat → Nat → Bool

/-- Whether a memory or link event, named by a number, waits in a ns where it could come about: the spec bounds no such
time from below (R149, R188; log 4). -/
opaque Config.waits : Nat → Nat → Bool

/-- The package id in the pod configuration, and the tiles that fail the firmware's self-test (R14, R105; log 7). -/
opaque Config.podId : BitVec 8
opaque Config.selfTestBad : List Nat

/-- What the physical layer of a port counted up to a second, by kind (0 FEC corrections, 1 CRC errors, 2 training events), port and
number of the second (R52; log 129). -/
opaque Config.portCount : Nat → Nat → Nat → Nat

/-- Whether all eight lanes of Lewen train (R21; log 7). -/
opaque Config.lewenAllLanes : Bool

end Sys2Proof
end

