-- ==== Sys2Proof/Machine/Opcode.lean ====
section
/-! DEFINITION. The opcode map (R243), the element types that accept each opcode (R244) and the operand
rules of every instruction (R235 to R242 and the instruction chapters), as one row per opcode. -/

namespace Sys2Proof

/-- What an instruction asks of a source specifier (R235, R249). -/
inductive Want where
  /-- NONE only. -/
  | no
  /-- Any source but an accumulator and NONE. -/
  | yes
  /-- As `yes`, or NONE. -/
  | opt
  /-- An input head. -/
  | head
  /-- An input head whose DEQ bit is set (R325). -/
  | headDeq
  | optHead
  | areg
  | vreg
  /-- A broadcast source, values 12 to 26 or 29 (R271, R273). -/
  | bcast
  | optBcast
  /-- An accumulator, values 27 and 28. -/
  | acc
deriving DecidableEq, Repr

/-- What an instruction asks of a destination specifier (R236). -/
inductive DWant where
  | no
  /-- Any destination but an accumulator, or NONE. -/
  | any
  /-- Any destination but an accumulator. -/
  | dest
  | out
  | outOpt
  /-- The acknowledgement destination: an output queue under ACK, otherwise NONE (R303). -/
  | ack
  | acc
  /-- The register that SB names (R266). -/
  | sameB
  /-- As `any`; of the two destinations at least one is named (R274). -/
  | tagsel
deriving DecidableEq, Repr

/-- Whether the D flag may or must be set (R241). -/
inductive Pair where
  | no | opt | req
deriving DecidableEq, Repr

/-- Which descriptor the DESC field of an SE instruction names (R299, R303). -/
inductive Desc where
  | no | lap | hash
deriving DecidableEq, Repr

/-- The operand rules of one instruction, as far as its own description states them. -/
structure OpSpec where
  a : Want := .no
  b : Want := .no
  c : Want := .no
  da : DWant := .any
  db : DWant := .any
  /-- The RND/MOD values 0 to rndMax are allowed (R240). -/
  rndMax : Nat := 0
  d : Pair := .no
  sat : Bool := false
  ack : Bool := false
  x : Bool := false
  /-- OTAG and KT must be zero (R265, R296, R319). -/
  noTag : Bool := false
  noKt : Bool := false
  /-- PM 001 to 011 are allowed. -/
  pmResult : Bool := true
  /-- PD and PM must be null (R277). -/
  pmNull : Bool := false
  /-- Split-phase when ACK is set (R301): then PM 001 to 011 are rejected. -/
  splitAck : Bool := false
  /-- FENCES and FENCEG, which take SCOPE without ACK. -/
  fence : Bool := false
  /-- Source 24 is rejected, because IMM holds fields (R257, R299, R325, R330). -/
  noImmSrc : Bool := false
  /-- The check of the IMM fields, where the instruction takes some. -/
  imm : Option (Slot → Bool) := none
  /-- Rules of the instruction's own. -/
  extra : Slot → Bool := fun _ => true

/-- One assigned opcode: its instruction and its operand rules. -/
structure OpRow where
  ins : Slot → Instr
  spec : OpSpec

def Src.headQueue : Src → Option (Fin 4)
  | .head q => Option.some q
  | _ => Option.none

def Dst.outQueue : Dst → Option (Fin 4)
  | .o q => Option.some q
  | _ => Option.none

def Dst.isOut (d : Dst) : Bool := d.outQueue.isSome

/-- The DEQ bit of input q. -/
def Slot.deqBit (w : Slot) (q : Fin 4) : Bool := w.deq.getLsbD q.val

/-- The mask with the bit of the head that a source names. -/
def headMask (s : Src) : BitVec 4 :=
  match s.headQueue with
  | some q => BitVec.ofNat 4 (2 ^ q.val)
  | none => 0

/-- DEQ names exactly the inputs that the form requires to be heads: SA; with `withB` also SB, from a
distinct queue; with `withC` also SC where it is a head (R265, R266). -/
def deqExact (withB withC : Bool) (w : Slot) : Bool :=
  (w.deq == (headMask w.sa ||| (if withB then headMask w.sb else 0) |||
    (if withC then headMask w.sc else 0))) && (!withB || w.sa != w.sb)

/-- The IMM of BFX and BFI (R260). -/
def immField (w : Slot) : Bool :=
  let width := (w.imm >>> 5).toNat % 64
  w.imm >>> 11 == 0 && 1 ≤ width && width ≤ 32 && w.imm.toNat % 32 + width ≤ 32

/-- The map of RETAG (R274). -/
def immRetag (w : Slot) : Bool :=
  (List.range 8).all (fun n =>
    let e := (w.imm >>> (4 * n)).toNat % 16
    e < 14 && (w.rnd == 0 || n < 6 || e == 0))

/-- The IMM of PSET (R277). -/
def immPset (w : Slot) : Bool :=
  w.imm >>> 16 == 0 && w.imm >>> 8 != 0 && (w.rnd == 0 || w.imm.toNat % 256 == 0)

/-- The IMM of SLOTEN (R277). -/
def immSloten (w : Slot) : Bool :=
  w.imm >>> 16 != 0 && (w.rnd == 0 || w.imm.toNat % 65536 == 0)

/-- The IMM of an SE instruction but its SCOPE: DESC zero unless it names a descriptor (bit 29 zero for a
hash table), bits 26:23 zero, OFF zero where the form has none (R299, R303). -/
def immSe (desc : Desc) (off : Bool) (w : Slot) : Bool :=
  let dn := (w.imm >>> 27).toNat % 8
  (w.imm >>> 23).toNat % 16 == 0 && (off || w.imm.toNat % 2 ^ 23 == 0) &&
    (match desc with
      | .no => dn == 0
      | .lap => true
      | .hash => dn < 4)

/-- The IMM of an AG instruction but its SCOPE (R299). -/
def immAg (stream off : Bool) (w : Slot) : Bool :=
  (stream || (w.imm >>> 28).toNat % 4 == 0) && (off || w.imm.toNat % 2 ^ 28 == 0)

/-- The IMM of PATSET: field 0 to 4, bits 27:5 zero (R320). -/
def immPatset (w : Slot) : Bool :=
  w.imm.toNat % 16 ≤ 4 && (w.imm >>> 5).toNat % 2 ^ 23 == 0

/-- The IMM of MCFG: P is 1 to 56, and at most 12 in MODE normal (R325). -/
def immMcfg (w : Slot) : Bool :=
  let p := (w.imm >>> 12).toNat % 64
  w.imm >>> 30 == 0 && 1 ≤ p && p ≤ (if w.x then 56 else 12)

/-- X:MOD selects an atomic operation from 0000 to 1000 (R305). -/
def atomicOk (w : Slot) : Bool := !w.x || w.rnd == 0

/-- The opcodes from 0x000 on (R243). -/
def opRows000 : List OpRow := [
  { ins := .nop, spec := { da := .no, db := .no, pmResult := false } },
  { ins := .mov, spec := { a := .yes } },
  { ins := .add, spec := { a := .yes, b := .yes } },
  { ins := .sub, spec := { a := .yes, b := .yes } },
  { ins := .adds, spec := { a := .yes, b := .yes } },
  { ins := .subs, spec := { a := .yes, b := .yes } },
  { ins := .addus, spec := { a := .yes, b := .yes } },
  { ins := .subus, spec := { a := .yes, b := .yes } },
  { ins := .mul, spec := { a := .yes, b := .yes, sat := true } },
  { ins := .mulh, spec := { a := .yes, b := .yes } },
  { ins := .mulhu, spec := { a := .yes, b := .yes } },
  { ins := .mad, spec := { a := .yes, b := .yes, c := .yes, sat := true } },
  { ins := .div, spec := { a := .yes, b := .yes } },
  { ins := .divu, spec := { a := .yes, b := .yes } },
  { ins := .rem, spec := { a := .yes, b := .yes } },
  { ins := .remu, spec := { a := .yes, b := .yes } } ]

/-- The opcodes from 0x010 on (R243). -/
def opRows010 : List OpRow := [
  { ins := .neg, spec := { a := .yes, sat := true } },
  { ins := .abs, spec := { a := .yes, sat := true } },
  { ins := .min, spec := { a := .yes, b := .yes } },
  { ins := .max, spec := { a := .yes, b := .yes } },
  { ins := .minu, spec := { a := .yes, b := .yes } },
  { ins := .maxu, spec := { a := .yes, b := .yes } },
  { ins := .and, spec := { a := .yes, b := .yes } },
  { ins := .or, spec := { a := .yes, b := .yes } },
  { ins := .xor, spec := { a := .yes, b := .yes } },
  { ins := .andn, spec := { a := .yes, b := .yes } },
  { ins := .not, spec := { a := .yes } },
  { ins := .shl, spec := { a := .yes, b := .yes } },
  { ins := .shr, spec := { a := .yes, b := .yes } },
  { ins := .sar, spec := { a := .yes, b := .yes } },
  { ins := .rol, spec := { a := .yes, b := .yes } },
  { ins := .clz, spec := { a := .yes } } ]

/-- The opcodes from 0x020 on (R243). -/
def opRows020 : List OpRow := [
  { ins := .popc, spec := { a := .yes } },
  { ins := .brev, spec := { a := .yes } },
  { ins := .bfx, spec := { a := .yes, rndMax := 1, imm := some immField, noImmSrc := true } },
  { ins := .bfi, spec := { a := .yes, b := .yes, imm := some immField, noImmSrc := true } },
  { ins := .sel, spec := { a := .yes, b := .yes, c := .yes } },
  { ins := .cmpeq, spec := { a := .yes, b := .yes } },
  { ins := .cmpne, spec := { a := .yes, b := .yes } },
  { ins := .cmplt, spec := { a := .yes, b := .yes } },
  { ins := .cmple, spec := { a := .yes, b := .yes } },
  { ins := .cmpltu, spec := { a := .yes, b := .yes } },
  { ins := .cmpleu, spec := { a := .yes, b := .yes } },
  { ins := .add64, spec := { a := .yes, b := .yes, d := .req } },
  { ins := .sub64, spec := { a := .yes, b := .yes, d := .req } },
  { ins := .mul64, spec := { a := .yes, b := .yes, d := .req } },
  { ins := .cmplt64, spec := { a := .yes, b := .yes, d := .req } },
  { ins := .amov, spec := { a := .yes, imm := some (fun w => w.imm >>> 4 == 0), noImmSrc := true } } ]

/-- The opcodes from 0x030 on (R243). -/
def opRows030 : List OpRow := [
  { ins := .aadd, spec := { a := .yes, b := .yes, c := .opt, x := true, extra := (fun w => w.x == (w.sc != .none)) } } ]

/-- The opcodes from 0x040 on (R243). -/
def opRows040 : List OpRow := [
  { ins := .fadd, spec := { a := .yes, b := .yes, rndMax := 4, d := .opt } },
  { ins := .fsub, spec := { a := .yes, b := .yes, rndMax := 4, d := .opt } },
  { ins := .fmul, spec := { a := .yes, b := .yes, rndMax := 4, d := .opt } },
  { ins := .ffma, spec := { a := .yes, b := .yes, c := .yes, rndMax := 4, d := .opt } },
  { ins := .ffms, spec := { a := .yes, b := .yes, c := .yes, rndMax := 4, d := .opt } },
  { ins := .fnma, spec := { a := .yes, b := .yes, c := .yes, rndMax := 4, d := .opt } },
  { ins := .fmin, spec := { a := .yes, b := .yes, d := .opt } },
  { ins := .fmax, spec := { a := .yes, b := .yes, d := .opt } },
  { ins := .fabs, spec := { a := .yes, d := .opt } },
  { ins := .fneg, spec := { a := .yes, d := .opt } },
  { ins := .fcopysgn, spec := { a := .yes, b := .yes, d := .opt } },
  { ins := .fcmpeq, spec := { a := .yes, b := .yes, d := .opt } },
  { ins := .fcmplt, spec := { a := .yes, b := .yes, d := .opt } },
  { ins := .fcmple, spec := { a := .yes, b := .yes, d := .opt } },
  { ins := .fcmpun, spec := { a := .yes, b := .yes, d := .opt } },
  { ins := .fdiv, spec := { a := .yes, b := .yes, rndMax := 4, d := .opt } } ]

/-- The opcodes from 0x050 on (R243). -/
def opRows050 : List OpRow := [
  { ins := .fsqrt, spec := { a := .yes, rndMax := 4, d := .opt } },
  { ins := .frcp, spec := { a := .yes, rndMax := 4, d := .opt } },
  { ins := .frsq, spec := { a := .yes, rndMax := 4, d := .opt } },
  { ins := .frint, spec := { a := .yes, rndMax := 4, d := .opt } },
  { ins := .fclass, spec := { a := .yes, d := .opt } },
  { ins := .fscale, spec := { a := .yes, b := .yes, rndMax := 4, d := .opt } },
  { ins := .fexpn, spec := { a := .yes, d := .opt } },
  { ins := .xclr, spec := { da := .acc, db := .no, d := .opt, pmResult := false, imm := some (fun w => w.imm >>> 12 == 0), noImmSrc := true } },
  { ins := .xadd, spec := { a := .yes, da := .acc, db := .no, d := .opt, x := true, pmResult := false } },
  { ins := .xmac, spec := { a := .yes, b := .yes, da := .acc, db := .no, d := .opt, x := true, pmResult := false } },
  { ins := .xmerge, spec := { a := .head, b := .yes, da := .acc, d := .opt, pmResult := false } },
  { ins := .xsend, spec := { a := .acc, b := .yes, da := .dest, db := .dest, d := .opt, noTag := true } },
  { ins := .xrd, spec := { a := .acc, rndMax := 4, d := .opt } },
  { ins := .xflag, spec := { a := .acc, d := .opt } } ]

/-- The opcodes from 0x080 on (R243). -/
def opRows080 : List OpRow := [
  { ins := .cvtfi, spec := { a := .yes, rndMax := 4 } },
  { ins := .cvtfu, spec := { a := .yes, rndMax := 4 } },
  { ins := .cvtif, spec := { a := .yes, rndMax := 4 } },
  { ins := .cvtuf, spec := { a := .yes, rndMax := 4 } },
  { ins := .cvtsd, spec := { a := .yes } },
  { ins := .cvtds, spec := { a := .yes, b := .opt, rndMax := 4, d := .req } },
  { ins := .cvtdi, spec := { a := .yes, rndMax := 4, d := .req } },
  { ins := .cvtid, spec := { a := .yes, rndMax := 4, d := .req } },
  { ins := .fsinpi, spec := { a := .yes } },
  { ins := .fcospi, spec := { a := .yes } },
  { ins := .frred, spec := { a := .yes, d := .opt } },
  { ins := .fexp2, spec := { a := .yes } },
  { ins := .flog2, spec := { a := .yes } },
  { ins := .ftanh, spec := { a := .yes } },
  { ins := .fsigm, spec := { a := .yes } } ]

/-- The opcodes from 0x090 on (R243). -/
def opRows090 : List OpRow := [
  { ins := .lswap, spec := { a := .yes, rndMax := 3 } },
  { ins := .lrot, spec := { a := .yes, b := .yes } },
  { ins := .lperm, spec := { a := .yes, b := .yes, c := .opt, x := true, extra := (fun w => w.x == (w.sc != .none)) } },
  { ins := .lbcast, spec := { a := .yes, b := .yes } },
  { ins := .lxor, spec := { a := .yes, b := .yes } },
  { ins := .lcomp, spec := { a := .yes, b := .opt, rndMax := 1 } },
  { ins := .lexp, spec := { a := .yes, b := .opt, rndMax := 3, x := true, extra := (fun w => (w.rnd == 3) == (w.sb != .none)) } },
  { ins := .lshup, spec := { a := .yes, b := .yes, c := .opt } },
  { ins := .vmask, spec := { a := .yes, b := .yes } },
  { ins := .vvalid, spec := { a := .yes, rndMax := 1 } },
  { ins := .vradd, spec := { a := .yes, d := .opt } },
  { ins := .vrmin, spec := { a := .yes, rndMax := 1, d := .opt } },
  { ins := .vrmax, spec := { a := .yes, rndMax := 1, d := .opt } },
  { ins := .vrfadd, spec := { a := .yes, rndMax := 4, d := .opt } },
  { ins := .vrfmax, spec := { a := .yes, d := .opt } },
  { ins := .vscan, spec := { a := .yes, c := .opt, d := .opt, x := true } } ]

/-- The opcodes from 0x0A0 on (R243). -/
def opRows0A0 : List OpRow := [
  { ins := .vfscan, spec := { a := .yes, c := .opt, rndMax := 4, d := .opt, x := true } } ]

/-- The opcodes from 0x0C0 on (R243). -/
def opRows0C0 : List OpRow := [
  { ins := .pass, spec := { a := .head, noTag := true } },
  { ins := .dup, spec := { a := .head, b := .areg, c := .yes, da := .out, db := .sameB, noTag := true, extra := (deqExact false false) } },
  { ins := .filt, spec := { a := .yes, b := .yes, noTag := true } },
  { ins := .gate, spec := { a := .yes, b := .yes, rndMax := 1, noTag := true } },
  { ins := .merge, spec := { a := .head, b := .head, c := .optHead, rndMax := 1, noTag := true, extra := (fun w => (w.rnd == 1) == (w.sc != .none) && deqExact true true w) } },
  { ins := .zip, spec := { a := .head, b := .head, c := .optBcast, da := .dest, db := .dest, rndMax := 2, noTag := true, extra := (fun w => (w.rnd == 2) == (w.sc != .none) && deqExact true false w) } },
  { ins := .isect, spec := { a := .head, b := .head, noKt := true, extra := (deqExact true false) } },
  { ins := .union, spec := { a := .head, b := .head, c := .bcast, noKt := true, extra := (deqExact true false) } },
  { ins := .retag, spec := { a := .yes, rndMax := 1, noTag := true, imm := some immRetag } },
  { ins := .tagsel, spec := { a := .yes, da := .tagsel, noTag := true, imm := some (fun w => w.imm >>> 15 == 0) } },
  { ins := .aloop, spec := { da := .out, noKt := true, imm := some (fun w => w.imm >>> 2 == 0) } },
  { ins := .cnt, spec := { a := .yes, b := .yes, da := .dest, rndMax := 3 } },
  { ins := .endgen, spec := { a := .yes, b := .areg, c := .yes, db := .sameB, noKt := true, extra := (fun w => 8 ≤ w.otag.toNat && w.otag.toNat ≤ 12) } },
  { ins := .pset, spec := { a := .opt, da := .no, db := .no, rndMax := 1, pmNull := true, imm := some immPset, extra := (fun w => (w.rnd == 1) == (w.sa != .none)) } },
  { ins := .sloten, spec := { a := .opt, da := .no, db := .no, rndMax := 1, pmNull := true, imm := some immSloten, extra := (fun w => (w.rnd == 1) == (w.sa != .none)) } },
  { ins := .pack, spec := { a := .head, b := .vreg, da := .out, db := .sameB, extra := (deqExact false false) } } ]

/-- The opcodes from 0x100 on (R243). -/
def opRows100 : List OpRow := [
  { ins := .lds, spec := { imm := some (immSe .no true), noImmSrc := true, noKt := true, a := .yes } },
  { ins := .sts, spec := { imm := some (immSe .no true), noImmSrc := true, noKt := true, a := .yes, b := .yes, da := .ack, ack := true } },
  { ins := .ldsx, spec := { imm := some (immSe .no true), noImmSrc := true, noKt := true, a := .yes } },
  { ins := .stsx, spec := { imm := some (immSe .no true), noImmSrc := true, noKt := true, a := .yes, b := .yes, da := .ack, ack := true } },
  { ins := .atms, spec := { a := .yes, b := .yes, rndMax := 7, x := true, noKt := true, imm := some (immSe .no true), noImmSrc := true, extra := atomicOk } },
  { ins := .cass, spec := { imm := some (immSe .no true), noImmSrc := true, noKt := true, a := .yes, b := .yes, c := .yes } },
  { ins := .tas, spec := { a := .yes, noKt := true, imm := some (fun w => immSe .no true w && w.imm.toNat % 4 == 0), noImmSrc := true } },
  { ins := .hins, spec := { imm := some (immSe .hash false), noImmSrc := true, noKt := true, a := .yes, b := .opt } },
  { ins := .hfind, spec := { imm := some (immSe .hash false), noImmSrc := true, noKt := true, a := .yes } },
  { ins := .lbput, spec := { imm := some (immSe .lap true), noImmSrc := true, noKt := true, a := .yes, da := .no, db := .no, x := true } },
  { ins := .lbget, spec := { imm := some (immSe .lap true), noImmSrc := true, noKt := true, x := true } },
  { ins := .lbstat, spec := { imm := some (immSe .lap false), noImmSrc := true, noKt := true } },
  { ins := .fences, spec := { imm := some (immSe .no false), noImmSrc := true, noKt := true, da := .out, db := .no, fence := true, pmResult := false } },
  { ins := .cpy, spec := { a := .yes, da := .ack, db := .no, rndMax := 2, ack := true, noKt := true, noImmSrc := true, splitAck := true, imm := some (fun w => immSe (if w.rnd == 2 then .lap else .no) false w) } },
  { ins := .rsts, spec := { imm := some (immSe .no true), noImmSrc := true, noKt := true, a := .yes, b := .yes, da := .ack, db := .no, ack := true, pmResult := false } },
  { ins := .ratm, spec := { a := .yes, b := .yes, da := .outOpt, db := .no, rndMax := 7, x := true, noKt := true, imm := some (immSe .no true), noImmSrc := true, extra := atomicOk, pmResult := false } } ]

/-- The opcodes from 0x110 on (R243). -/
def opRows110 : List OpRow := [
  { ins := .ldg, spec := { imm := some (immAg true true), noImmSrc := true, noKt := true, a := .yes, da := .out, db := .no, pmResult := false } },
  { ins := .stg, spec := { imm := some (immAg true true), noImmSrc := true, noKt := true, a := .yes, b := .yes, da := .ack, db := .no, ack := true, splitAck := true } },
  { ins := .gath, spec := { imm := some (immAg true true), noImmSrc := true, noKt := true, a := .yes, da := .out, db := .no, pmResult := false } },
  { ins := .scat, spec := { imm := some (immAg true true), noImmSrc := true, noKt := true, a := .yes, b := .yes, da := .ack, db := .no, ack := true, splitAck := true } },
  { ins := .atmg, spec := { a := .yes, b := .yes, da := .outOpt, db := .no, rndMax := 7, x := true, noKt := true, imm := some (immAg true true), noImmSrc := true, extra := atomicOk, pmResult := false } },
  { ins := .casg, spec := { imm := some (immAg true true), noImmSrc := true, noKt := true, a := .yes, b := .yes, c := .yes, da := .outOpt, db := .no, pmResult := false } },
  { ins := .patld, spec := { imm := some (immAg true false), noImmSrc := true, noKt := true, noTag := true } },
  { ins := .patst, spec := { imm := some (immAg true false), noImmSrc := true, noKt := true, a := .yes, da := .ack, db := .no, ack := true, splitAck := true } },
  { ins := .planeld, spec := { imm := some (immAg true false), noImmSrc := true, noKt := true } },
  { ins := .wld, spec := { imm := some (immAg true false), noImmSrc := true, noKt := true } },
  { ins := .fenceg, spec := { imm := some (immAg false false), noImmSrc := true, noKt := true, da := .out, db := .no, fence := true, pmResult := false } },
  { ins := .patset, spec := { a := .opt, da := .no, db := .no, noKt := true, noImmSrc := true, imm := some immPatset, extra := (fun w => w.imm.toNat % 16 == 4 || w.sa != .none) } },
  { ins := .pref, spec := { imm := some (immAg true true), noImmSrc := true, noKt := true, a := .yes, da := .no, db := .no } } ]

/-- The opcodes from 0x140 on (R243). -/
def opRows140 : List OpRow := [
  { ins := .mcfg, spec := { da := .no, db := .no, x := true, pmResult := false, imm := some immMcfg, noKt := true, noImmSrc := true } },
  { ins := .mwload, spec := { a := .headDeq, da := .no, db := .no, pmResult := false, imm := some (fun w => w.imm >>> 3 == 0), noKt := true, noImmSrc := true } },
  { ins := .mexpt, spec := { a := .headDeq, da := .no, db := .no, pmResult := false, imm := some (fun w => w.imm >>> 1 == 0), noKt := true, noImmSrc := true } },
  { ins := .mplane, spec := { a := .headDeq, da := .no, db := .no, pmResult := false, noKt := true, noImmSrc := true } },
  { ins := .mdrain, spec := { rndMax := 4, x := true, noKt := true, noImmSrc := true } },
  { ins := .mclr, spec := { da := .no, db := .no, pmResult := false, noKt := true, noImmSrc := true } },
  { ins := .mswap, spec := { da := .no, db := .no, pmResult := false, noKt := true, noImmSrc := true } },
  { ins := .mstat, spec := { pmResult := false, noKt := true, noImmSrc := true } } ]

/-- The opcodes from 0x180 on (R243). -/
def opRows180 : List OpRow := [
  { ins := .trap, spec := { da := .no, db := .no, pmResult := false, imm := some (fun w => w.imm >>> 8 == 0), noKt := true, noImmSrc := true } },
  { ins := .brk, spec := { da := .no, db := .no, pmResult := false, noKt := true, noImmSrc := true } },
  { ins := .lease, spec := { a := .yes, da := .out, db := .no, pmResult := false, noKt := true, noImmSrc := true } },
  { ins := .leaseend, spec := { a := .yes, da := .outOpt, db := .no, pmResult := false, noKt := true, noImmSrc := true } },
  { ins := .meltrd, spec := { noKt := true, noImmSrc := true } },
  { ins := .cntrd, spec := { imm := some (fun w => w.imm >>> 3 == 0), noKt := true, noImmSrc := true } },
  { ins := .cntctl, spec := { da := .no, db := .no, pmResult := false, imm := some (fun w => w.imm >>> 10 == 0 && w.imm.toNat % 256 != 0 && w.imm >>> 8 != 3), noKt := true, noImmSrc := true } },
  { ins := .pace, spec := { a := .yes, pmResult := false, noTag := true, noImmSrc := true } },
  { ins := .tstamp, spec := { noKt := true, noImmSrc := true } },
  { ins := .tdone, spec := { a := .yes, da := .no, db := .no, pmResult := false, noKt := true, noImmSrc := true } },
  { ins := .yield, spec := { da := .no, db := .no, pmResult := false, noKt := true, noImmSrc := true } },
  { ins := .amsend, spec := { a := .yes, da := .outOpt, db := .no, pmResult := false, noKt := true, noImmSrc := true } },
  { ins := .flagrd, spec := { noKt := true, noImmSrc := true } },
  { ins := .flagclr, spec := { da := .no, db := .no, pmResult := false, imm := some (fun w => w.imm >>> 8 == 0 && w.imm != 0), noKt := true, noImmSrc := true } },
  { ins := .policyrd, spec := { imm := some (fun w => w.imm >>> 3 == 0), noKt := true, noImmSrc := true } } ]

/-- The blocks of assigned opcodes, each with its first opcode (R243). -/
def opBlocks : List (Nat × List OpRow) := [
  (0x000, opRows000),
  (0x010, opRows010),
  (0x020, opRows020),
  (0x030, opRows030),
  (0x040, opRows040),
  (0x050, opRows050),
  (0x080, opRows080),
  (0x090, opRows090),
  (0x0A0, opRows0A0),
  (0x0C0, opRows0C0),
  (0x100, opRows100),
  (0x110, opRows110),
  (0x140, opRows140),
  (0x180, opRows180) ]

/-- The row of an opcode; none where it is unassigned (R243). -/
def opRow? (opc : Nat) : Option OpRow :=
  match opBlocks.find? (fun b => b.1 ≤ opc && opc < b.1 + b.2.length) with
  | some b => b.2[opc - b.1]?
  | none => none

/-- The opcode and the other fields of a Siroux instruction; none for the other rows of the table. -/
def opcodeOf : Instr → Option (Nat × Slot)
  | .nop w => some (0x000, w)
  | .mov w => some (0x001, w)
  | .add w => some (0x002, w)
  | .sub w => some (0x003, w)
  | .adds w => some (0x004, w)
  | .subs w => some (0x005, w)
  | .addus w => some (0x006, w)
  | .subus w => some (0x007, w)
  | .mul w => some (0x008, w)
  | .mulh w => some (0x009, w)
  | .mulhu w => some (0x00A, w)
  | .mad w => some (0x00B, w)
  | .div w => some (0x00C, w)
  | .divu w => some (0x00D, w)
  | .rem w => some (0x00E, w)
  | .remu w => some (0x00F, w)
  | .neg w => some (0x010, w)
  | .abs w => some (0x011, w)
  | .min w => some (0x012, w)
  | .max w => some (0x013, w)
  | .minu w => some (0x014, w)
  | .maxu w => some (0x015, w)
  | .and w => some (0x016, w)
  | .or w => some (0x017, w)
  | .xor w => some (0x018, w)
  | .andn w => some (0x019, w)
  | .not w => some (0x01A, w)
  | .shl w => some (0x01B, w)
  | .shr w => some (0x01C, w)
  | .sar w => some (0x01D, w)
  | .rol w => some (0x01E, w)
  | .clz w => some (0x01F, w)
  | .popc w => some (0x020, w)
  | .brev w => some (0x021, w)
  | .bfx w => some (0x022, w)
  | .bfi w => some (0x023, w)
  | .sel w => some (0x024, w)
  | .cmpeq w => some (0x025, w)
  | .cmpne w => some (0x026, w)
  | .cmplt w => some (0x027, w)
  | .cmple w => some (0x028, w)
  | .cmpltu w => some (0x029, w)
  | .cmpleu w => some (0x02A, w)
  | .add64 w => some (0x02B, w)
  | .sub64 w => some (0x02C, w)
  | .mul64 w => some (0x02D, w)
  | .cmplt64 w => some (0x02E, w)
  | .amov w => some (0x02F, w)
  | .aadd w => some (0x030, w)
  | .fadd w => some (0x040, w)
  | .fsub w => some (0x041, w)
  | .fmul w => some (0x042, w)
  | .ffma w => some (0x043, w)
  | .ffms w => some (0x044, w)
  | .fnma w => some (0x045, w)
  | .fmin w => some (0x046, w)
  | .fmax w => some (0x047, w)
  | .fabs w => some (0x048, w)
  | .fneg w => some (0x049, w)
  | .fcopysgn w => some (0x04A, w)
  | .fcmpeq w => some (0x04B, w)
  | .fcmplt w => some (0x04C, w)
  | .fcmple w => some (0x04D, w)
  | .fcmpun w => some (0x04E, w)
  | .fdiv w => some (0x04F, w)
  | .fsqrt w => some (0x050, w)
  | .frcp w => some (0x051, w)
  | .frsq w => some (0x052, w)
  | .frint w => some (0x053, w)
  | .fclass w => some (0x054, w)
  | .fscale w => some (0x055, w)
  | .fexpn w => some (0x056, w)
  | .xclr w => some (0x057, w)
  | .xadd w => some (0x058, w)
  | .xmac w => some (0x059, w)
  | .xmerge w => some (0x05A, w)
  | .xsend w => some (0x05B, w)
  | .xrd w => some (0x05C, w)
  | .xflag w => some (0x05D, w)
  | .cvtfi w => some (0x080, w)
  | .cvtfu w => some (0x081, w)
  | .cvtif w => some (0x082, w)
  | .cvtuf w => some (0x083, w)
  | .cvtsd w => some (0x084, w)
  | .cvtds w => some (0x085, w)
  | .cvtdi w => some (0x086, w)
  | .cvtid w => some (0x087, w)
  | .fsinpi w => some (0x088, w)
  | .fcospi w => some (0x089, w)
  | .frred w => some (0x08A, w)
  | .fexp2 w => some (0x08B, w)
  | .flog2 w => some (0x08C, w)
  | .ftanh w => some (0x08D, w)
  | .fsigm w => some (0x08E, w)
  | .lswap w => some (0x090, w)
  | .lrot w => some (0x091, w)
  | .lperm w => some (0x092, w)
  | .lbcast w => some (0x093, w)
  | .lxor w => some (0x094, w)
  | .lcomp w => some (0x095, w)
  | .lexp w => some (0x096, w)
  | .lshup w => some (0x097, w)
  | .vmask w => some (0x098, w)
  | .vvalid w => some (0x099, w)
  | .vradd w => some (0x09A, w)
  | .vrmin w => some (0x09B, w)
  | .vrmax w => some (0x09C, w)
  | .vrfadd w => some (0x09D, w)
  | .vrfmax w => some (0x09E, w)
  | .vscan w => some (0x09F, w)
  | .vfscan w => some (0x0A0, w)
  | .pass w => some (0x0C0, w)
  | .dup w => some (0x0C1, w)
  | .filt w => some (0x0C2, w)
  | .gate w => some (0x0C3, w)
  | .merge w => some (0x0C4, w)
  | .zip w => some (0x0C5, w)
  | .isect w => some (0x0C6, w)
  | .union w => some (0x0C7, w)
  | .retag w => some (0x0C8, w)
  | .tagsel w => some (0x0C9, w)
  | .aloop w => some (0x0CA, w)
  | .cnt w => some (0x0CB, w)
  | .endgen w => some (0x0CC, w)
  | .pset w => some (0x0CD, w)
  | .sloten w => some (0x0CE, w)
  | .pack w => some (0x0CF, w)
  | .lds w => some (0x100, w)
  | .sts w => some (0x101, w)
  | .ldsx w => some (0x102, w)
  | .stsx w => some (0x103, w)
  | .atms w => some (0x104, w)
  | .cass w => some (0x105, w)
  | .tas w => some (0x106, w)
  | .hins w => some (0x107, w)
  | .hfind w => some (0x108, w)
  | .lbput w => some (0x109, w)
  | .lbget w => some (0x10A, w)
  | .lbstat w => some (0x10B, w)
  | .fences w => some (0x10C, w)
  | .cpy w => some (0x10D, w)
  | .rsts w => some (0x10E, w)
  | .ratm w => some (0x10F, w)
  | .ldg w => some (0x110, w)
  | .stg w => some (0x111, w)
  | .gath w => some (0x112, w)
  | .scat w => some (0x113, w)
  | .atmg w => some (0x114, w)
  | .casg w => some (0x115, w)
  | .patld w => some (0x116, w)
  | .patst w => some (0x117, w)
  | .planeld w => some (0x118, w)
  | .wld w => some (0x119, w)
  | .fenceg w => some (0x11A, w)
  | .patset w => some (0x11B, w)
  | .pref w => some (0x11C, w)
  | .mcfg w => some (0x140, w)
  | .mwload w => some (0x141, w)
  | .mexpt w => some (0x142, w)
  | .mplane w => some (0x143, w)
  | .mdrain w => some (0x144, w)
  | .mclr w => some (0x145, w)
  | .mswap w => some (0x146, w)
  | .mstat w => some (0x147, w)
  | .trap w => some (0x180, w)
  | .brk w => some (0x181, w)
  | .lease w => some (0x182, w)
  | .leaseend w => some (0x183, w)
  | .meltrd w => some (0x184, w)
  | .cntrd w => some (0x185, w)
  | .cntctl w => some (0x186, w)
  | .pace w => some (0x187, w)
  | .tstamp w => some (0x188, w)
  | .tdone w => some (0x189, w)
  | .yield w => some (0x18A, w)
  | .amsend w => some (0x18B, w)
  | .flagrd w => some (0x18C, w)
  | .flagclr w => some (0x18D, w)
  | .policyrd w => some (0x18E, w)
  | .launch _
  | .cancel _
  | .preempt _
  | .resume _
  | .signal _
  | .order _
  | .policy _
  | .maproot _
  | .fwloadOpen _
  | .fwloadClose _
  | .dbgread _
  | .dbghold _
  | .dbgholdRelease _
  | .userAm _
  | .amUndefined _
  | .userAmDelivery _ _
  | .deviceAmDelivery _
  | .hostRead _ _ _
  | .hostWrite _ _ _
  | .vfTableWrite _ _ _
  | .attestationGo _ _ _
  | .tkeyWrite _ _ _ _
  | .savePoolWrite _ _ _
  | .partitionLayoutWrite _ _ _
  | .retirementWrite _ _ _
  | .clusterControlWrite _ _ _
  | .sprintRegisterWrite _ _
  | .vfClampWrite _ _ _
  | .throttleWrite _ _ _
  | .gateRequestWrite _ _ _
  | .ownershipWrite _ _ _
  | .recordBufferWrite _ _ _ _ _
  | .registerWrite _ _ _
  | .firmwareStart _ _
  | .lewenTrain _
  | .bindingDecision _
  | .finishArrival _ _
  | .finishForward _
  | .elementFreed _
  | .holdWaveArrival _
  | .softError _
  | .trackLinkFault _
  | .update1ms _ _ _
  | .tokenTransfer _ _
  | .farTokenArrival _
  | .endpointDelivery _ _
  | .creditReturn _
  | .trackInject _ _
  | .answerDelivery _
  | .homeEvent _
  | .prefetch _ _
  | .walkDone _
  | .copyComplete _ _
  | .remoteAccessRx _
  | .aqricPortFail _
  | .aqricRemap _
  | .ethFrameRx _ _
  | .ethAckRx _ _
  | .ethAckSend _ _
  | .ethResend _ _
  | .rateCapSecond _
  | .selection _
  | .aqricReplay _
  | .complete
  | .faultnote
  | .powerUp
  | .graphWalk
  | .aging
  | .minresReached
  | .relayStaged
  | .configFetchFault
  | .commitWave
  | .commitDone
  | .baton
  | .tdoneAccounting
  | .taskFinal
  | .completionProgressWrite
  | .watchdogDeadlock
  | .bucketRefill
  | .holdComplete
  | .saveStart
  | .saveEnd
  | .restoreDone
  | .starterFault
  | .faultRelease
  | .leaseRequest
  | .railReached
  | .leaseExpiry
  | .leaseendRequest
  | .leaseBufferEnqueue
  | .autogateTimer
  | .gateOff
  | .ungateDone
  | .scrubDone => none

/-- The class 0 opcodes that SEs and AGs accept as well (R244). -/
def classZeroSubset : List Nat :=
  [0x000, 0x001, 0x002, 0x003, 0x012, 0x013, 0x016, 0x017, 0x018, 0x01B, 0x01C, 0x024,
   0x025, 0x026, 0x027, 0x028, 0x029, 0x02A, 0x02F, 0x030]

/-- The element types that accept an assigned opcode (R244). -/
def accepts (ty : ElemType) (opc : Nat) : Bool :=
  match ty with
  | .pe => opc < 0x100 || 0x180 ≤ opc
  | .se => classZeroSubset.contains opc || (0x0C0 ≤ opc && opc < 0x110)
  | .ag => classZeroSubset.contains opc || (0x110 ≤ opc && opc ≤ 0x11C) || opc == 0x188 ||
      opc == 0x18C || opc == 0x18D
  | .me => (0x140 ≤ opc && opc ≤ 0x147) || opc == 0x18C || opc == 0x18D

/-- Whether a source meets what the instruction asks (R235). -/
def wantOk (w : Slot) (want : Want) (s : Src) : Bool :=
  let isBcast : Bool := match s with
    | .a _ | .c _ | .imm | .lane | .zero | .ones => true
    | _ => false
  match want, s with
  | .no, .none => true
  | .no, _ => false
  | .yes, .none | .yes, .x _ => false
  | .yes, _ => true
  | .opt, .x _ => false
  | .opt, _ => true
  | .head, .head _ => true
  | .head, _ => false
  | .headDeq, .head q => w.deqBit q
  | .headDeq, _ => false
  | .optHead, .head _ | .optHead, .none => true
  | .optHead, _ => false
  | .areg, .a _ => true
  | .areg, _ => false
  | .vreg, .v _ => true
  | .vreg, _ => false
  | .bcast, _ => isBcast
  | .optBcast, .none => true
  | .optBcast, _ => isBcast
  | .acc, .x _ => true
  | .acc, _ => false

/-- Whether a destination meets what the instruction asks (R236). -/
def dwantOk (w : Slot) (want : DWant) (d : Dst) : Bool :=
  let plain : Bool := match d with
    | .x _ => false
    | _ => true
  match want with
  | .no => d == .none
  | .any => plain
  | .dest => plain && d != .none
  | .out => d.isOut
  | .outOpt => d.isOut || d == .none
  | .ack => if w.ack then d.isOut else d == .none
  | .acc => match d with
    | .x _ => true
    | _ => false
  | .sameB => match d, w.sb with
    | .a n, .a m => n == m
    | .v n, .v m => n == m
    | _, _ => false
  | .tagsel => plain && (w.da != .none || w.db != .none)

/-- Under D an a-register pair or a constant pair is named by its even member (R235, R236). -/
def pairSrcOk (s : Src) : Bool :=
  match s with
  | .a n => n.val % 2 == 0
  | .c n => n.val % 2 == 0
  | _ => true

def pairDstOk (d : Dst) : Bool :=
  match d with
  | .a n => n.val % 2 == 0
  | _ => true

/-- The rules of R236 to R242 and of the instruction's own description, whatever the element type. -/
def operandsOk (sp : OpSpec) (w : Slot) : Bool :=
  let srcImm := w.sa == .imm || w.sb == .imm || w.sc == .imm
  wantOk w sp.a w.sa && wantOk w sp.b w.sb && wantOk w sp.c w.sc &&
  dwantOk w sp.da w.da && dwantOk w sp.db w.db &&
  (!w.d || (pairSrcOk w.sa && pairSrcOk w.sb && pairSrcOk w.sc && pairDstOk w.da && pairDstOk w.db)) &&
  -- R236
  (w.db == .none || w.da != .none || sp.da == .tagsel) &&
  (w.da != w.db || w.da == .none || w.da.isOut) &&
  -- R239
  (w.pm != .keep || w.pd == 0) && (w.pm != .endTag || w.deq != 0) &&
  (!sp.pmNull || w.pm == .keep) &&
  ((sp.pmResult && !(sp.splitAck && w.ack)) ||
    !(w.pm == .lane0 || w.pm == .anyLane || w.pm == .allLanes)) &&
  -- R240, R241
  w.rnd.toNat ≤ sp.rndMax &&
  (match sp.d with | .no => !w.d | .opt => true | .req => w.d) &&
  (sp.sat || !w.sat) && (sp.ack || !w.ack) && (sp.x || !w.x) &&
  (!w.kt || (w.deq != 0 && !sp.noKt && !sp.noTag)) &&
  ((w.da.isOut || w.db.isOut) || (w.otag == 0 && !w.kt)) &&
  (!sp.noTag || w.otag == 0) &&
  -- R242, R257, R299
  (!sp.noImmSrc || !srcImm) &&
  (match sp.imm with | some f => f w | none => w.imm == 0 || (srcImm && !sp.noImmSrc)) &&
  sp.extra w

/-- SCOPE, bits 31:30 of IMM, is zero in a class 4 instruction that neither acknowledges nor fences
(R299). -/
def scopeOk (opc : Nat) (sp : OpSpec) (w : Slot) : Bool :=
  !(0x100 ≤ opc && opc < 0x140) || w.ack || sp.fence || w.imm >>> 30 == 0

/-- The v registers of an element type (R125). -/
def vCount : ElemType → Nat
  | .pe => 8
  | .se => 4
  | .ag => 2
  | .me => 0

/-- The slots of an element type (R125). -/
def slotCount : ElemType → Nat
  | .pe | .se => 16
  | .me | .ag => 8

/-- A source names state that the element type has (R125). -/
def srcStateOk (ty : ElemType) (s : Src) : Bool :=
  match s with
  | .v n => n.val < vCount ty
  | .a _ => ty != .me
  | .x _ => ty == .pe
  | _ => true

def dstStateOk (ty : ElemType) (d : Dst) : Bool :=
  match d with
  | .v n => n.val < vCount ty
  | .a _ => ty != .me
  | .x _ => ty == .pe
  | _ => true

/-- The word names no state that the element type lacks (R125). -/
def stateOk (ty : ElemType) (w : Slot) : Bool :=
  srcStateOk ty w.sa && srcStateOk ty w.sb && srcStateOk ty w.sc && dstStateOk ty w.da && dstStateOk ty w.db

/-- The trigger half holds only what R141 allows: PCOND never asks for both values, and no input test
names tag 0xF or a reserved class. -/
def triggerOk (w : Slot) : Bool :=
  w.condT &&& w.condF == 0 &&
  [w.test0, w.test1].all (fun t => match t with
    | some ⟨_, false, code⟩ => code != 15
    | some ⟨_, true, code⟩ => code.toNat ≤ 5 || code == 15
    | none => true)

/-- Check 5 of R245 but for the element type. -/
def slotLegal (opc : Nat) (sp : OpSpec) (w : Slot) : Bool := operandsOk sp w && scopeOk opc sp w

end Sys2Proof
end

