-- ==== Sys2Proof/WellFormed.lean ====
section
/-! DEFINITION. Well-formed instructions: a Siroux instruction meets R129, R141 and R234 to R242 and its
own operand rules, an active message stands under the constructor of its AMOP (R32), and an event names
things that exist (R1, R2, R13, R17, R25). -/

namespace Sys2Proof

/-- A tile id names a tile when its row and column are 0 to 5 (R2). -/
def tileOk (t : Nat) : Bool := t < 1024 && t / 8 % 8 < 6 && t % 8 < 6

/-- An element id names an element when its tile exists (R2). -/
def elemOk (e : Nat) : Bool := tileOk (e / 64)

/-- The constructor that an AMOP and its operand select (R32, R44, R230). -/
def amInstr (m : Am) : Instr :=
  match m.amop.toNat with
  | 0x01 => .launch m
  | 0x02 => .cancel m
  | 0x03 => .preempt m
  | 0x04 => .resume m
  | 0x05 => .signal m
  | 0x06 => .order m
  | 0x07 => .policy m
  | 0x08 => .maproot m
  | 0x09 => if m.operand == 0 then .fwloadClose m else .fwloadOpen m
  | 0x0A => .dbgread m
  | 0x0B => if m.operand.getLsbD 16 then .dbghold m else .dbgholdRelease m
  | n => if 0x40 ≤ n && n < 0x50 then .userAm m else .amUndefined m

/-- The message of an instruction that is one. -/
def amOf : Instr → Option Am
  | .launch m | .cancel m | .preempt m | .resume m | .signal m | .order m | .policy m | .maproot m
  | .fwloadOpen m | .fwloadClose m | .dbgread m | .dbghold m | .dbgholdRelease m | .userAm m
  | .amUndefined m => some m
  | _ => none

/-- The names that an event gives exist in the part. -/
def eventOk : Instr → Bool
  | .userAmDelivery p k => p < 16 && k < 16
  | .attestationGo _ p _ | .tkeyWrite _ p _ _ | .savePoolWrite _ p _ | .recordBufferWrite _ p _ _ _ => p < 16
  | .bindingDecision p | .rateCapSecond p => p < 16
  | .vfTableWrite _ v _ | .vfClampWrite _ v _ => v < 512
  | .deviceAmDelivery v => v < 512
  | .partitionLayoutWrite _ g _ | .retirementWrite _ g _ | .clusterControlWrite _ g _
  | .throttleWrite _ g _ | .gateRequestWrite _ g _ => g < 16
  | .ownershipWrite _ u _ => u < 4096
  | .finishArrival e q => elemOk e && q < 4
  | .finishForward e | .elementFreed e | .holdWaveArrival e | .answerDelivery e | .selection e => elemOk e
  | .tokenTransfer e k => elemOk e && k < 16
  | .prefetch e k | .ethResend e k => elemOk e && k < 4
  | .endpointDelivery t k => tileOk t && k < 16
  | .trackInject t _ | .copyComplete t _ => tileOk t
  | .aqricPortFail p | .aqricRemap p | .aqricReplay p => p < 36
  | .ethFrameRx p _ | .ethAckRx p _ | .ethAckSend p _ => p < 4
  | _ => true

/-- A Siroux instruction is legal in some element type: the checks 1, 2, 4 and 5 of R245 pass. -/
def slotWellFormed (opc : Nat) (w : Slot) : Bool :=
  match opRow? opc with
  | some r => triggerOk w && w.otag != 15 && slotLegal opc r.spec w
  | none => false

/-- Well-formed instructions. -/
def Instr.wellFormed (i : Instr) : Bool :=
  match opcodeOf i with
  | some (opc, w) => slotWellFormed opc w
  | none =>
    match amOf i with
    | some m => amInstr m == i
    | none => eventOk i

/-- `Instr.wellFormed` as a proposition. -/
abbrev Instr.WellFormed (i : Instr) : Prop := i.wellFormed = true

end Sys2Proof
end

