-- ==== Sys2Proof/Decode.lean ====
section
/-! DEFINITION. Decoding of 128-bit slot words (R141, R234 to R246) and active messages (R29, R32), total
on any bytes, and the encoder of both. -/

namespace Sys2Proof

/-- Why a word is no instruction. The last five are the codes of R245; a commit reports them (R220). -/
inductive Reject where
  /-- Fewer than 16 bytes are left. -/
  | short
  /-- V = 0: an empty slot, which never fires (R141). -/
  | empty
  /-- Check 1: the trigger half (R141). -/
  | trigger
  /-- Check 2: OPC is unassigned (R243). -/
  | opcode
  /-- Check 3: the element type does not accept OPC (R244). -/
  | cls
  /-- Check 4: OTAG is 0xF (R129). -/
  | otagFinish
  /-- Check 5: a specifier, a field or an operand rule (R235 to R242). -/
  | reserved
deriving DecidableEq, Repr

/-- The source of a specifier value; 30 is rejected (R235). -/
def srcOfCode (n : Nat) : Option Src :=
  if n < 8 then some (.v (Fin.ofNat 8 n))
  else if n < 12 then some (.head (Fin.ofNat 4 (n - 8)))
  else if n < 16 then some (.a (Fin.ofNat 4 (n - 12)))
  else if n < 24 then some (.c (Fin.ofNat 8 (n - 16)))
  else match n with
    | 24 => some .imm
    | 25 => some .lane
    | 26 => some .zero
    | 27 => some (.x 0)
    | 28 => some (.x 1)
    | 29 => some .ones
    | 31 => some .none
    | _ => none

/-- The value of a source specifier (R235). -/
def Src.code : Src → BitVec 5
  | .v n => BitVec.ofNat 5 n.val
  | .head q => BitVec.ofNat 5 (8 + q.val)
  | .a n => BitVec.ofNat 5 (12 + n.val)
  | .c n => BitVec.ofNat 5 (16 + n.val)
  | .imm => 24
  | .lane => 25
  | .zero => 26
  | .x n => BitVec.ofNat 5 (27 + n.val)
  | .ones => 29
  | .none => 31

/-- The destination of a specifier value; 16 to 26, 29 and 30 are rejected (R236). -/
def dstOfCode (n : Nat) : Option Dst :=
  if n < 8 then some (.v (Fin.ofNat 8 n))
  else if n < 12 then some (.o (Fin.ofNat 4 (n - 8)))
  else if n < 16 then some (.a (Fin.ofNat 4 (n - 12)))
  else match n with
    | 27 => some (.x 0)
    | 28 => some (.x 1)
    | 31 => some .none
    | _ => none

/-- The value of a destination specifier (R236). -/
def Dst.code : Dst → BitVec 5
  | .v n => BitVec.ofNat 5 n.val
  | .o q => BitVec.ofNat 5 (8 + q.val)
  | .a n => BitVec.ofNat 5 (12 + n.val)
  | .x n => BitVec.ofNat 5 (27 + n.val)
  | .none => 31

/-- The predicate mode of PM (R239). -/
def pmOfCode (b : BitVec 3) : PredMode :=
  match b.toNat with
  | 0 => .keep
  | 1 => .lane0
  | 2 => .anyLane
  | 3 => .allLanes
  | 4 => .setTrue
  | 5 => .setFalse
  | 6 => .endTag
  | _ => .invert

def PredMode.code : PredMode → BitVec 3
  | .keep => 0
  | .lane0 => 1
  | .anyLane => 2
  | .allLanes => 3
  | .setTrue => 4
  | .setFalse => 5
  | .endTag => 6
  | .invert => 7

/-- The eight bits at lo, lo + 2, …: one value of every PCOND pair (R141). -/
def condMask (w : BitVec 128) (lo : Nat) : BitVec 8 :=
  BitVec.ofBool (w.getLsbD (lo + 14)) ++ BitVec.ofBool (w.getLsbD (lo + 12)) ++
  BitVec.ofBool (w.getLsbD (lo + 10)) ++ BitVec.ofBool (w.getLsbD (lo + 8)) ++
  BitVec.ofBool (w.getLsbD (lo + 6)) ++ BitVec.ofBool (w.getLsbD (lo + 4)) ++
  BitVec.ofBool (w.getLsbD (lo + 2)) ++ BitVec.ofBool (w.getLsbD lo)

/-- An input test from its eight bits; with EN = 0 the others must be zero (R141). -/
def testOfCode (b : BitVec 8) : Option (Option InputTest) :=
  if b.getLsbD 7 then
    some (some { q := ⟨(b.extractLsb' 5 2).toNat, (b.extractLsb' 5 2).isLt⟩, cls := b.getLsbD 4,
                 code := b.extractLsb' 0 4 })
  else if b == 0 then some none
  else none

def testCode : Option InputTest → BitVec 8
  | some t => BitVec.ofBool true ++ BitVec.ofNat 2 t.q.val ++ BitVec.ofBool t.cls ++ t.code
  | none => 0

/-- The fields of a slot word, where its specifiers name something (R141, R234). -/
def slotOfWord (w : BitVec 128) : Option Slot := do
  let t0 ← testOfCode (w.extractLsb' 101 8)
  let t1 ← testOfCode (w.extractLsb' 93 8)
  let da ← dstOfCode (w.extractLsb' 74 5).toNat
  let db ← dstOfCode (w.extractLsb' 69 5).toNat
  let sa ← srcOfCode (w.extractLsb' 56 5).toNat
  let sb ← srcOfCode (w.extractLsb' 51 5).toNat
  let sc ← srcOfCode (w.extractLsb' 46 5).toNat
  return {
    pri := w.extractLsb' 125 2, condT := condMask w 110, condF := condMask w 109, test0 := t0, test1 := t1,
    da, db, otag := w.extractLsb' 65 4, deq := w.extractLsb' 61 4, sa, sb, sc,
    pd := ⟨(w.extractLsb' 43 3).toNat, (w.extractLsb' 43 3).isLt⟩, pm := pmOfCode (w.extractLsb' 40 3),
    rnd := w.extractLsb' 37 3, d := w.getLsbD 36, kt := w.getLsbD 35, sat := w.getLsbD 34,
    ack := w.getLsbD 33, x := w.getLsbD 32, imm := w.extractLsb' 0 32 }

/-- Check 1 of R245 on the word: no reserved bit, PCOND never 11, every input test legal (R141). -/
def wordTriggerOk (w : BitVec 128) : Bool :=
  w.extractLsb' 88 5 == 0 && condMask w 110 &&& condMask w 109 == 0 &&
  [w.extractLsb' 101 8, w.extractLsb' 93 8].all (fun b =>
    match testOfCode b with
    | none => false
    | some none => true
    | some (some t) => if t.cls then t.code.toNat ≤ 5 || t.code == 15 else t.code != 15)

/-- The checks of R245 in their order, for an element type where one is given (check 3 and the state the
type lacks); check 6 needs the element's routes and is made with the image. -/
def checkSlotWord (ty : Option ElemType) (w : BitVec 128) : Except Reject Instr :=
  if !w.getLsbD 127 then .error .empty
  else if !wordTriggerOk w then .error .trigger
  else
    let opc := (w.extractLsb' 79 9).toNat
    match opRow? opc with
    | none => .error .opcode
    | some r =>
      if (match ty with | some t => !accepts t opc | none => false) then .error .cls
      else if w.extractLsb' 65 4 == 15 then .error .otagFinish
      else
        match slotOfWord w with
        | none => .error .reserved
        | some s =>
          if !slotLegal opc r.spec s then .error .reserved
          else if (match ty with | some t => !stateOk t s | none => false) then .error .reserved
          else .ok (r.ins s)

/-- The instruction of a slot word, whatever the element type. -/
def decodeSlot (w : BitVec 128) : Except Reject Instr := checkSlotWord none w

/-- The fields of an active message (R29). -/
def amOfWord (sender : AmFrom) (w : BitVec 128) : Am :=
  { amop := w.extractLsb' 120 8, vf := w.extractLsb' 111 9, part := w.extractLsb' 107 4,
    seq := w.extractLsb' 96 11, operand := w.extractLsb' 64 32, cont := w.extractLsb' 0 64, sender }

/-- The instruction of an active message: every AMOP has one (R32). -/
def decodeAm (sender : AmFrom) (w : BitVec 128) : Instr := amInstr (amOfWord sender w)

/-- The little-endian value of bytes (R6). -/
def leNat : List Byte → Nat
  | [] => 0
  | b :: bs => b.toNat + 256 * leNat bs

/-- The n low bytes of a number, little-endian (R6). -/
def leBytes : Nat → Nat → List Byte
  | 0, _ => []
  | n + 1, v => BitVec.ofNat 8 v :: leBytes n (v / 256)

/-- The instruction that 16 bytes hold and the bytes behind it: a slot word where bit 127 is set, which is
V of R141, and otherwise an active message of the host, whose defined AMOPs leave bit 127 clear (R32). -/
def decode (bs : List Byte) : Except Reject (Instr × List Byte) :=
  if bs.length < 16 then .error .short
  else
    let w := BitVec.ofNat 128 (leNat (bs.take 16))
    if w.getLsbD 127 then
      match decodeSlot w with
      | .ok i => .ok (i, bs.drop 16)
      | .error r => .error r
    else .ok (decodeAm .host w, bs.drop 16)

/-- PCOND of predicate k (R141). -/
def condBits (s : Slot) (k : Nat) : BitVec 2 := BitVec.ofBool (s.condT.getLsbD k) ++ BitVec.ofBool (s.condF.getLsbD k)

/-- The slot word of an opcode and its fields (R141, R234). -/
def encodeSlot (opc : Nat) (s : Slot) : BitVec 128 :=
  BitVec.ofBool true ++ s.pri ++
  (condBits s 7 ++ condBits s 6 ++ condBits s 5 ++ condBits s 4 ++
   condBits s 3 ++ condBits s 2 ++ condBits s 1 ++ condBits s 0) ++
  testCode s.test0 ++ testCode s.test1 ++ (0 : BitVec 5) ++
  BitVec.ofNat 9 opc ++ s.da.code ++ s.db.code ++ s.otag ++ s.deq ++
  s.sa.code ++ s.sb.code ++ s.sc.code ++ BitVec.ofNat 3 s.pd.val ++ s.pm.code ++ s.rnd ++
  BitVec.ofBool s.d ++ BitVec.ofBool s.kt ++ BitVec.ofBool s.sat ++ BitVec.ofBool s.ack ++
  BitVec.ofBool s.x ++ s.imm

/-- The 128 bits of an active message (R29). -/
def encodeAm (m : Am) : BitVec 128 := m.amop ++ m.vf ++ m.part ++ m.seq ++ m.operand ++ m.cont

/-- The 128-bit word of an instruction that has one: a Siroux instruction or an active message. -/
def encodeWord (i : Instr) : Option (BitVec 128) :=
  match opcodeOf i with
  | some (opc, s) => some (encodeSlot opc s)
  | none =>
    match amOf i with
    | some m => some (encodeAm m)
    | none => none

/-- The bytes of an instruction as memory or the link holds them; none for an event of the table. -/
def encode (i : Instr) : List Byte :=
  match encodeWord i with
  | some w => leBytes 16 w.toNat
  | none => []

/-- The instruction read from the bits of a table row; the table gives no row any bits, and every
instruction has 128 (R29, R234). -/
def decodeTableWord (nbits w : Nat) : Option Instr :=
  match decode (leBytes 16 (w % 2 ^ nbits)) with
  | .ok (i, _) => some i
  | .error _ => none

end Sys2Proof
end

