-- ==== Sys2Proof/Machine/Data.lean ====
section
/-! DEFINITION. The parts that State is made of: tokens and queues, firings, elements, tiles, memory
operations, tasks and instances, clusters and links, as plain data. -/

namespace Sys2Proof.Machine

/-- A sparse table: keys strictly rising, each with its value. -/
abbrev NMap (α : Type) := List (Nat × α)

/-! ## Tokens -/

/-- One hop of a pacer log: element, arrival offset, departure offset once left (R227, R229). -/
structure PacerHop where
  eid : Nat
  arrive : Nat
  depart : Option Nat
deriving DecidableEq, Repr

/-- The hop log that a pacer token carries (R227). -/
structure PacerLog where
  birth : Nat
  origin : Nat
  hops : List PacerHop
  ovf : Bool
deriving DecidableEq, Repr

/-- A token: payload and valid mask, tag, and the log where the pacer bit is set (R128). -/
structure Token where
  lanes : Lanes
  tag : Tag
  pacer : Option PacerLog := none
deriving DecidableEq, Repr

/-- A predicate (R127). -/
inductive Pred where
  | yes | no | pending
deriving DecidableEq, Repr

/-- An operand as the firing read it: lanes, and the tag where the source is an input head (R235). -/
structure View where
  lanes : Lanes
  tag : Option Tag
deriving DecidableEq, Repr

/-- Counts an element keeps since its last report (R214, R215). -/
structure Counts where
  sat : Nat := 0
  nann : Nat := 0
  under : Nat := 0
  stoch : Nat := 0
  alignx : Nat := 0
  hovf : Nat := 0
deriving DecidableEq, Repr

/-- A prefetched token, or the failure that withholds it: family, code, address (R319). -/
structure Prefetched where
  token : Token
  fault : Option (Nat × Nat × Nat)
  /-- What its widening or alignment counts, once it is moved (R196, R202). -/
  stats : Counts := { }
  flags : Word := 0
deriving DecidableEq, Repr

/-- An exact accumulator x0 or x1 (R207, R293). -/
structure Acc where
  regs : Vector (BitVec 192) 16
  we : BitVec 12
  lost : Bool
  tov : Bool
deriving DecidableEq, Repr

/-- A firing past selection (R146). -/
structure Firing where
  /-- Its number; what it issues carries the same. -/
  seq : Nat
  slot : Nat
  word : BitVec 128
  a : View
  b : View
  c : View
  /-- The dequeued tokens with their input queues, lowest queue first. -/
  deqd : List (Fin 4 × Token)
  /-- The value of PD before selection (R239). -/
  oldPd : Pred
  /-- The answer-buffer entry taken at selection (R301, R331). -/
  entry : Option Nat
  /-- What else the instruction reads at selection: counters, cursors, stream heads, package time. -/
  extra : List Nat
  /-- A token that the instruction moved out of a stream's buffer at selection (R319, R321). -/
  moved : Option Prefetched
  /-- A fault found at selection and taken at write-back, with its address (R146, R319). -/
  fault : Option (Nat × Nat × Nat)
  /-- The accumulator that SA names, as it was at selection (R235, R242, R298). -/
  acc : Option Acc := none
  /-- The log of a pacer token at the head that A names, where the firing does not dequeue it (R340). -/
  kept : Option PacerLog := none
  /-- Steps to the write-back; 0 is due this step (R144). -/
  remaining : Nat
  /-- The lanes whose granule events the banks have served before the write-back, with what each gave; whether poison was met; the
events served of the key that is under way; and the steps that the next event has waited (R151, R304, R307). -/
  early : List (Nat × Word × Word) := []
  earlyBad : Bool := false
  served : Nat := 0
  waited : Nat := 0
deriving DecidableEq, Repr

/-! ## Memory operations -/

/-- Where an access goes once translated (R162). -/
inductive Home where
  | unset
  | hbm (pa : Nat)
  | mmio (pa : Nat)
  | remote (pkg : Nat) (ptag : Nat) (pa : Nat) (port : Nat)
  | sram (tile addr : Nat)
deriving DecidableEq, Repr

/-- How far an access has come. -/
inductive AccStage where
  /-- Waits for its walk (R165). -/
  | walk
  /-- In the tile's egress buffer (R139). -/
  | egress
  /-- On the track, before its home. -/
  | track
  /-- At an Aqric port, before the answer of the remote package; the number rises with each access accepted. -/
  | aqric (order : Nat)
deriving DecidableEq, Repr

/-- One event of an operation (R174): what it does to the bytes from `va` on. -/
inductive AccKind where
  /-- Read `len` bytes to offset `off` of the operation's data. -/
  | load (off len : Nat)
  /-- Write bytes at their offsets from `va`; a POISON token writes markers (R171). -/
  | store (bytes : List (Nat × Byte)) (poison : Bool)
  /-- Write the bits of a mask in each byte: offset, mask, value (R201). -/
  | merge (bytes : List (Nat × Byte × Byte)) (poison : Bool)
  /-- One atomic on words: lane, offset, operand (R305). -/
  | atomic (op : BitVec 4) (lanes : List (Nat × Nat × Word)) (poison : Bool)
  /-- Compare and swap: lane, offset, comparand, new value. -/
  | cas (lanes : List (Nat × Nat × Word × Word)) (poison : Bool)
deriving DecidableEq, Repr

structure Access where
  id : Nat
  op : Nat
  eid : Nat
  /-- Stream 0 to 3 of an AG; 4 is the remote port of an SE. -/
  port : Nat
  va : Nat
  kind : AccKind
  home : Home
  stage : AccStage
deriving DecidableEq, Repr

/-- What an operation gives back. -/
inductive OpResult where
  /-- Data of LDG or GATH: format, and for each lane its offset in the data. -/
  | data (fmt : Nat) (lanes : List (Nat × Nat))
  /-- Old values of an atomic. -/
  | old
  /-- An acknowledgement with its address (R302). -/
  | ack (addr : DWord)
  /-- Nothing. -/
  | none
deriving DecidableEq, Repr

/-- A memory operation: one firing's accesses and their common answer (R301). -/
structure MemOp where
  id : Nat
  /-- The firing that issued it, for the record of a fault (R167). -/
  firing : Firing
  inst : Nat
  eid : Nat
  port : Nat
  entry : Option Nat
  scope : Nat
  result : OpResult
  /-- The bytes loaded so far, by offset. -/
  data : List (Nat × Byte)
  lanes : Lanes
  poison : Bool
  refused : Bool
  /-- Its accesses as they were issued, for the re-issue of a load (R93). -/
  all : List (Nat × AccKind)
  /-- It has an access of device MMIO, which is not restartable (R93). -/
  mmio : Bool
deriving DecidableEq, Repr

/-! ## Elements -/

/-- Element states (R148). -/
inductive ElemState where
  | unoccupied | run | stopping | held | cut | faulted
deriving DecidableEq, Repr

/-- Counter state of a lap buffer (R152). -/
structure Lap where
  lap : Nat := 0
  resv : Nat := 0
  filled : Nat := 0
  rdidx : Nat := 0
  wridx : Nat := 0
deriving DecidableEq, Repr

/-- The registers of an AG stream (R312). Extents are true extents, not minus one. -/
structure StreamCfg where
  v : Bool := false
  kind : Nat := 0
  fmt : Nat := 0
  rndf : Nat := 0
  start : Bool := false
  base : Nat := 0
  ext : List Nat := [1, 1, 1, 1, 1]
  stride : List Int := [0, 0, 0, 0, 0]
  seed : Word := 0
  eb : Int := 0
  planes : Nat := 0
  scaleVa : Nat := 0
  bandVa : Nat := 0
deriving DecidableEq, Repr

/-- Whether a stream stands idle, is ready, or prefetches (R313). -/
inductive StreamMode where
  | idle | ready | prefetching
deriving DecidableEq, Repr

/-- The translation entry of a stream: page start and size, and the leaf entry (R165). -/
structure PageEntry where
  start : Nat
  size : Nat
  leaf : DWord
deriving DecidableEq, Repr

/-- An entry of a quarter's walk cache, tagged by its VF (R165). -/
structure WalkEntry where
  vf : Nat
  page : PageEntry
deriving DecidableEq, Repr

/-- What identifies a flow (R19). -/
structure FlowKey where
  src : BitVec 128
  dst : BitVec 128
  flow : BitVec 16
deriving DecidableEq, Repr

/-- An Ethernet frame sent and not yet acknowledged: its sender, and the answer entries of the tokens it holds (R19, R323). -/
structure SentFrame where
  port : Nat
  seq : Word
  frame : EthFrame
  eid : Nat
  inst : Option Nat
  entries : List Nat
deriving DecidableEq, Repr

/-- A flow that the package sends, whichever streams name it (R19). -/
structure TxFlow where
  key : FlowKey
  nextSeq : Word := 0
  /-- Frames not yet acknowledged, oldest first. -/
  unacked : List SentFrame := []
  /-- The time of the last progress or resend, and the resends since the last progress. -/
  lastAck : Nat := 0
  resends : Nat := 0
deriving DecidableEq, Repr

/-- The current frame of an EGRESS stream: its payload, and the answer entries of the tokens in it (R323). -/
structure Egress where
  payload : List Byte := []
  entries : List Nat := []
deriving DecidableEq, Repr

/-- New frames and payload bytes that a stream sent and took in a second, and frames of its flow that were discarded (R23, R52). -/
structure FlowCount where
  eid : Nat
  strm : Nat
  txFrames : Nat := 0
  txBytes : Nat := 0
  rxFrames : Nat := 0
  rxBytes : Nat := 0
  discarded : Nat := 0
deriving DecidableEq, Repr

/-- An AG stream (R312 to R323). -/
structure Stream where
  /-- The registers as PATSET writes them. -/
  regs : StreamCfg := { }
  /-- The registers in force since the last set-up. -/
  cfg : StreamCfg := { }
  mode : StreamMode := .idle
  /-- Number of the next token of the pattern: of a LOAD, PLANE or WEIGHT stream the first not yet moved;
  of a STORE stream the next to store. -/
  pos : Nat := 0
  /-- Number of the next token to prefetch. -/
  fetch : Nat := 0
  /-- The generator state S (R199). -/
  gen : Word := 0
  buf : List Prefetched := []
  /-- Tokens of a PLANE group or WEIGHT block already aligned and not yet in the buffer. -/
  ahead : List Prefetched := []
  /-- The prefetch stopped behind a withheld token (R319). -/
  halted : Bool := false
  page : Option PageEntry := none
  /-- The template of an EGRESS or INGRESS stream as it was last read (R323). -/
  tmpl : Option (List Byte) := none
  egress : Egress := { }
  /-- Payload received for an INGRESS stream and not yet cut into tokens: per frame, its bytes and LAST. -/
  ingress : List (List Byte × Bool) := []
deriving DecidableEq, Repr

/-- The state of a matrix element (R324); the planes of bits are little-endian arrays. -/
structure Matrix where
  we : BitVec 12 := 0
  p : Nat := 0
  ebs : BitVec 12 := 0
  fp64 : Bool := false
  /-- Weight (k, n) is the 12 bits at 12 × (128 × k + n) (R205). -/
  weights : BitVec 98304 := 0
  /-- Exponent of (n, kb) is the byte 128 × kb + n. -/
  wexp : BitVec 8192 := 0
  wcursor : Nat := 0
  wready : Bool := false
  slice : Nat := 0
  plane : Nat := 0
  /-- The latched exponent token, byte 8 × r + kb, and its row group. -/
  exps : BitVec 512 := 0
  rowGroup : Nat := 0
  active : Bool := false
  drain : Nat := 0
  /-- Accumulator (row, n) is the 96 bits at 96 × (128 × row + n). -/
  bank0 : BitVec 196608 := 0
  bank1 : BitVec 196608 := 0
  lost0 : Bool := false
  tov0 : Bool := false
  lost1 : Bool := false
  tov1 : Bool := false
deriving DecidableEq, Repr

/-- An entry of an answer buffer: its name, the output queue, the tag its token will carry, and the token
once it has arrived (R301, R331). -/
structure Answer where
  id : Nat
  q : Fin 4
  otag : Tag
  /-- Its token brings data from memory and takes a unit of the bucket (R86). -/
  bucket : Bool
  token : Option Token
deriving DecidableEq, Repr

/-- A counter group: seven counters and whether it runs (R337). -/
structure CounterGroup where
  c : List Nat := [0, 0, 0, 0, 0, 0, 0]
  running : Bool := true
deriving DecidableEq, Repr

/-- What an image gives one element (R254). -/
structure Bank where
  slots : List (BitVec 128) := []
  consts : List Word := []
  routes : List (BitVec 32) := []
  streams : List StreamCfg := []
  lapCfg : List DWord := []
  hashCfg : List DWord := []
  initTokens : List (Fin 4 × Token) := []
  initPred : Byte := 0
  initEn : BitVec 16 := 0
  /-- Whether the image has a section for the element (R254). -/
  hasSection : Bool := false
deriving DecidableEq, Repr

/-- The staged bank of an element: nothing, words of a relay for an instance, or the retained image with its
hash (R73, R78). -/
inductive Staged where
  | none
  | relay (inst : Nat) (bank : Bank)
  | retained (hash : BitVec 256) (bank : Bank)
deriving DecidableEq, Repr

/-- A fence that waits for the accesses issued before it (R180). -/
structure Fence where
  entry : Nat
  scope : Nat
  /-- The accesses of the element with names below this one. -/
  upTo : Nat
deriving DecidableEq, Repr

/-- An element (R125, R126, R148). -/
structure Element where
  state : ElemState
  inst : Option Nat
  bank : Bank
  staged : Staged
  v : List Lanes
  a : List Word
  p : List Pred
  en : BitVec 16
  x : List Acc
  iq : List (List Token)
  oq : List (List Token)
  /-- TAKEN masks of the heads of the output queues (R92, R97). -/
  taken : List (BitVec 4)
  rb : List (Option Token)
  /-- Route buffers filled in this step's transfer phase: one hop a phase (R134). -/
  rbFresh : BitVec 16
  /-- Steps until a freed place of a route buffer is reported to its upstream (R121). -/
  rbHold : List Nat
  /-- The same for the freed places of each input queue. -/
  iqHold : List (List Nat)
  /-- Far-credit counters, one a route entry (R136). -/
  credits : List Nat
  /-- Far entries whose unused credits their endpoint withdrew (R94). -/
  withdrawn : BitVec 16
  cursors : List Nat
  last : List Nat
  age : List Nat
  inflight : List Firing
  flags : Word
  counts : Counts
  laps : List Lap
  ovf : List Nat
  streams : List Stream
  fences : List Fence
  matrix : Matrix
  ans : List Answer
  counters : List CounterGroup
  /-- Whether the element has made its selection of this step (R144). -/
  selDone : Bool
  /-- Output queues that FINISH has entered, inputs whose FINISH was dequeued, and inputs fed from within the
  instance, as they stood when FINISH was injected (R83). -/
  finSent : BitVec 4
  finDeq : BitVec 4
  finNeed : BitVec 4
  /-- Inputs whose injected FINISH waits for a free place (R83, R125). -/
  finWait : BitVec 4
  /-- The state the element had when a hold wave reached it (R98). -/
  before : ElemState
  /-- Loads discarded at a cut, re-issued at resume (R93). -/
  reissue : List MemOp
deriving DecidableEq, Repr

/-! ## Tiles and the track -/

/-- A far-channel token with its sender: element, route entry and instance (R136). -/
structure FarTok where
  tok : Token
  eid : Nat
  entry : Nat
  inst : Nat
deriving DecidableEq, Repr

/-- A message of the track: source and destination tile and what it carries (R138). -/
inductive MsgBody where
  /-- A far-channel token for a channel of the destination. -/
  | far (ch : Nat) (t : FarTok)
  /-- A credit returned to a route entry of an instance's element. -/
  | credit (eid entry inst : Nat)
  /-- A memory access on its way to its home. -/
  | access (acc : Nat)
deriving DecidableEq, Repr

structure Msg where
  id : Nat
  src : Nat
  dst : Nat
  body : MsgBody
deriving DecidableEq, Repr

/-- A copy-engine operation (R156, R310). -/
structure Copy where
  id : Nat
  /-- The firing that issued it, for the record of a fault (R156). -/
  firing : Firing
  eid : Nat
  /-- 0 in, 1 out, 2 in to a lap-buffer slot. -/
  dir : Nat
  laddr : Nat
  va : Nat
  len : Nat
  scope : Nat
  entry : Option Nat
  /-- The lap buffer and slot it fills. -/
  lap : Option (Nat × Nat)
  /-- Granules performed so far, by number. -/
  performed : List Nat
  /-- Name of the access of granule 0; granule n is that plus n. -/
  acc0 : Nat
deriving DecidableEq, Repr

/-- Gate state of a tile (R123, R124). -/
inductive Gate where
  | powered
  /-- Ingress is closed, accepted operations still drain. -/
  | closing
  | gated
  /-- Ungating until the given time. -/
  | ungating (until_ : Nat)
deriving DecidableEq, Repr

/-- A retained image: its hash, the tile's position within it, the tile's endpoints, and the image's ports as (REA, queue)
(R73, R252). -/
structure Retained where
  hash : BitVec 256
  row : Nat
  col : Nat
  endpoints : List (BitVec 32)
  baton : Option (Nat × Fin 4)
  lease : Option (Nat × Fin 4)
deriving DecidableEq, Repr

/-- A request at a bank that no SE makes: an access at the remote port, or a granule of the copy engine, by its name, and the
steps that it has waited (R151). -/
structure BankWait where
  copy : Bool
  acc : Nat
  bank : Nat
  steps : Nat
deriving DecidableEq, Repr

/-- The accesses of the Starter to the SRAM of a tile in a save or a restore (R92, R97, R102, R151): for each bank with granules left,
the next one, how many, and the steps that it has waited; and the bytes and markers read so far, or to be written. -/
structure Sweep where
  restore : Bool
  left : List (Nat × Nat × Nat)
  sram : List Host.Cell
  poison : List Nat
deriving DecidableEq, Repr

/-- A tile (R150, R156, R82, R135, R139, R122). -/
structure Tile where
  sram : List Host.Cell
  sramPoison : List Nat
  gen : Nat
  endpoints : List (BitVec 32)
  epBuf : List (List FarTok)
  /-- Each endpoint has moved a token in this step's transfer phase. -/
  epFresh : BitVec 16
  egressReq : List Msg
  egressResp : List Msg
  copies : List Copy
  counters : List CounterGroup
  gate : Gate
  unoccSince : Nat
  retained : Option Retained
  ueCount : Nat
  /-- The next number of a pacer record for each partition (R222, R229). -/
  pacerSeq : NMap Nat
  hopsStopped : Bool
  /-- What waits at the banks, in arrival order; the banks that have an event in the step `bankStep` of the cluster, each with the
  request that it is kept for, if its event has still to come (R151). -/
  bankWaits : List BankWait := []
  bankStep : Nat := 0
  banks : List (Nat × Option Nat) := []
  sweep : Option Sweep := none
deriving DecidableEq, Repr

/-! ## The Starter -/

/-- A graph word (R61). -/
structure GraphWord where
  taskId : Nat := 0
  pri : Nat := 0
  ordered : Bool := false
  cutOk : Bool := false
  leaseOk : Bool := false
  hardOk : Bool := false
  replicate : Bool := false
  w : Nat := 1
  h : Nat := 1
  instances : Nat := 1
  ttCount : Nat := 0
  footprint : Nat := 0
  configVa : Nat := 0
  paramVa : Nat := 0
  completionVa : Nat := 0
  succN : Nat := 0
  succVa : Nat := 0
  batonVa : Nat := 0
  handler : Nat := 0xFFFF
  predN : Nat := 0
deriving DecidableEq, Repr

/-- STATUS of a completion object (R37). -/
inductive Status where
  | idle | running | done | faulted | cancelled | preempted
deriving DecidableEq, Repr

/-- A pre-empted instance that its task keeps: its name, its context, what it holds and where it stood (R97, R102). -/
structure Preempted where
  id : Nat
  num : Nat
  held : List Nat
  ctx : Nat
  cluster : Nat
  row0 : Nat
  col0 : Nat
  /-- It has a far channel whose endpoint lies outside it (R102). -/
  farOut : Bool
  /-- Those of the held indices whose baton has yet to enter the baton port. -/
  feed : List Nat
deriving DecidableEq, Repr

/-- A task of a launch (R61, R64, R67, R68, R75 to R77, R225). -/
structure Task where
  va : Nat
  gw : GraphWord
  pending : Nat := 0
  succ : List Nat := []
  params : List Word := []
  /-- It is in the ready list. -/
  ready : Bool := false
  /-- Its effective priority (R68). -/
  level : Nat := 0
  /-- Order of first becoming ready. -/
  readySeq : Nat := 0
  levelSince : Nat := 0
  nextIdx : Nat := 0
  doneN : Nat := 0
  failedN : Nat := 0
  firstFailed : Nat := 0xFFFFFFFF
  /-- REPLICATE: how often each unaccounted index was reported done, the indices counted failed, the first index from
  which on all are, and the next index of each instance number. -/
  repl : NMap Nat := []
  replFailed : List Nat := []
  replLost : Nat := 0x100000000
  replNext : NMap Nat := []
  status : Status := .idle
  reason : Nat := 0
  gen : Nat := 0
  srcSeq : Nat := 0
  fchain : Nat := 0
  start : Nat := 0
  end_ : Nat := 0
  /-- TT_DONE or TT_FAILED changed since the write at `wrote` (R76). -/
  dirty : Bool := false
  wrote : Nat := 0
  bound : Bool := false
  /-- No more batons on any instance (R80, R224). -/
  stopped : Bool := false
  cancelled : Bool := false
  final : Bool := false
  /-- Final, and its successors have still to hear it: its final write waits (R77). -/
  telling : Bool := false
  /-- VA of the last record of the chain (R225). -/
  lastRec : Nat := 0
  /-- Family and code of the record that FAULTNOTE will carry, and whether it was sent. -/
  note : Option (Nat × Nat) := none
  noted : Bool := false
  /-- COMPLETION-WRITE and STATS-WRITE have been recorded (R39, R215). -/
  compFault : Bool := false
  statFault : Bool := false
  /-- Tiles reserved for it (R72). -/
  reserved : List Nat := []
  /-- Runs of a handler node that are due (R66). -/
  runs : Nat := 0
  pre : List Preempted := []
deriving DecidableEq, Repr

/-- An accepted launch (R33, R65). -/
structure Launch where
  vf : Nat
  part : Nat
  root : Nat
  override : Option Nat
  urgentOk : Bool
  autorelease : Bool
  seq : Nat
  /-- When it was accepted, and its place among the tasks made ready: its root's (R67, R68). -/
  since : Nat
  order : Nat
  walked : Bool
  /-- Stopped by PREEMPT until RESUME (R34). -/
  stopped : Bool
  /-- Order in which its tasks were taken from the ready list, for RESUME. -/
  tasks : List Task
deriving DecidableEq, Repr

/-- Phases of a bound region (R79), and the save of a CUT. -/
inductive Phase where
  | relay | staged | commit | run | teardown | saving
deriving DecidableEq, Repr

/-- The stop under way in an instance. -/
inductive Stop where
  | none
  /-- CUT; `discard` drops the context (CANCEL with CUT, R88), `lost` names a resize or retirement (R106). -/
  | cut (discard lost : Bool)
  /-- DBGHOLD or BRK; the element that named it and whether it was BRK (R230, R233). -/
  | hold (eid : Nat) (brk : Bool)
deriving DecidableEq, Repr

/-- A pre-emption that waits for the end of a commit or of a hold (R79, R90). -/
inductive Ask where
  | boundary
  | cut (discard lost : Bool)
deriving DecidableEq, Repr

/-- A token entry of a fault record (R219). -/
structure TokEntry where
  token : Token
  kind : Nat
  idx : Nat
  holder : Nat
  /-- Its holder is a tile, as for a far token. -/
  far : Bool
deriving DecidableEq, Repr

/-- A fault or break as its source produced it, not yet taken by the Starter (R218, R224). -/
structure FaultEvent where
  kind : Nat
  src : Nat
  family : Nat
  code : Nat
  slot : Option Nat
  word : BitVec 128
  heads : Word
  tokens : List TokEntry
  addr : Nat
  time : Nat
  seq : Nat
  ttidx : Nat
  /-- Of an AG's memory fault the stream, its position and its i0 to i4 (R167). -/
  position : Option (Nat × Nat × List Nat) := none
  /-- The policy in force at its producer when it was produced (R59). -/
  policy : List Byte
deriving DecidableEq, Repr

/-- A TDONE that waits at the Starter: element and index (R76). -/
structure TDone where
  eid : Nat
  index : Nat
deriving DecidableEq, Repr

/-- A bound instance (R70, R74, R75, R79). -/
structure Inst where
  launch : Nat
  task : Nat
  num : Nat
  vf : Nat
  part : Nat
  cluster : Nat
  row0 : Nat
  col0 : Nat
  w : Nat
  h : Nat
  phase : Phase
  level : Nat
  /-- Issued indices that have no TDONE yet, and those of them whose baton has yet to enter the baton port (R75). -/
  held : List Nat
  feed : List Nat
  commitTime : Nat
  yielded : Bool
  minresTaken : Bool
  gen : Nat
  baton : Option (Nat × Fin 4)
  leasePort : Option (Nat × Fin 4)
  hash : BitVec 256
  /-- The context to restore (R102). -/
  ctx : Option Nat
  /-- It was pre-empted and is bound again. -/
  again : Bool
  /-- It resumes at its former place alone, for a far channel that leaves it (R102). -/
  pinned : Bool := false
  /-- The tiles that its FINISH front has freed, by their number in the region (R79, R81). -/
  gone : List Nat := []
  /-- It had a far channel whose endpoint lies outside it when FINISH was injected (R102). -/
  farOut : Bool := false
  stop : Stop
  /-- A BOUNDARY stop is under way (R89). -/
  boundary : Bool
  /-- A pre-emption that waits (R79, R90). -/
  waiting : Option Ask
  holdDone : Bool
  faulted : Bool
  /-- The release of the faulted instance is asked for, and has begun (R226). -/
  releaseAsked : Bool
  releasing : Bool
  finInjected : Bool
  /-- Elements the hold wave has not reached. -/
  waveLeft : List Nat
  /-- The allocated run of pool units of a save under way: first unit and count (R98). -/
  alloc : Option (Nat × Nat)
  bucket : Nat
  watchdog : Nat
  /-- Some element selected a firing in this step (R87). -/
  fired : Bool
  leaseBuf : List Token
  /-- Last ended leases: handle and reason (R335). -/
  ended : List (Word × Nat)
  tdones : List TDone
  faults : List FaultEvent
  policy : List Byte
deriving DecidableEq, Repr

/-- A saved context (R97): the instance as it stood, its elements and tiles in the order of the region. -/
structure Context where
  inst : Inst
  elements : List Element
  tiles : List Tile
  length : Nat
  time : Nat
  /-- First unit and count in the pool. -/
  unit0 : Nat
  units : Nat
  /-- Poison makes the record unreadable (R103). -/
  bad : Bool
  /-- It has a far channel whose endpoint lies outside it (R102). -/
  farOut : Bool
deriving DecidableEq, Repr

/-! ## Host side, partitions, power and links -/

/-- A device-to-host active message that waits for the card's credit (R41, R42). -/
structure OutAm where
  amop : BitVec 8
  seq : BitVec 11
  operand : Word
  cont : DWord
  /-- The element of the AMSEND that waits for the card to take it, and its entry (R343). -/
  sender : Option (Nat × Option Nat)
deriving DecidableEq, Repr

/-- An active message that waits, by a name that rises with each message taken (R36, R42). -/
structure Queued where
  name : Nat
  am : Am
deriving DecidableEq, Repr

/-- A virtual function: its table entry, clamp register, counters and outgoing queue (R26, R30, R41,
R118, R343). -/
structure Vf where
  en : Bool
  urgentOk : Bool
  part : BitVec 4
  root : BitVec 34
  expSeq : BitVec 11 := 0
  outSeq : BitVec 11 := 0
  devSeq : BitVec 11 := 0
  satcnt : BitVec 16 := 0
  maxn : BitVec 4 := 0
  maxop : BitVec 3 := 3
  maxus : BitVec 24 := 0
  out : List OutAm := []
  /-- Messages ORDER that wait for the earlier messages of the VF to take effect (R42). -/
  orders : List Queued := []
deriving DecidableEq, Repr

/-- A record buffer (R216). -/
structure RecBuf where
  vf : BitVec 9 := 0
  va : BitVec 43 := 0
  dropped : BitVec 24 := 0
  size : BitVec 24 := 0
  nextOff : DWord := 0
deriving DecidableEq, Repr

/-- A handler table entry and the AMs that wait in it (R36). -/
structure Handler where
  hen : Bool := false
  port : BitVec 2 := 0
  task : BitVec 16 := 0
  queue : List Queued := []
deriving DecidableEq, Repr

/-- A policy accepted and not yet active in every region, with its sender (R59, R60). -/
structure PendingPolicy where
  name : Nat
  vf : Nat
  sender : AmFrom
  addr : DWord
deriving DecidableEq, Repr

/-- A partition control page and the Starter's records of the partition. -/
structure Partition where
  handlers : List Handler
  minres : BitVec 16 := 50
  poolBase : BitVec 28 := 0
  poolSize : BitVec 32 := 0
  /-- Allocated runs of the pool: first unit and count, rising (R98). -/
  poolRuns : List (Nat × Nat) := []
  fault : RecBuf := { }
  trace : RecBuf := { }
  tkey : BitVec 512 := 0
  /-- The active policy block, empty under "none" (R46). -/
  active : List Byte := []
  drops : List Nat
  pendingPolicies : List PendingPolicy := []
  /-- What its streams sent and took on their flows in the present second (R23, R52). -/
  flowCounts : List FlowCount := []
  /-- Records of each class that passed in the present second (R55). -/
  rate : List Nat
  nonce : BitVec 256 := 0
  attDest : DWord := 0
  /-- A scheduling event waits for the binding decision (R71). -/
  decide_ : Bool := false
  /-- Sum of the partition's power over the milliseconds of the present 100 ms (R57). -/
  powerSum : Nat := 0
deriving DecidableEq, Repr

/-- A live lease in its slot (R112, R115). -/
structure Lease where
  handle : Word
  inst : Nat
  launch : Nat
  task : Nat
  vf : Nat
  eid : Nat
  point : Nat
  hard : Bool
  us : Nat
  /-- Time the rail reached the point and the grant began; none before. -/
  begin_ : Option Nat
  /-- The answer entry that waits for the rail (R334). -/
  entry : Option Nat
  /-- Order of the grants of the package (R114). -/
  order : Nat
  /-- The reasons for which the controller is to end it in this ns, when the turn of its cluster comes (R111, R115). -/
  asked : List Nat
deriving DecidableEq, Repr

/-- State of a cluster's heat store (R110). -/
inductive Melt where
  | cool | sprint | refreeze
deriving DecidableEq, Repr

/-- A cluster: its registers, heat store, rail and leases (R104 to R122). -/
structure Cluster where
  part : Byte := 0xFF
  /-- The PART it leaves, while instances of that partition still stand in the cluster (R104, R106). -/
  old : Option Byte := none
  retired : BitVec 36 := 0
  pwr : BitVec 16 := 0
  cshare : BitVec 16 := 0
  melt : Melt := .cool
  /-- STATE as the latest 1 ms update left it (R336). -/
  msState : Melt := .cool
  /-- The millisecond of its last update; none before the first (R109, R111). -/
  lastMs : Option Nat := none
  heat : Word := 0
  capw : BitVec 16 := 0
  rearm : BitVec 16 := 0x4000
  ceiling : BitVec 16 := 0xF000
  autogate : Bool := false
  hyst : Bool := true
  baseop : BitVec 2 := 3
  hotw : BitVec 16 := 0
  srdauto : Bool := false
  srd : BitVec 4 := 0
  greq : BitVec 36 := 0
  injEn : Bool := false
  injDepth : BitVec 16 := 0
  injRefill : BitVec 16 := 0
  lim : BitVec 16 := 0xFFFF
  slots : List (Option Lease)
  serial : BitVec 16 := 0
  opnow : Nat := 3
  /-- Rail voltage where the last ramp began, in units of 20 µV, and the time the ramp ends (R107). -/
  volt : Nat := 31000
  rampEnd : Nat := 0
  steps : Nat := 0
  /-- Thousandths of a step elapsed since the last step (R5). -/
  phase : Nat := 0
  memErrors : Nat := 0
  /-- The whole microsecond of the last refill of its buckets (R86). -/
  refilled : Nat := 0
  granted : Nat := 0
  refusedN : Nat := 0
deriving DecidableEq, Repr

/-- A request or lease end on its way to the power controller, with its arrival time (R111). -/
structure CtrlReq where
  inst : Nat
  cluster : Nat
  eid : Nat
  entry : Option Nat
  /-- The handle of a LEASEEND, or the request: µs, point, HARD. -/
  ask : Word ⊕ (Nat × Nat × Bool)
  time : Nat
deriving DecidableEq, Repr

/-- An ownership unit (R163). -/
structure Unit_ where
  owner : BitVec 5 := 31
  scrub : Bool := false
deriving DecidableEq, Repr

/-- An Aqric port (R13 to R16). -/
structure AqricPort where
  up : Bool := true
  /-- The port is failed and its hash not yet remapped. -/
  draining : Bool := false
  replays : Nat := 0
deriving DecidableEq, Repr

/-- The acknowledgements of a flow that an Ethernet port receives (R19). -/
structure Flow where
  srcIp : BitVec 128
  dstIp : BitVec 128
  flow : BitVec 16
  /-- Frames taken since the last ACK, the time of the first of them, and the last frame. -/
  owed : Nat
  since : Nat
  sample : EthFrame
deriving DecidableEq, Repr

/-- An Ethernet port's link statistics and flows (R17 to R20): the frames discarded that no stream was to take. -/
structure EthPort where
  discarded : Nat := 0
  flows : List Flow := []
deriving DecidableEq, Repr

/-- What the card sees of a host access (R28). -/
inductive HostAnswer where
  | data (vf : Nat) (va : Nat) (bytes : List Byte) (poison : Bool)
  | done (vf : Nat) (va : Nat)
  | error (vf : Nat) (va : Nat)
deriving DecidableEq, Repr

/-- What goes back to another package for an access of it (R14, R162). -/
inductive RemoteAnswer where
  | data (bytes : List Byte) (poison : Bool)
  | done
  | refused (code : Nat)
  /-- The answer to an active message: 0 or the NAK reason, and its SEQ (R343). -/
  | message (status seq : Nat)
deriving DecidableEq, Repr

/-- An active message on its way to another package, with the firing of the AMSEND that waits for its answer; the port
once one has accepted it (R15, R343). -/
structure PodAm where
  id : Nat
  eid : Nat
  pkg : Nat
  port : Option Nat
  am : Am
  inst : Nat
  firing : Firing
deriving DecidableEq, Repr

/-- Who asked for an access of a granule of another package, other than an access of an operation: a stream's read, for its token
number or the firing that reads; a granule of a copy; a host access; a message; the walk of a launch; the relay and the accounting
of an instance; a binding decision; a write by a Starter or for a message. -/
inductive LinkOwner where
  | stream (inst eid k mark : Nat)
  | copy (acc : Nat)
  | host (i : Instr)
  | message (m : Am)
  | graph (l : Nat)
  | image (i : Nat)
  | report (i : Nat)
  | bind (p : Nat)
  | write
deriving DecidableEq, Repr

/-- How an access of the link ended: performed, with the number by which the other package's bytes are known; refused there; or lost
with its port (R16, R162). -/
inductive LinkAnswer where
  | done (x : Nat)
  | refused
  | failed
deriving DecidableEq, Repr

/-- An access of a granule of another package on the link or waiting for its port (R15, R16). Its name gives its place in the order
of the granule. -/
structure LinkReq where
  id : Nat
  owner : LinkOwner
  pkg : Nat
  pa : Nat
  len : Nat
  write : Bool
  port : Option Nat
  answer : Option LinkAnswer
deriving DecidableEq, Repr

/-- What a Starter says once the writes before it have performed (R43, R45, R231). -/
inductive Closing where
  /-- The notice and the COMPLETE of a launch whose walk failed (R65). -/
  | graph (x : Launch) (t : Task) (note : Nat × Nat) (operand : Word)
  /-- COMPLETE to a VF. -/
  | complete (vf : Nat) (cont : DWord)
deriving DecidableEq, Repr

/-- An operator-bound record as delivered: class, partition, type, time and fields (R50, R53, R57). A record that concerns
no partition is not filtered (R52). -/
structure OperRecord where
  cls : Nat
  part : Option Nat
  type : Nat
  time : Nat
  fields : List Nat
  /-- A floor record, which no policy withholds (R57). -/
  floor : Bool
deriving DecidableEq, Repr

/-- Boot state (R44). -/
inductive Boot where
  /-- Before the boot ROM has checked the flash image. -/
  | powerUp
  /-- The boot receiver state; with the window open, the announced length. -/
  | receiver (open_ : Option Nat)
  /-- The image passed and the firmware has not yet started its units. -/
  | starting
  /-- The firmware runs; with a window opened by FWLOAD, its length. -/
  | running (open_ : Option Nat)
deriving DecidableEq, Repr

/-- The flash image: whether it passes the boot ROM's check, its version and SHA-256 (R44, R45). -/
structure Flash where
  verifies : Bool
  version : Word
  hash : BitVec 256
deriving DecidableEq, Repr

/-- A single step whose COMPLETE waits for what it started (R232). -/
structure StepWait where
  eid : Nat
  slot : Nat
  /-- Operations named below this one may be the step's. -/
  from_ : Nat
  upTo : Nat
  inst : Nat
deriving DecidableEq, Repr

/-- What the agenda may call for next. -/
inductive Turn where
  /-- An event of the table, with its subject where it has no operands. -/
  | event (i : Instr) (subject : Nat × Nat)
  /-- The oldest firing of the element that is due writes back. -/
  | writeBack (eid : Nat)
  /-- The oldest host AM at the link is taken. -/
  | hostAm
  /-- The oldest AM sent by AMSEND, here or in another package, is taken. -/
  | deviceAm
  /-- The oldest message of a VF that waits for memory is tried again. -/
  | stalledAm (vf : Nat)
  /-- A message to another package finds a port, or its answer comes. -/
  | podAm (id : Nat)
  /-- The oldest access of the host or of another package that waits at its home is tried again. -/
  | heldAccess
  /-- The power controller takes what has reached it in this ns. -/
  | power
  /-- It ends the leases of a cluster whose instances were pre-empted, faulted or got FINISH in this ns. -/
  | leaseEnds (g : Nat)
  /-- A step of the cluster's fabric begins: its transfer phase (R144). -/
  | stepTransfer (g : Nat)
  /-- Its selection phase. -/
  | stepSelect (g : Nat)
  /-- Its write-back phase. -/
  | stepWrite (g : Nat)
  /-- It ends. -/
  | fabricStep (g : Nat)
  /-- Package time advances. -/
  | tick (ns : Nat)
deriving DecidableEq, Repr

/-- The firing that writes back in the present step of the machine. -/
structure Focus where
  eid : Nat
  firing : Firing
deriving DecidableEq, Repr

end Sys2Proof.Machine
end

