-- ==== Sys2Proof/Machine/State.lean ====
section
/-! DEFINITION. The state of the part with everything the spec gives it, the reasons to stop, and the state
after reset. -/

namespace Sys2Proof.Machine

/-- Why the machine stops. Every fault that the spec describes is architectural: the element enters FAULTED
and a record is written, which is a next state (R223). -/
inductive Fault where
  /-- Raised by no meaning. Safe: no run ends in it. -/
  | none
deriving DecidableEq, Repr

/-- Why the machine refuses a step. -/
inductive Refusal where
  /-- Raised by a dispatch arm whose instruction has no meaning yet. Safe: the run stops. -/
  | notModelled (mnemonic : String)
  /-- Raised by the step when the word in focus is no instruction; no commit lets such a word in (R245).
  Safe: the run stops. -/
  | illegalWord
deriving DecidableEq, Repr

/-- The state of the package. -/
structure State where
  -- Package and boot
  now : Nat
  boot : Boot
  flash : Flash
  /-- The image that runs: version and hash (R44, R45). -/
  firmware : Word × BitVec 256
  window : List Host.Cell
  pkgId : BitVec 8
  lewenLanes : Nat
  /-- The AM log: of each VF how many of its writes were discarded (R26, R27). -/
  amLog : NMap Nat
  /-- The firmware start, from which sequences and counts run (R82, R105, R222). -/
  startTime : Nat
  -- Virtual functions, partitions, ownership
  vfs : NMap Vf
  parts : List Partition
  units : NMap Unit_
  walkCache : NMap (List WalkEntry)
  -- Clusters and power
  clusters : List Cluster
  sprintw : BitVec 16
  pkgw : BitVec 16
  factors : List (BitVec 16)
  /-- The millisecond whose update is complete in every cluster; none before the first (R109). -/
  lastMs : Option Nat
  ctrlQ : List CtrlReq
  grants : Nat
  -- Memory
  hbm : List Host.Cell
  hbmPoison : List Nat
  accs : NMap Access
  ops : NMap MemOp
  /-- Writes of the Starters to units under scrub, which wait at their homes, oldest first (R163). -/
  parked : List (List (Nat × Byte))
  -- Fabric
  elems : NMap Element
  tiles : NMap Tile
  track : List Msg
  -- Starter
  launches : NMap Launch
  insts : NMap Inst
  contexts : NMap Context
  recSeq : NMap Nat
  /-- SRCSEQ of each completion object, by its home (R37, R38). -/
  srcSeqs : NMap Nat
  stepWaits : List StepWait
  readyN : Nat
  -- Links and host
  aqric : List AqricPort
  /-- The failed Aqric ports that have left the hash, in the order in which they left it (R16). -/
  remapped : List Nat
  podAms : List PodAm
  eth : List EthPort
  /-- The flows that the package sends, and the SEQ that it takes next of each flow it receives (R19). -/
  txFlows : List TxFlow
  rxFlows : List (FlowKey × Word)
  operLog : List OperRecord
  hostLog : List HostAnswer
  ethOut : List (Nat × EthFrame)
  remoteOut : List RemoteAnswer
  handed : List (Nat × BitVec 128)
  amIn : List (BitVec 128)
  devAms : List Am
  /-- Accesses of the host and of other packages that wait at their homes, oldest first (R16, R163). -/
  held : List Instr
  /-- Accesses of other packages that no operation of an element made (R15, R16). -/
  links : List LinkReq
  /-- Messages whose reads wait, those of one VF in their order (R16, R163). -/
  stalled : List Am
  /-- What is said once the writes before it have performed (R43). -/
  closings : List Closing
  -- The model's own fields
  /-- What moves next. -/
  agenda : List Turn
  /-- The subject of an event without operands: an instance, a launch, a cluster, a tile or a unit; and the
  task of a launch or the lease slot of a cluster. -/
  subject : Nat × Nat
  focus : Option Focus
  /-- Counter that free values are taken by. -/
  fresh : Nat
  /-- The next name of a launch, instance, access, operation, copy, message or context. -/
  nextId : Nat
deriving DecidableEq, Repr

/-! ## Reset -/

/-- Sixteen valid lanes of one word. -/
def Lanes.all (w : Word) : Lanes := Lanes.ofFn (fun _ => some w)

/-- Sixteen invalid lanes. -/
def Lanes.empty : Lanes := Lanes.ofFn (fun _ => none)

def Acc.zero : Acc := { regs := Lanes.ofFn (fun _ => 0), we := 0, lost := false, tov := false }

/-- The bank of an element without a section: no slot, no route, no descriptor (R254). -/
def Bank.empty : Bank :=
  { slots := List.replicate 16 0, consts := List.replicate 8 0, routes := List.replicate 16 0,
    streams := List.replicate 4 { }, lapCfg := List.replicate 8 0, hashCfg := List.replicate 4 0 }

/-- An unoccupied element whose registers hold the values of R126. -/
def Element.reset : Element :=
  { state := .unoccupied, inst := none, bank := Bank.empty, staged := .none,
    v := List.replicate 8 (Lanes.all 0), a := List.replicate 4 0, p := List.replicate 8 .no, en := 0,
    x := List.replicate 2 Acc.zero, iq := List.replicate 4 [], oq := List.replicate 4 [],
    taken := List.replicate 4 0, rb := List.replicate 16 none, rbFresh := 0,
    rbHold := List.replicate 16 0, iqHold := List.replicate 4 [], credits := List.replicate 16 0, withdrawn := 0, cursors := List.replicate 4 0, last := List.replicate 4 15,
    age := List.replicate 16 0, inflight := [], flags := 0, counts := { }, laps := List.replicate 8 { },
    ovf := List.replicate 4 0, streams := List.replicate 4 { }, fences := [], matrix := { }, ans := [],
    counters := List.replicate 3 { }, selDone := false, finSent := 0, finDeq := 0, finNeed := 0, finWait := 0,
    before := .unoccupied, reissue := [] }

/-- A powered tile with no image, its SRAM zero. -/
def Tile.reset : Tile :=
  { sram := [], sramPoison := [], gen := 0, endpoints := List.replicate 16 0,
    epBuf := List.replicate 16 [], epFresh := 0, egressReq := [], egressResp := [],
    copies := [], counters := List.replicate 5 { }, gate := .powered, unoccSince := 0, retained := none,
    ueCount := 0, pacerSeq := [], hopsStopped := false }

/-- VF table entry and clamp of VF v after reset (R25, R26, R118). -/
def Vf.reset (v : Nat) : Vf :=
  { en := v == 511, urgentOk := false, part := BitVec.ofNat 4 (v / 32), root := 0 }

def Partition.reset : Partition :=
  { handlers := List.replicate 16 { }, drops := List.replicate 24 0, rate := List.replicate 24 0 }

def Cluster.reset : Cluster := { slots := List.replicate 16 none }

/-- The state after reset: every register at the value the spec gives, or at the value the assumption log
names (logs 1, 2 and 3); no memory byte listed. -/
def State.reset : State :=
  { now := 0, boot := .powerUp, flash := { verifies := true, version := 0, hash := 0 },
    firmware := (0, 0), window := [], pkgId := 0, lewenLanes := 0, amLog := [], startTime := 0,
    vfs := [], parts := List.replicate 16 Partition.reset, units := [], walkCache := [],
    clusters := List.replicate 16 Cluster.reset, sprintw := 6000, pkgw := 0,
    factors := [141, 174, 212, 256, 300, 340, 390, 466], lastMs := none, ctrlQ := [], grants := 0,
    hbm := [], hbmPoison := [], accs := [], ops := [], parked := [], elems := [], tiles := [], track := [],
    launches := [], insts := [], contexts := [], recSeq := [], srcSeqs := [], stepWaits := [], readyN := 0,
    aqric := List.replicate 36 { }, remapped := [], podAms := [], eth := List.replicate 4 { }, txFlows := [], rxFlows := [], operLog := [], hostLog := [],
    ethOut := [], remoteOut := [], handed := [], amIn := [], devAms := [], held := [], links := [], stalled := [], closings := [], agenda := [], subject := (0, 0), focus := none,
    fresh := 0, nextId := 1 }

end Sys2Proof.Machine
end

