-- ==== Sys2Proof/Machine/Ops.lean ====
section
/-! DEFINITION. The named operations over State: sparse tables, elements and tiles, tags, counters, pacer
logs, and taking a fault (R223), the one operation that every faulting firing and event goes through. -/

namespace Sys2Proof.Machine

/-- The answer of every meaning. -/
abbrev Res := Host.Outcome State Fault Refusal

/-! ## Sparse tables -/

/-- The value at a key. -/
def NMap.find {α : Type} : NMap α → Nat → Option α
  | [], _ => none
  | (k, v) :: m, n => if k = n then some v else NMap.find m n

/-- The table with a value at a key; keys stay rising. -/
def NMap.put {α : Type} : NMap α → Nat → α → NMap α
  | [], n, x => [(n, x)]
  | (k, v) :: m, n, x =>
    if n < k then (n, x) :: (k, v) :: m
    else if n = k then (n, x) :: m
    else (k, v) :: NMap.put m n x

/-- The table without a key. -/
def NMap.drop {α : Type} (m : NMap α) (n : Nat) : NMap α := m.filter (fun e => e.1 ≠ n)

/-! ## Lists used as small arrays -/

/-- The entry of a list, or a default. -/
def nth {α : Type} (l : List α) (n : Nat) (d : α) : α := (l[n]?).getD d

/-- The list with entry n changed by f. -/
def upd {α : Type} (l : List α) (n : Nat) (f : α → α) : List α := l.modify n f

/-- Sum of a list. -/
def total (l : List Nat) : Nat := l.foldl (· + ·) 0

/-! ## Names (R1, R2) -/

/-- The tile of an element id. -/
def tileOf (eid : Nat) : Nat := eid / 64

/-- Column and row of an element in its tile. -/
def xOf (eid : Nat) : Nat := eid / 8 % 8
def yOf (eid : Nat) : Nat := eid % 8

/-- The element of a tile at (x, y). -/
def eidAt (tile x y : Nat) : Nat := tile * 64 + x * 8 + y

/-- The type that a column fixes (R1). -/
def typeOfCol (x : Nat) : ElemType :=
  if x = 0 then .ag else if x = 7 then .me else if x = 2 || x = 5 then .se else .pe

def elemType (eid : Nat) : ElemType := typeOfCol (xOf eid)

/-- Global cluster index of a tile: 4 × quarter + cluster (R2, R9). -/
def clusterOf (tile : Nat) : Nat := tile / 64

/-- Row and column of a tile in its cluster. -/
def trow (tile : Nat) : Nat := tile / 8 % 8
def tcol (tile : Nat) : Nat := tile % 8

/-- The tile of a cluster at a row and column. -/
def tileAt (g row col : Nat) : Nat := g * 64 + row * 8 + col

/-- The bit of a tile in the 36-bit registers of its cluster (R105, R122). -/
def tileBit (tile : Nat) : Nat := 6 * trow tile + tcol tile

/-- Tile row and column in the 12 × 12 grid of the quarter (R140). -/
def gridRow (tile : Nat) : Nat := 6 * (clusterOf tile % 4 / 2) + trow tile
def gridCol (tile : Nat) : Nat := 6 * (clusterOf tile % 2) + tcol tile

/-! ## Tags (R129, R130) -/

def tagEnd : Tag := 0xC
def tagNull : Tag := 0xD
def tagPoison : Tag := 0xE
def tagFinish : Tag := 0xF

/-- Whether a tag is in the class end* (R130). -/
def isEnd (t : Tag) : Bool := 8 ≤ t.toNat && t.toNat ≤ 12

/-- Whether a tag is in a class (R130). -/
def inClass (code : BitVec 4) (t : Tag) : Bool :=
  match code.toNat with
  | 0 => t.toNat ≤ 7
  | 1 => 8 ≤ t.toNat && t.toNat ≤ 11
  | 2 => isEnd t
  | 3 => t.toNat ≤ 12
  | 4 => t == tagNull
  | 5 => t == tagPoison
  | 15 => true
  | _ => false

/-! ## Elements and tiles of the state -/

/-- An element that no table entry names holds its reset values; LAST is N − 1 (R126). -/
def Element.resetOf (ty : ElemType) : Element := { Element.reset with last := List.replicate 4 (slotCount ty - 1) }

def State.elem (s : State) (eid : Nat) : Element := (s.elems.find eid).getD (Element.resetOf (elemType eid))

def State.setElem (s : State) (eid : Nat) (e : Element) : State := { s with elems := s.elems.put eid e }

def State.modElem (s : State) (eid : Nat) (f : Element → Element) : State := s.setElem eid (f (s.elem eid))

def State.tile (s : State) (t : Nat) : Tile := (s.tiles.find t).getD Tile.reset

def State.setTile (s : State) (t : Nat) (x : Tile) : State := { s with tiles := s.tiles.put t x }

def State.modTile (s : State) (t : Nat) (f : Tile → Tile) : State := s.setTile t (f (s.tile t))

def State.vf (s : State) (v : Nat) : Vf := (s.vfs.find v).getD (Vf.reset v)

def State.modVf (s : State) (v : Nat) (f : Vf → Vf) : State := { s with vfs := s.vfs.put v (f (s.vf v)) }

def State.part (s : State) (p : Nat) : Partition := nth s.parts p Partition.reset

def State.modPart (s : State) (p : Nat) (f : Partition → Partition) : State := { s with parts := upd s.parts p f }

def State.cluster (s : State) (g : Nat) : Cluster := nth s.clusters g Cluster.reset

def State.modCluster (s : State) (g : Nat) (f : Cluster → Cluster) : State :=
  { s with clusters := upd s.clusters g f }

def State.unit (s : State) (u : Nat) : Unit_ := (s.units.find u).getD { }

def State.modUnit (s : State) (u : Nat) (f : Unit_ → Unit_) : State :=
  { s with units := s.units.put u (f (s.unit u)) }

def State.modInst (s : State) (i : Nat) (f : Inst → Inst) : State :=
  match s.insts.find i with
  | some x => { s with insts := s.insts.put i (f x) }
  | none => s

def State.modLaunch (s : State) (l : Nat) (f : Launch → Launch) : State :=
  match s.launches.find l with
  | some x => { s with launches := s.launches.put l (f x) }
  | none => s

/-- A task of a launch. -/
def State.task? (s : State) (l t : Nat) : Option Task :=
  match s.launches.find l with
  | some x => x.tasks[t]?
  | none => none

def State.modTask (s : State) (l t : Nat) (f : Task → Task) : State :=
  s.modLaunch l (fun x => { x with tasks := upd x.tasks t f })

/-- A new name and the state that has used it. -/
def State.newId (s : State) : Nat × State := (s.nextId, { s with nextId := s.nextId + 1 })

/-- A number for a free value. -/
def State.takeFresh (s : State) : Nat × State := (s.fresh, { s with fresh := s.fresh + 1 })

/-- The tag by which a VF's accesses are checked: its partition, or 16 for VF 511 (R161). -/
def State.tagOf (s : State) (v : Nat) : Nat := if v = 511 then 16 else (s.vf v).part.toNat

/-- The partition of a cluster, none under 0xFF (R104). -/
def State.partOfCluster (s : State) (g : Nat) : Option Nat :=
  let c := s.cluster g
  let p := (c.old.getD c.part).toNat
  if p < 16 then some p else none

/-- The clusters of a partition, rising. -/
def State.clustersOf (s : State) (p : Nat) : List Nat :=
  (List.range 16).filter (fun g => s.partOfCluster g == some p)

/-- The quarter of the partition's home Starter (R64). -/
def State.homeOf (s : State) (p : Nat) : Nat := ((s.clustersOf p).head?.getD 0) / 4

/-- The instance that an element belongs to. -/
def State.instOf (s : State) (eid : Nat) : Option Inst :=
  match (s.elem eid).inst with
  | some i => s.insts.find i
  | none => none

/-- Whether the residency of an instance has reached MINRES, or counts as having (R69, R342). -/
def State.pastMinres (s : State) (x : Inst) : Bool :=
  x.yielded || x.commitTime + (s.part x.part).minres.toNat * 1000 ≤ s.now

/-- Tile k of the region of an instance, row-major from the origin (R70, R97). -/
def Inst.tileNo (i : Inst) (k : Nat) : Nat := tileAt i.cluster (i.row0 + k / i.w) (i.col0 + k % i.w)

/-- The tiles of the region of an instance (R70). -/
def Inst.region (i : Inst) : List Nat := (List.range (i.w * i.h)).map i.tileNo

/-- The tiles that an instance holds: those of its region that its FINISH front has not freed (R79, R81). -/
def Inst.tiles (i : Inst) : List Nat := ((List.range (i.w * i.h)).filter (fun k => !i.gone.contains k)).map i.tileNo

/-- The elements of a tile, by rising id. -/
def tileElems (t : Nat) : List Nat := (List.range 64).map (t * 64 + ·)

/-- The elements of an instance, by tile and rising id. -/
def Inst.elems (i : Inst) : List Nat := i.tiles.flatMap tileElems

/-- The relative position of a tile in an instance. -/
def Inst.relTile (i : Inst) (t : Nat) : Nat × Nat := (trow t - i.row0, tcol t - i.col0)

/-- Whether an instance holds a tile. -/
def Inst.hasTile (i : Inst) (t : Nat) : Bool := i.tiles.contains t

/-- Whether a tile lies in the region of an instance. -/
def Inst.spans (i : Inst) (t : Nat) : Bool := i.region.contains t

/-! ## Counters (R337) -/

/-- Add to a counter of a group; it stops at 2^64 − 1 and counts only while the group runs. -/
def CounterGroup.add (g : CounterGroup) (k n : Nat) : CounterGroup :=
  if g.running then { g with c := upd g.c k (fun v => min (v + n) (2 ^ 64 - 1)) } else g

/-- Count in group 0, 1 or 2 of an element. -/
def Element.count (e : Element) (g k n : Nat) : Element :=
  if n = 0 then e else { e with counters := upd e.counters g (·.add k n) }

/-- Count in group 3 to 7 of a tile. -/
def Tile.count (t : Tile) (g k n : Nat) : Tile :=
  if n = 0 then t else { t with counters := upd t.counters (g - 3) (·.add k n) }

def State.countTile (s : State) (t g k n : Nat) : State :=
  if n = 0 then s else s.modTile t (·.count g k n)

/-! ## Queues (R125, R131, R134) -/

/-- The head of an input queue. -/
def Element.head? (e : Element) (q : Nat) : Option Token := (nth e.iq q []).head?

/-- The valid route entries of an output queue, by destination number (R132). -/
def Bank.routesOf (b : Bank) (q : Nat) : List Nat :=
  (List.range 4).filter (fun j => (nth b.routes (4 * q + j) 0).getLsbD 31)

/-- How often a firing in flight names an output queue. -/
def namings (w : BitVec 128) (q : Nat) : Nat :=
  (if (w.extractLsb' 74 5).toNat = 8 + q then 1 else 0) + (if (w.extractLsb' 69 5).toNat = 8 + q then 1 else 0)

/-- The place that a HINS with spill keeps on SPQ: `extra` holds SPQ + 1 (R307). -/
def Firing.spills (f : Firing) (q : Nat) : Nat :=
  if f.word.extractLsb' 79 9 = 0x107 && f.extra = [q + 1] then 1 else 0

/-- The places of an output queue reserved by firings in flight (R146). -/
def Element.reserved (e : Element) (q : Nat) : Nat :=
  total (e.inflight.map (fun f => namings f.word q + f.spills q))

/-- Whether an output queue has n unreserved free places (R142). -/
def Element.freePlaces (e : Element) (q n : Nat) : Bool := (nth e.oq q []).length + e.reserved q + n ≤ 2

/-- Put a token at the tail of an output queue. -/
def Element.enqueue (e : Element) (q : Nat) (t : Token) : Element :=
  { e with oq := upd e.oq q (· ++ [t]) }.count 2 5 1

/-! ## Pacer logs (R227 to R229) -/

/-- The offset of a time in a log: OP3 steps since birth, stopping at 0xFF_FFFF (R228). -/
def paceOffset (birth t : Nat) : Nat := min ((t - birth) * 12 / 5) 0xFFFFFF

/-- An element's input queue accepts a pacer token: a hop entry, or OVF after 16 (R227, R228). -/
def Token.arrive (t : Token) (eid now : Nat) : Token :=
  match t.pacer with
  | none => t
  | some l =>
    if l.hops.length < 16 then
      { t with pacer := some { l with hops := l.hops ++ [⟨eid, paceOffset l.birth now, none⟩] } }
    else { t with pacer := some { l with ovf := true } }

/-- The token is dequeued: the departure offset of its last hop, where that hop is this element's (R227). -/
def Token.depart (t : Token) (eid now : Nat) : Token :=
  match t.pacer with
  | none => t
  | some l =>
    if l.ovf then t
    else
      { t with pacer := some { l with hops := l.hops.mapIdx (fun i h =>
          if i + 1 = l.hops.length && h.eid == eid then { h with depart := some (paceOffset l.birth now) } else h) } }

/-! ## Record sequences (R222) -/

/-- The key of a source's sequence for a partition: KIND, SRC and partition. -/
def seqKey (kind src part : Nat) : Nat := (kind * 65536 + src) * 16 + part

/-- The next number of a source for a partition, modulo 2^32. -/
def State.takeSeq (s : State) (kind src part : Nat) : Nat × State :=
  let k := seqKey kind src part
  let n := (s.recSeq.find k).getD 0
  (n, { s with recSeq := s.recSeq.put k ((n + 1) % 2 ^ 32) })

/-! ## Taking a fault (R223) -/

/-- HEADS of a record: tag and occupancy of each input queue (R218). -/
def Element.headsWord (e : Element) : Word :=
  (List.range 4).foldl (fun acc q =>
    let l := nth e.iq q []
    let b := match l.head? with
      | some t => t.tag.toNat + 16 * l.length
      | none => 0
    acc ||| BitVec.ofNat 32 (b * 2 ^ (8 * q))) 0

/-- The lowest index an instance holds, or 0xFFFF_FFFF (R218). -/
def lowestHeld (l : List Nat) : Nat := l.foldl min 0xFFFFFFFF

/-- Positions that a token holds: 16, or 8 pairs of binary64 (R314). -/
def rowLanes (f : Nat) : Nat := if f = 3 then 8 else 16

def StreamCfg.e (c : StreamCfg) (k : Nat) : Nat := nth c.ext k 1

/-- i1 to i4 of a row. -/
def StreamCfg.rowIx (c : StreamCfg) (row : Nat) : List Nat :=
  [row % c.e 1, row / c.e 1 % c.e 2, row / c.e 1 / c.e 2 % c.e 3, row / c.e 1 / c.e 2 / c.e 3]

/-- Tokens of one row. -/
def StreamCfg.rowToks (c : StreamCfg) : Nat := (c.e 0 + rowLanes c.fmt - 1) / rowLanes c.fmt

/-- Tokens of one group or block: the exponent token and the planes, or the 208 tokens of a weight block, of each of the
five slices of FP64 (R204, R205). -/
def StreamCfg.groupToks (c : StreamCfg) : Nat :=
  if c.kind = 2 then c.planes + 1 else if c.fmt = 3 then 1040 else 208

/-- Tokens of a run along dimension 0: a row of a LOAD stream; of a PLANE or WEIGHT stream the groups of one row of
groups and the end token behind them (R314, R321). -/
def StreamCfg.lineToks (c : StreamCfg) : Nat :=
  if c.kind = 2 || c.kind = 3 then (c.e 0 + 63) / 64 * c.groupToks + 1 else c.rowToks

/-- Values of i1 that a group or block covers. -/
def StreamCfg.groupRows (c : StreamCfg) : Nat := if c.kind = 2 then 8 else if c.kind = 3 then 128 else 1

/-- Position numbers of a PLANE or WEIGHT stream: run, place in the run. -/
def StreamCfg.place (c : StreamCfg) (pos : Nat) : Nat × Nat := (pos / c.lineToks, pos % c.lineToks)

/-- Groups of i1 in a run's index. -/
def StreamCfg.groups (c : StreamCfg) : Nat := (c.e 1 + c.groupRows - 1) / c.groupRows

/-- Group of i1, i2, i3, i4 of a run. -/
def StreamCfg.lineIx (c : StreamCfg) (line : Nat) : List Nat :=
  [line % c.groups, line / c.groups % c.e 2, line / c.groups / c.e 2 % c.e 3, line / c.groups / c.e 2 / c.e 3]

/-- Where a stream of an AG stands, for the record of its memory fault: the stream that the slot word names, its position, and i0 to
i4 of that position in the pattern, of a PLANE or WEIGHT stream those of its group or block (R167, R314, R321). R218 gives these no
bytes in the record. -/
def Element.position (e : Element) (word : BitVec 128) : Nat × Nat × List Nat :=
  let k := (word.extractLsb' 28 2).toNat
  let t := nth e.streams k { }
  let c := t.cfg
  let (line, n) := c.place t.pos
  (k, t.pos, if c.kind = 2 || c.kind = 3 then 64 * (n / c.groupToks) :: (c.lineIx line).mapIdx (fun j i => if j = 0 then i * c.groupRows else i)
    else n * rowLanes c.fmt :: c.rowIx line)

/-- A fault or break is produced: numbered at its source and left with the instance for the Starter to
take (R222, R224). `src` is the KIND and SRC of R221. -/
def State.produce (s : State) (i : Nat) (src : Nat × Nat) (family code : Nat) (slot : Option Nat)
    (word : BitVec 128) (heads : Word) (tokens : List TokEntry) (addr : Nat) : State :=
  match s.insts.find i with
  | none => s
  | some x =>
    let (n, s) := s.takeSeq src.1 src.2 x.part
    s.modInst i (fun x => { x with faults := x.faults ++
      [{ kind := src.1, src := src.2, family, code, slot, word, heads, tokens, addr, time := s.now, seq := n,
         ttidx := lowestHeld x.held, policy := x.policy,
         position := if src.1 = 0 && elemType src.2 == .ag && family = 3 && word ≠ 0 then some ((s.elem src.2).position word)
           else none }] })

/-- Taking a fault: the element enters FAULTED and selects no more, and its record is produced; its queues,
registers and predicates stay as they are (R146, R148, R223). -/
def State.takeFault (s : State) (eid : Nat) (family code addr : Nat) (slot : Option Nat) (word : BitVec 128)
    (tokens : List TokEntry) : State :=
  let e := s.elem eid
  let s := s.setElem eid { e with state := .faulted }
  match e.inst with
  | some i => s.produce i (0, eid) family code slot word e.headsWord tokens addr
  | none => s

/-- A link fault of a port for an element: the element enters FAULTED, and the record names the port (R16, R19, R221). -/
def State.takePortFault (s : State) (eid port code : Nat) (tokens : List TokEntry) : State :=
  let e := s.elem eid
  let s := s.setElem eid { e with state := .faulted }
  match e.inst with
  | some i => s.produce i (4, port) 7 code none 0 0 tokens 0
  | none => s

/-- The return from a fault: the element drops its tokens and state and becomes unoccupied, retaining no
image (R226). -/
def State.releaseElem (s : State) (eid : Nat) : State := s.setElem eid (Element.resetOf (elemType eid))

end Sys2Proof.Machine
end

