-- ==== Sys2Proof/Machine/Operands.lean ====
section
/-! DEFINITION. Operands: lanes and pairs of a token (R128, R190), every source form (R235) and every
destination form (R236). -/

namespace Sys2Proof.Machine

/-- Lane l of a token; a number of 16 or more names no lane. -/
def laneAt (v : Lanes) (l : Nat) : Lane := if h : l < 16 then v[l] else none

/-- The payload of lane l; an invalid lane reads zero (R128). -/
def wordAt (v : Lanes) (l : Nat) : Word := (laneAt v l).getD 0

/-- Whether lane l is valid. -/
def validAt (v : Lanes) (l : Nat) : Bool := (laneAt v l).isSome

/-- The sixteen lanes that f gives. -/
def lanesOf (f : Nat → Lane) : Lanes := Lanes.ofFn (fun i => f i.val)

/-- The first lanes from a list, the others invalid. -/
def lanesOfList (l : List Word) : Lanes := lanesOf (fun i => l[i]?)

/-- Pair k: valid when both its lanes are; the even lane is the low word (R190). -/
def pairAt (v : Lanes) (k : Nat) : Option DWord :=
  match laneAt v (2 * k), laneAt v (2 * k + 1) with
  | some lo, some hi => some (hi ++ lo)
  | _, _ => none

/-- The lanes of eight pairs. -/
def lanesOfPairs (f : Nat → Option DWord) : Lanes :=
  lanesOf (fun l => (f (l / 2)).map (fun d => if l % 2 = 0 then d.extractLsb' 0 32 else d.extractLsb' 32 32))

/-- The 16-bit valid mask (R128). -/
def validMask (v : Lanes) : BitVec 16 :=
  (List.range 16).foldl (fun m l => if validAt v l then m ||| BitVec.ofNat 16 (2 ^ l) else m) 0

/-- The number of valid lanes. -/
def validCount (v : Lanes) : Nat := ((List.range 16).filter (validAt v)).length

/-- The lanes with the valid mask cut to a mask. -/
def maskLanes (v : Lanes) (m : BitVec 16) : Lanes := lanesOf (fun l => if m.getLsbD l then laneAt v l else none)

/-- The payloads as one little-endian number of 512 bits, invalid lanes zero. -/
def payload (v : Lanes) : BitVec 512 :=
  (List.range 16).foldr (fun l acc => acc <<< 32 ||| (wordAt v l).setWidth 512) 0

/-- The 64 bytes of a token's payload, lane l at 4l (R219). -/
def payloadBytes (v : Lanes) : List Byte := (List.range 16).flatMap (fun l => leBytes 4 (wordAt v l).toNat)

/-- How IMM reads under D: the high word of a binary64, or a sign-extended integer (R235, R280). -/
inductive ImmKind where
  | float | int
deriving DecidableEq, Repr

/-- How the IMM of operand n (0 for A, 1 for B, 2 for C) reads under D in an instruction: as a float in class 1,
in the conversions from binary64 and in the float reductions, as an integer otherwise (R235, R281, R284). -/
def immKind (opc : Nat) (x : Bool) (n : Nat) : ImmKind :=
  if opc = 0x055 && n = 1 then .int
  else if (opc = 0x058 || opc = 0x059) && x then .int
  else if opc = 0x05A || opc = 0x05B then .int
  else if 0x040 ≤ opc && opc < 0x080 then .float
  else if opc = 0x085 || opc = 0x086 || opc = 0x08A || opc = 0x09D || opc = 0x09E || opc = 0x0A0 then .float
  else .int

/-- A register pair or single register in every lane: under D the even register is the low word (R235). -/
def spread (d : Bool) (lo hi : Word) : Lanes := lanesOf (fun l => some (if d && l % 2 = 1 then hi else lo))

/-- The token view that a source specifier names (R235). -/
def readSource (e : Element) (d : Bool) (kind : ImmKind) (imm : Word) (src : Src) : View :=
  match src with
  | .v n => ⟨nth e.v n.val (Lanes.all 0), none⟩
  | .head q =>
    match e.head? q.val with
    | some t => ⟨t.lanes, some t.tag⟩
    | none => ⟨Lanes.empty, none⟩
  | .a n => ⟨spread d (nth e.a n.val 0) (nth e.a (n.val + 1) 0), none⟩
  | .c n => ⟨spread d (nth e.bank.consts n.val 0) (nth e.bank.consts (n.val + 1) 0), none⟩
  | .imm =>
    if !d then ⟨spread false imm imm, none⟩
    else match kind with
      | .float => ⟨spread true 0 imm, none⟩
      | .int => ⟨spread true imm (if imm.msb then BitVec.allOnes 32 else 0), none⟩
  | .lane => ⟨lanesOf (fun l => some (if d then (if l % 2 = 0 then BitVec.ofNat 32 (l / 2) else 0)
      else BitVec.ofNat 32 l)), none⟩
  | .zero => ⟨Lanes.all 0, none⟩
  | .ones => ⟨Lanes.all (BitVec.allOnes 32), none⟩
  | .x _ => ⟨Lanes.empty, none⟩
  | .none => ⟨Lanes.empty, none⟩

/-- Write a result to a register destination: a v register whole, an a-register lane 0 (or 0) and under D
pair 0 into a register pair; the other destinations change no register (R236). -/
def writeReg (e : Element) (d : Bool) (dst : Dst) (r : Lanes) : Element :=
  match dst with
  | .v n => { e with v := upd e.v n.val (fun _ => r) }
  | .a n =>
    if d then
      let p := (pairAt r 0).getD 0
      { e with a := upd (upd e.a n.val (fun _ => p.extractLsb' 0 32)) (n.val + 1) (fun _ => p.extractLsb' 32 32) }
    else { e with a := upd e.a n.val (fun _ => wordAt r 0) }
  | _ => e

/-- The registers that a specifier stands for, as names: v registers 0 to 7, a-registers 8 to 11 with the pair
partner under D, accumulators 12 and 13 (R143). -/
def srcRegs (d : Bool) : Src → List Nat
  | .v n => [n.val]
  | .a n => if d then [8 + n.val, 9 + n.val] else [8 + n.val]
  | .x n => [12 + n.val]
  | _ => []

def dstRegs (d : Bool) : Dst → List Nat
  | .v n => [n.val]
  | .a n => if d then [8 + n.val, 9 + n.val] else [8 + n.val]
  | .x n => [12 + n.val]
  | _ => []

end Sys2Proof.Machine
end

