-- ==== Sys2Proof/Machine/Flags.lean ====
section
/-! DEFINITION. The sticky flag word (R213), the predicate of a result (R239) and the tag of a result (R238). -/

namespace Sys2Proof.Machine

/-! ## Sticky flags (R213) -/

def flagNV : Word := 0x01
def flagDZ : Word := 0x02
def flagOF : Word := 0x04
def flagUF : Word := 0x08
def flagNX : Word := 0x10
def flagIDZ : Word := 0x20
def flagXLOST : Word := 0x40
def flagXOV : Word := 0x80

/-- A flag where a condition holds. -/
def flagIf (c : Bool) (f : Word) : Word := if c then f else 0

/-- The OR of flags. -/
def flagsOr (l : List Word) : Word := l.foldl (· ||| ·) 0

/-- Set flags; a bit once set stays set (R213). -/
def Element.setFlags (e : Element) (f : Word) : Element := { e with flags := e.flags ||| f }

/-! ## Predicates (R239) -/

/-- The element e of a result is not zero; under D a pair by either word (R239). -/
def elemNonzero (d : Bool) (r : Lanes) (k : Nat) : Bool :=
  if d then wordAt r (2 * k) != 0 || wordAt r (2 * k + 1) != 0 else wordAt r k != 0

/-- The element e of a result is valid; under D a pair whose lanes both are (R190). -/
def elemValid (d : Bool) (r : Lanes) (k : Nat) : Bool :=
  if d then validAt r (2 * k) && validAt r (2 * k + 1) else validAt r k

/-- Lanes of a view, or pairs under D. -/
def elemCount (d : Bool) : Nat := if d then 8 else 16

/-- The value of PD, for the first result (none where nothing is produced), the tag of the first dequeued
input and the old value (R239, R265). -/
def predValue (pm : PredMode) (d : Bool) (first : Option Lanes) (deqTag : Option Tag) (old : Pred) : Pred :=
  let ofBool (b : Bool) : Pred := if b then .yes else .no
  match pm with
  | .keep => old
  | .lane0 => ofBool (match first with
      | some r => elemValid d r 0 && elemNonzero d r 0
      | none => false)
  | .anyLane => ofBool (match first with
      | some r => (List.range (elemCount d)).any (fun k => elemValid d r k && elemNonzero d r k)
      | none => false)
  | .allLanes => ofBool (match first with
      | some r => (List.range (elemCount d)).all (fun k => !elemValid d r k || elemNonzero d r k)
      | none => true)
  | .setTrue => .yes
  | .setFalse => .no
  | .endTag => ofBool (match deqTag with
      | some t => isEnd t
      | none => false)
  | .invert => match old with
      | .yes => .no
      | _ => .yes

/-! ## Tags (R238) -/

/-- How a result takes its tag: built by R238, passed with a token's own tag, or given by the instruction. -/
inductive TagRule where
  | built
  | passed (t : Tag)
  | given (t : Tag)
deriving DecidableEq, Repr

/-- The tag of a result: POISON where a token used by the firing is POISON; else OTAG, or under KT the tag of
the first dequeued input; a passed token keeps its own (R238, R265). -/
def resultTag (w : Slot) (poison : Bool) (ktTag : Tag) (r : TagRule) : Tag :=
  match r with
  | .passed t => t
  | .given t => if poison then tagPoison else t
  | .built => if poison then tagPoison else if w.kt then ktTag else w.otag

end Sys2Proof.Machine
end

