-- ==== Sys2Proof/Machine/Memory.lean ====
section
/-! DEFINITION. Memory as sparse cells in one canonical form, with poison markers (R169, R171), and the
translation of virtual addresses (R157 to R166). -/

namespace Sys2Proof.Machine

/-! ## Cells -/

/-- What a byte that no cell lists reads as: the spec gives no power-on contents of HBM, and the SRAM is zero at
every commit (R255; log 1). -/
def blank : Byte := 0

/-- The canonical form: addresses strictly rising and no cell equal to what an unlisted byte reads as. -/
def Memory.wf : List Host.Cell → Bool
  | [] => true
  | [c] => c.2 != blank
  | c :: d :: m => c.2 != blank && c.1 < d.1 && Memory.wf (d :: m)

/-- The byte at an address. -/
def byteAt : List Host.Cell → Nat → Byte
  | [], _ => blank
  | (k, v) :: m, a => if k = a then v else byteAt m a

/-- The n bytes from an address on, from cells at or above it. -/
def bytesFrom : List Host.Cell → Nat → Nat → List Byte
  | _, _, 0 => []
  | [], a, n + 1 => blank :: bytesFrom [] (a + 1) n
  | (k, v) :: m, a, n + 1 =>
    if k = a then v :: bytesFrom m (a + 1) n else blank :: bytesFrom ((k, v) :: m) (a + 1) n

/-- The n bytes from an address on. -/
def bytesAt (m : List Host.Cell) (a n : Nat) : List Byte := bytesFrom (m.dropWhile (fun c => c.1 < a)) a n

/-- The cells of bytes laid from an address on; bytes that an unlisted address reads as take none. -/
def cellsOf : Nat → List Byte → List Host.Cell
  | _, [] => []
  | a, b :: bs => if b = blank then cellsOf (a + 1) bs else (a, b) :: cellsOf (a + 1) bs

/-- Write bytes from an address on. -/
def putBytes (m : List Host.Cell) (a : Nat) (bs : List Byte) : List Host.Cell :=
  m.takeWhile (fun c => c.1 < a) ++ cellsOf a bs ++
    (m.dropWhile (fun c => c.1 < a)).dropWhile (fun c => c.1 < a + bs.length)

/-- Write one byte. -/
def putByte (m : List Host.Cell) (a : Nat) (b : Byte) : List Host.Cell := putBytes m a [b]

/-- Take every cell of a range away: its bytes read as an unlisted byte. -/
def clearRange (m : List Host.Cell) (a n : Nat) : List Host.Cell := m.filter (fun c => c.1 < a || a + n ≤ c.1)

/-! ## Poison markers, one for each 64-bit word (R169, R171) -/

/-- The numbers of the 64-bit words that n bytes from an address touch. -/
def wordsOf (a n : Nat) : List Nat := if n = 0 then [] else (List.range ((a + n - 1) / 8 - a / 8 + 1)).map (a / 8 + ·)

/-- Insert into a strictly rising list. -/
def insertNat : List Nat → Nat → List Nat
  | [], n => [n]
  | k :: l, n => if n < k then n :: k :: l else if n = k then k :: l else k :: insertNat l n

def mark (p : List Nat) (ws : List Nat) : List Nat := ws.foldl insertNat p

def unmark (p : List Nat) (ws : List Nat) : List Nat := p.filter (fun w => !ws.contains w)

/-- Read n bytes: those of a marked word read zero, and the answer says whether any word was marked. -/
def readMem (m : List Host.Cell) (p : List Nat) (a n : Nat) : List Byte × Bool :=
  if (wordsOf a n).any p.contains then
    ((bytesAt m a n).mapIdx (fun i b => if p.contains ((a + i) / 8) then 0 else b), true)
  else (bytesAt m a n, false)

/-- A clean write of single bytes: a marked word whose 8 bytes are all written loses its marker; one written in
part keeps it (R171). -/
def writeMem (m : List Host.Cell) (p : List Nat) (bs : List (Nat × Byte)) : List Host.Cell × List Nat :=
  let m' := bs.foldl (fun m b => putByte m b.1 b.2) m
  let whole := ((bs.map (·.1 / 8)).dedup).filter (fun w =>
    (List.range 8).all (fun i => bs.any (fun b => b.1 = 8 * w + i)))
  (m', if p.isEmpty then p else unmark p whole)

/-- A write of a POISON token marks every word that holds a written byte (R171). -/
def poisonMem (p : List Nat) (as : List Nat) : List Nat := mark p (as.map (· / 8)).dedup

/-! ## HBM and the tile SRAM -/

def State.readHbm (s : State) (pa n : Nat) : List Byte × Bool := readMem s.hbm s.hbmPoison pa n

def State.writeHbm (s : State) (bs : List (Nat × Byte)) : State :=
  let (m, p) := writeMem s.hbm s.hbmPoison bs
  { s with hbm := m, hbmPoison := p }

def State.poisonHbm (s : State) (as : List Nat) : State := { s with hbmPoison := poisonMem s.hbmPoison as }

/-- Bytes laid from an address on, as single bytes. -/
def spreadBytes (a : Nat) (bs : List Byte) : List (Nat × Byte) := bs.mapIdx (fun i b => (a + i, b))

/-- Local addresses wrap at 8 MiB (R150). -/
def sramWrap (a : Nat) : Nat := a % 2 ^ 23

/-- Read n bytes of a tile's SRAM, wrapping at the top (R150). -/
def Tile.read (t : Tile) (a n : Nat) : List Byte × Bool :=
  let a := sramWrap a
  if a + n ≤ 2 ^ 23 then readMem t.sram t.sramPoison a n
  else
    let k := 2 ^ 23 - a
    let x := readMem t.sram t.sramPoison a k
    let y := readMem t.sram t.sramPoison 0 (n - k)
    (x.1 ++ y.1, x.2 || y.2)

/-- Write bytes of a tile's SRAM; a POISON token writes markers (R171). -/
def Tile.write (t : Tile) (bs : List (Nat × Byte)) (poison : Bool) : Tile :=
  let bs := bs.map (fun b => (sramWrap b.1, b.2))
  if poison then { t with sramPoison := poisonMem t.sramPoison (bs.map (·.1)) }
  else
    let (m, p) := writeMem t.sram t.sramPoison bs
    { t with sram := m, sramPoison := p }

/-- The 32-bit little-endian word of four bytes (R6). -/
def wordOfBytes (bs : List Byte) : Word := BitVec.ofNat 32 (leNat bs)

/-- Whether the word at a local address is poisoned. -/
def Tile.poisoned (t : Tile) (a n : Nat) : Bool := (t.read a n).2

/-! ## Translation -/

/-- Kinds of access that the checks of R162 tell apart. -/
inductive AccessWant where
  | load | store | atomic | config
deriving DecidableEq, Repr

/-- Codes of the memory family (R220). -/
def cALIGN : Nat := 0x01
def cVARANGE : Nat := 0x02
def cXLATE : Nat := 0x03
def cPTEFORMAT : Nat := 0x04
def cPTEPOISON : Nat := 0x05
def cOWNER : Nat := 0x06
def cPTAG : Nat := 0x07
def cPERMREAD : Nat := 0x08
def cPERMWRITE : Nat := 0x09
def cPERMATOMIC : Nat := 0x0A
def cPERMCONFIG : Nat := 0x0B
def cPERMREMOTE : Nat := 0x0C
def cPAUNMAPPED : Nat := 0x0D
def cRPKG : Nat := 0x0E
def cMMIOKIND : Nat := 0x0F
def cPOISONCTL : Nat := 0x10
def cPOISONEGRESS : Nat := 0x11
def cCONTEXT : Nat := 0x12
def cGATED : Nat := 0x13
def cREADPOISON : Nat := 0x14

/-- Fault families (R220). -/
def fCOMMIT : Nat := 1
def fOPERAND : Nat := 2
def fMEMORY : Nat := 3
def fSTREAM : Nat := 4
def fDEADLOCK : Nat := 5
def fLEASE : Nat := 6
def fLINK : Nat := 7
def fTRAP : Nat := 8
def fBREAK : Nat := 9
def fSYSTEM : Nat := 10

/-- Link faults: the code of an Aqric failure (R220). -/
def cAQRIC : Nat := 2

/-- A bit field of a number. -/
def bitsOf (n lo len : Nat) : Nat := n / 2 ^ lo % 2 ^ len

/-- The owner of the unit of a physical address; an address outside HBM has none (R163). -/
def State.ownerOf (s : State) (pa : Nat) : Nat := if pa < 2 ^ 42 then (s.unit (pa / 2 ^ 30)).owner.toNat else 31

/-- Whether a page size code stands at a level (R158, R160). -/
def sizeAtLevel (lvl size : Nat) : Bool := if lvl = 3 then size ≤ 4 else lvl = 2 && 5 ≤ size && size ≤ 9

/-- Whether the unit of a physical address is being scrubbed (R163). -/
def State.scrubbing (s : State) (pa : Nat) : Bool := pa < 2 ^ 42 && (s.unit (pa / 2 ^ 30)).scrub

/-- A read that does not wait for a scrub: it sees the zeros that the scrub leaves, as it would after it (R163). -/
def State.readHome (s : State) (pa n : Nat) : List Byte × Bool :=
  if s.scrubbing pa then (List.replicate n 0, false) else s.readHbm pa n

/-- A write of a Starter: to a unit under scrub it waits at its home (R163). -/
def State.writeHome (s : State) (bs : List (Nat × Byte)) : State :=
  if bs.any (fun b => s.scrubbing b.1) then { s with parked := s.parked ++ [bs] } else s.writeHbm bs

/-- The writes that waited for a scrub perform once it has ended (R163). -/
def State.unpark (s : State) : State :=
  let (wait, go) := s.parked.partition (·.any (fun b => s.scrubbing b.1))
  go.foldl State.writeHbm { s with parked := wait }

/-- One level of the walk: the table of the next level, or the page of the leaf (R161). -/
def walkLevel (s : State) (tag : Nat) (lvl t idx va : Nat) : Except Nat (Nat ⊕ PageEntry) :=
  if s.ownerOf t ≠ tag then .error cOWNER
  else
    let (bs, bad) := s.readHome (t + idx * 8) 8
    let e := leNat bs
    if bad then .error cPTEPOISON
    else if bitsOf e 0 1 = 0 then .error cXLATE
    else
      let frame := bitsOf e 25 32
      if bitsOf e 1 1 = 0 then
        if lvl = 3 || bitsOf e 2 23 ≠ 0 || bitsOf e 57 7 ≠ 0 || frame % 2 = 1 then .error cPTEFORMAT
        else .ok (.inl (frame * 4096))
      else
        let size := bitsOf e 6 4
        if lvl < 2 || bitsOf e 57 7 ≠ 0 || !sizeAtLevel lvl size || bitsOf e 10 2 = 3 || 16 < bitsOf e 20 5 ||
            (bitsOf e 10 2 ≠ 1 && bitsOf e 12 8 ≠ 0) || frame % 4 ^ size ≠ 0 then .error cPTEFORMAT
        else
          let bytes := 4096 * 4 ^ size
          .ok (.inr ⟨va - va % bytes, bytes, BitVec.ofNat 64 e⟩)

/-- The levels from a table on, with the indexes still to use (R161). -/
def walkFrom (s : State) (tag va : Nat) : Nat → Nat → List Nat → Except Nat PageEntry
  | _, _, [] => .error cPTEFORMAT
  | lvl, t, idx :: rest =>
    match walkLevel s tag lvl t idx va with
    | .error c => .error c
    | .ok (.inr p) => .ok p
    | .ok (.inl t') => walkFrom s tag va (lvl + 1) t' rest

/-- The page tables are walked for a VA of a VF (R158, R161); a VF whose ROOT is 0 has none, so that no VA translates
(R164). -/
def State.walk (s : State) (v va : Nat) : Except Nat PageEntry :=
  if (s.vf v).root = 0 then .error cXLATE
  else walkFrom s (s.tagOf v) va 0 ((s.vf v).root.toNat * 1024)
    [bitsOf va 42 7, bitsOf va 32 10, bitsOf va 22 10, bitsOf va 12 10]

/-- The checks of R162 on a leaf, for an access at va. `host` and `ldst` say whether device MMIO may be reached:
only LDG, STG and host accesses may. -/
def State.checkLeaf (s : State) (v : Nat) (p : PageEntry) (va : Nat) (k : AccessWant) (mmioOk : Bool) : Except Nat Home :=
  let e := p.leaf.toNat
  let ptag := bitsOf e 20 5
  let r := bitsOf e 2 1 = 1
  let w := bitsOf e 3 1 = 1
  let a := bitsOf e 4 1 = 1
  let pa := bitsOf e 25 32 * 4096 + va % p.size
  if ptag ≠ s.tagOf v then .error cPTAG
  else
    let perm : Option Nat := match k with
      | .load => if r then none else some cPERMREAD
      | .store => if w then none else some cPERMWRITE
      | .atomic => if r && w && a then none else some cPERMATOMIC
      | .config => if bitsOf e 5 1 = 1 then none else some cPERMCONFIG
    match perm with
    | some c => .error c
    | none =>
      match bitsOf e 10 2 with
      | 0 =>
        if bitsOf pa 42 2 ≠ 0 then .error cPAUNMAPPED
        else if s.ownerOf pa ≠ ptag then .error cOWNER
        else .ok (.hbm pa)
      | 1 =>
        let pkg := bitsOf e 12 8
        if pkg = s.pkgId.toNat || 192 ≤ pkg then .error cRPKG
        else .ok (.remote pkg ptag pa 0)
      | 2 =>
        if bitsOf pa 42 2 ≠ 1 then .error cPAUNMAPPED
        else if !mmioOk || k = .atomic || k = .config then .error cMMIOKIND
        else .ok (.mmio pa)
      | _ => .error cPTEFORMAT

/-- The page that holds va among cached ones. -/
def pageIn (l : List PageEntry) (va : Nat) : Option PageEntry := l.find? (fun p => p.start ≤ va && va < p.start + p.size)

/-- The page of a VA through the walk cache of a quarter: an entry of the VF, or a walk that enters it as the newest of the
quarter's 4,096 (R165, R166). -/
def State.lookup (s : State) (quarter v va : Nat) : Except Nat PageEntry × State :=
  let l := (s.walkCache.find quarter).getD []
  match pageIn ((l.filter (fun x => x.vf = v)).map (·.page)) va with
  | some p => (.ok p, s)
  | none =>
    match s.walk v va with
    | .ok p => (.ok p, { s with walkCache := s.walkCache.put quarter ((⟨v, p⟩ :: l).take 4096) })
    | .error c => (.error c, s)

/-- VA-RANGE and ALIGN come before translation, VA-RANGE first (R157). -/
def vaCheck (va : Nat) : Option Nat :=
  if 2 ^ 49 ≤ va then some cVARANGE else if va % 4 ≠ 0 then some cALIGN else none

/-- Translation through the walk cache and the checks of R162. -/
def State.translate (s : State) (quarter v va : Nat) (k : AccessWant) (mmioOk : Bool) : Except Nat Home × State :=
  match s.lookup quarter v va with
  | (.error c, s) => (.error c, s)
  | (.ok p, s) => (s.checkLeaf v p va k mmioOk, s)

/-- The invalidation of a VF's entries in every quarter (R35, R166). -/
def State.dropWalks (s : State) (v : Nat) : State :=
  { s with walkCache := s.walkCache.map (fun e => (e.1, e.2.filter (fun x => x.vf ≠ v))) }

/-- The length of the part of [va, va + n) that lies in the granule of va (R174). -/
def granulePart (va n : Nat) : Nat := min n (64 - va % 64)

/-! ## What waits before a home (R15, R16, R163, R176) -/

/-- Whether the walk of a VA waits for a unit under scrub (R163). -/
def State.walkWaits (s : State) (tag va : Nat) : Nat → Nat → List Nat → Bool
  | _, _, [] => false
  | lvl, t, idx :: rest =>
    s.scrubbing t || (match walkLevel s tag lvl t idx va with
      | .ok (.inl t') => s.walkWaits tag va (lvl + 1) t' rest
      | _ => false)

/-- Whether the walk of a VA of a VF waits for a unit under scrub. -/
def State.tableWaits (s : State) (v va : Nat) : Bool :=
  v ≠ 511 && (s.vf v).root ≠ 0 && va < 2 ^ 49 &&
  s.walkWaits (s.tagOf v) va 0 ((s.vf v).root.toNat * 1024) [bitsOf va 42 7, bitsOf va 32 10, bitsOf va 22 10, bitsOf va 12 10]

/-- The hash over the ports: the choice among all of them, and after each port that left the hash a new choice among those left for
what the port carried. What a port carries that is still in the hash does not move (R15, R16). -/
def State.hashedPort (s : State) (pick : Nat → Nat) : Option Nat :=
  let choose (l : List Nat) : Option Nat := l[pick l.length % l.length]?
  (s.remapped.foldl (fun (acc : List Nat × Option Nat) gone =>
    let left := acc.1.filter (· ≠ gone)
    (left, if acc.2 = some gone then choose left else acc.2)) (List.range 36, choose (List.range 36))).2

/-- What a use of the link finds: no port up, a failed port whose hash is not yet remapped, or its port (R16). -/
inductive Link where
  | down | waits | port (p : Nat)
deriving DecidableEq, Repr

def State.linkOf (s : State) (pick : Nat → Nat) : Link :=
  if s.aqric.all (!·.up) then .down
  else match s.hashedPort pick with
    | none => .down
    | some p => if (nth s.aqric p { up := false }).up then .port p else .waits

/-- The link of a remote package and granule, and of the active messages to a package (R15). -/
def State.aqricPort (s : State) (pkg granule : Nat) : Link := s.linkOf (Config.aqricHash pkg granule)
def State.amPort (s : State) (pkg : Nat) : Link := s.linkOf (Config.aqricAmHash pkg)

/-! ## Accesses of other packages that no operation of an element makes (R15, R16) -/

/-- An access of n bytes of a granule of another package is asked for: it takes the port of the granule, waits for the remap of a
failed one, or fails where no port is up. -/
def State.postLink (s : State) (owner : LinkOwner) (pkg pa n : Nat) (write : Bool) : State :=
  let (id, s) := s.newId
  let (port, answer) : Option Nat × Option LinkAnswer := match s.aqricPort pkg (pa / 64) with
    | .down => (none, some .failed)
    | .waits => (none, none)
    | .port p => (some p, none)
  { s with links := s.links ++ [⟨id, owner, pkg, pa, n, write, port, answer⟩] }

/-- An access that waits for its port takes it once the hash is remapped; with no port up it fails. -/
def State.portFor (s : State) (r : LinkReq) : LinkReq :=
  if r.port.isSome || r.answer.isSome then r
  else match s.aqricPort r.pkg (r.pa / 64) with
    | .down => { r with answer := some .failed }
    | .waits => r
    | .port p => { r with port := some p }

/-- The request of an owner for n bytes at an address of another package. -/
def State.asked (s : State) (owner : LinkOwner) (pkg pa n : Nat) : Option LinkReq :=
  s.links.find? (fun r => r.owner = owner && r.pkg = pkg && r.pa = pa && r.len = n && !r.write)

/-- An owner's requests are done with. -/
def State.dropLinks (s : State) (owner : LinkOwner) : State := { s with links := s.links.filter (·.owner ≠ owner) }

/-- Whether a Starter or the handling of a message asked. -/
def LinkOwner.starter : LinkOwner → Bool
  | .message _ | .graph _ | .image _ | .report _ | .bind _ => true
  | _ => false

/-- How a Starter's read of n bytes at an address of another package ended, where it has. -/
def State.starterAnswer (s : State) (pkg pa n : Nat) : Option LinkAnswer :=
  (s.links.find? (fun r => r.owner.starter && r.pkg = pkg && r.pa = pa && r.len = n && r.answer.isSome)).bind (·.answer)

/-- Whether no write of a Starter waits for a scrub, for a port or on the link (R43, R163). -/
def State.writesDone (s : State) : Bool := s.parked.isEmpty && s.links.all (fun r => r.owner ≠ .write || r.answer.isSome)

/-! ## Reads and writes by the Starter and the host, through page tables, granule by granule -/

/-- A host or Starter access of n bytes split at granules: start and length of each part. -/
def granules : Nat → Nat → Nat → List (Nat × Nat)
  | 0, _, _ => []
  | fuel + 1, va, n => if n = 0 then [] else (va, granulePart va n) :: granules fuel (va + granulePart va n) (n - granulePart va n)

def granulesOf (va n : Nat) : List (Nat × Nat) := granules (n / 64 + 2) va n

/-- A number for what another package shows to a read that takes no number of its own: it changes as time and draws do. -/
def State.moment (s : State) : Nat := s.now * 2 ^ 64 + s.fresh

/-- n bytes that another package returns, by a number of the access: a poisoned 64-bit word reads zero (R14, R169). -/
def remoteBytes (x pa n : Nat) : List Byte × Bool :=
  ((List.range n).map (fun i => if Config.remotePoison x ((pa + i) / 8) then 0 else Config.remoteByte x (pa + i)),
   (wordsOf pa n).any (Config.remotePoison x))

/-- What a Starter or a message reads at a home: bytes and poison; nothing where the link failed or the other package refuses (R16,
R162). -/
def State.getAt (s : State) (h : Home) (n : Nat) : Except Nat (List Byte × Bool) :=
  match h with
  | .hbm pa => .ok (s.readHome pa n)
  | .remote pkg _ pa _ => match s.starterAnswer pkg pa n with
    | some (.done x) => .ok (remoteBytes x pa n)
    | _ => .error cPERMREMOTE
  | _ => .error cPAUNMAPPED

/-- What a Starter or a message writes at a home: bytes at their offsets. A write to another package goes on the link (R15, R16,
R162). -/
def State.putAt (s : State) (h : Home) (bs : List (Nat × Byte)) : Option State :=
  match h with
  | .hbm pa => some (s.writeHome (bs.map (fun b => (pa + b.1, b.2))))
  | .remote pkg _ pa _ =>
    if s.aqricPort pkg (pa / 64) == .down || Config.remoteRefuses s.moment pa then none
    else some (s.takeFresh.2.postLink .write pkg pa bs.length true)
  | _ => none

/-- The home of an access of a Starter for a VF (R39, R161, R162). -/
def State.starterHome (s : State) (v va : Nat) (k : AccessWant) : Except Nat Home :=
  if 2 ^ 49 ≤ va then .error cVARANGE
  else match s.walk v va with
    | .error c => .error c
    | .ok p => s.checkLeaf v p va k false

/-- Where an access of the host or of an AM by a VF goes. -/
def State.hostHome (s : State) (v va : Nat) (k : AccessWant) : Option Home :=
  if v = 511 || (s.vf v).root = 0 then
    if 2 ^ 44 ≤ va then none
    else if v = 511 && bitsOf va 42 2 = 1 then some (.mmio va)
    else if bitsOf va 42 2 ≠ 0 then none
    else
      let o := s.ownerOf va
      if (v = 511 && (o = 16 || o = 31)) || (v ≠ 511 && o = s.tagOf v) then some (.hbm va) else none
  else if 2 ^ 49 ≤ va then none
  else match s.walk v va with
    | .error _ => none
    | .ok p => match s.checkLeaf v p va k true with
      | .ok h => some h
      | .error _ => none

/-- n bytes at va that a Starter or a message of a VF reads, or reaches without a read: by R39 as the Starter, or by R28 as the host
does. -/
structure Reach where
  v : Nat
  va : Nat
  n : Nat
  host : Bool := false
  want : AccessWant := .load
  read : Bool := true
deriving DecidableEq, Repr

/-- Where a part of it lies. -/
def State.askHome (s : State) (a : Reach) (va : Nat) : Option Home :=
  if a.host then s.hostHome a.v va a.want else (s.starterHome a.v va a.want).toOption

/-- Whether a read at a home waits: for a scrub, or for its answer from another package (R15, R16, R163). -/
def State.readStops (s : State) (h : Home) (n : Nat) : Bool :=
  match h with
  | .hbm pa => s.scrubbing pa
  | .remote pkg _ pa _ => (s.starterAnswer pkg pa n).isNone
  | _ => false

/-- Whether it waits: a walk or a read of it does. -/
def State.askStops (s : State) (a : Reach) : Bool :=
  (granulesOf a.va a.n).any (fun g => s.tableWaits a.v g.1 || (a.read && (s.askHome a g.1).any (fun h => s.readStops h g.2)))

/-- Its parts in other packages that the owner has not yet asked for are asked for. -/
def State.ask (s : State) (owner : LinkOwner) (a : Reach) : State :=
  if !a.read then s
  else (granulesOf a.va a.n).foldl (fun (s : State) g => match s.askHome a g.1 with
    | some (.remote pkg _ pa _) => if (s.asked owner pkg pa g.2).isSome then s else s.postLink owner pkg pa g.2 false
    | _ => s) s

/-- A read by the Starter for a VF: every page translates for a load, and no word is poisoned. -/
def State.starterRead (s : State) (v va n : Nat) (k : AccessWant) : Except Nat (List Byte) :=
  (granulesOf va n).foldl (fun acc g =>
    match acc, s.starterHome v g.1 k with
    | .error c, _ => .error c
    | _, .error c => .error c
    | .ok bs, .ok h => match s.getAt h g.2 with
      | .error c => .error c
      | .ok (_, true) => .error cREADPOISON
      | .ok (b, false) => .ok (bs ++ b)) (.ok [])

/-- Whether a store of n bytes at va by the Starter for a VF passes translation and permission (R39). -/
def State.storeOk (s : State) (v va n : Nat) : Bool := (granulesOf va n).all (fun g => (s.starterHome v g.1 .store).isOk)

/-- A masked store of one granule by the Starter (R38): the bytes at their offsets, or nothing where translation or
permission fails. -/
def State.starterWrite (s : State) (v va : Nat) (bs : List (Nat × Byte)) : Option State :=
  match s.starterHome v va .store with
  | .error _ => none
  | .ok h => s.putAt h bs

/-- A store of bytes that may span granules: all or none. -/
def State.starterWriteAll (s : State) (v va : Nat) (bs : List Byte) : Option State :=
  (granulesOf va bs.length).foldl (fun acc g =>
    match acc with
    | none => none
    | some s => s.starterWrite v g.1 (((bs.drop (g.1 - va)).take g.2).mapIdx (fun i b => (i, b)))) (some s)

end Sys2Proof.Machine
end

