-- ==== Sys2Proof/Machine/Filter.lean ====
section
/-! DEFINITION. The disclosure filter: class entries, coarsening, the rate cap, and the records that reach the operator (R46 to
R57). -/

namespace Sys2Proof.Machine

/-! ## Class entries and coarsening (R48, R53, R54) -/

/-- A class entry (R48). -/
structure ClassEntry where
  level : Nat
  tq : Nat
  cq : Nat
  loc : Nat
  addr : Nat
  payload : Bool
  rate : Nat
deriving DecidableEq, Repr

def classEntry (n : Nat) : ClassEntry :=
  { level := bitsOf n 0 2, tq := bitsOf n 2 6, cq := bitsOf n 8 6, loc := bitsOf n 14 3, addr := bitsOf n 17 6,
    payload := bitsOf n 23 1 = 1, rate := bitsOf n 24 5 }

/-- The entry of a class in a policy block; under "none" it is level 0 (R46). -/
def policyEntry (p : List Byte) (c : Nat) : ClassEntry := classEntry (leNat ((p.drop (0x30 + 8 * c)).take 8))

/-- TASKID_KEEP and GEN_KEEP of a policy block (R47). -/
def keepsTaskId (p : List Byte) : Bool := bitsOf (leNat ((p.drop 6).take 2)) 0 1 = 1
def keepsGen (p : List Byte) : Bool := bitsOf (leNat ((p.drop 6).take 2)) 1 1 = 1

/-- SEQUENCE of a policy block, 0 under "none". -/
def policySeq (p : List Byte) : Nat := leNat ((p.drop 8).take 8)

/-- A field of a record that goes to the operator. -/
inductive Item where
  /-- Of no kind that R54 coarsens. -/
  | plain (n : Nat)
  | time (n : Nat)
  | count (n : Nat)
  | elem (n : Nat)
  | tile (n : Nat)
  | cluster (n : Nat)
  | addr (n : Nat)
  | payload (n : Nat)
  | taskId (n : Nat)
  | gen (n : Nat)
deriving DecidableEq, Repr

/-- n with the low k bits cleared. -/
def clearLow (n k : Nat) : Nat := n - n % 2 ^ k

/-- n with the low k bits set. -/
def setLow (n k : Nat) : Nat := clearLow n k + (2 ^ k - 1)

/-- The coarsening functions of R54. -/
def Item.coarse (i : Item) (e : ClassEntry) (p : List Byte) : Nat :=
  match i with
  | .plain n => n
  | .time n => clearLow n e.tq
  | .count n => clearLow n e.cq
  | .elem n => match e.loc with
    | 4 => n
    | 3 => setLow n 6
    | 2 => setLow n 12
    | 1 => setLow n 14
    | _ => 0xFFFF
  | .tile n => match e.loc with
    | 3 | 4 => n
    | 2 => setLow n 6
    | 1 => setLow n 8
    | _ => 0x3FF
  | .cluster n => match e.loc with
    | 2 | 3 | 4 => n
    | 1 => setLow n 2
    | _ => 0xF
  | .addr n => if e.addr = 0x3F then 0 else clearLow n e.addr
  | .payload n => if e.payload then n else 0
  | .taskId n => if keepsTaskId p then n else 0xFFFF
  | .gen n => if keepsGen p then n else 0

/-- The value of a field. -/
def Item.full : Item → Nat
  | .plain n | .time n | .count n | .elem n | .tile n | .cluster n | .addr n | .payload n | .taskId n | .gen n => n

/-- A readable item as the operator sees it under a class entry: at level 1 a counter reads min(count, 1), and of the rest only a
timestamp shows (R53). -/
def Item.seen (i : Item) (e : ClassEntry) (p : List Byte) : Nat :=
  match e.level with
  | 0 => 0
  | 1 => match i with
    | .time n => clearLow n e.tq
    | .count n => min n 1
    | _ => 0
  | 2 => i.coarse e p
  | _ => i.full

/-- A field of a record as the operator sees it: at level 1 every field but the timestamp is zero (R53). -/
def Item.inRecord (i : Item) (e : ClassEntry) (p : List Byte) : Nat := if e.level = 1 then 0 else i.seen e p

/-- An operator-bound record or answer of a class passes the rate cap (R55): whether it does, and the state after
counting it. -/
def State.rateCap (s : State) (part cls : Nat) (e : ClassEntry) : Bool × State :=
  let n := nth (s.part part).rate cls 0
  if e.rate ≠ 31 && 2 ^ e.rate ≤ n then
    (false, s.modPart part (fun x => { x with drops := upd x.drops cls (fun d => min (d + 1) 0xFFFFFFFF) }))
  else (true, s.modPart part (fun x => { x with rate := upd x.rate cls (· + 1) }))

/-- A field of an operator-bound record, and its value in the floor where it is of the floor (R56, R57). -/
structure Field where
  item : Item
  floor : Option Nat := none
deriving DecidableEq, Repr

/-- The floor merge (R56): at level 3 the value is whole; below, of what is rounded down or withheld as zero the finer value is
the greater. A field not of the floor stays. -/
def Field.merged (f : Field) (e : ClassEntry) (p : List Byte) : Nat :=
  match f.floor with
  | some n => if e.level = 3 then f.item.full else max n (f.item.inRecord e p)
  | none => f.item.inRecord e p

/-- A record reaches the operator. -/
def State.handOver (s : State) (r : OperRecord) : State := { s with operLog := s.operLog ++ [r] }

/-- A floor record: it is neither counted nor capped (R55, R57). -/
def State.floorRecord (s : State) (part cls type time : Nat) (fields : List Nat) : State :=
  s.handOver ⟨cls, some part, type, time, fields, true⟩

/-- The time of a record under an entry, in a record with floor fields no coarser than the floor's 2^q ns (R53, R56, R57). -/
def recordTime (e : ClassEntry) (q : Option Nat) (t : Nat) : Nat :=
  let own := if e.level = 3 then t else clearLow t e.tq
  match q with
  | some q => max (clearLow t q) own
  | none => own

/-- An operator-bound record of a type and time is produced under a policy (R53 to R57): level, field functions, floor merge,
rate cap. Where `q` gives the floor's time quantum, the floor fields reach the operator in any case: merged, or in a floor record
where the level or the cap withholds the record. -/
def State.produceFor (s : State) (part cls : Nat) (p : List Byte) (type time : Nat) (q : Option Nat) (fields : List Field) : State :=
  let e := policyEntry p cls
  let alone (s : State) : State := match q with
    | some k => s.floorRecord part cls type (clearLow time k) (fields.filterMap (·.floor))
    | none => s
  if e.level = 0 then alone s
  else match s.rateCap part cls e with
    | (false, s) => alone s
    | (true, s) => s.handOver ⟨cls, some part, type, recordTime e q time, fields.map (·.merged e p), false⟩

/-- A record without floor fields, of the present moment. -/
def State.operate (s : State) (part cls : Nat) (p : List Byte) (type : Nat) (items : List Item) : State :=
  s.produceFor part cls p type s.now none (items.map (fun i => ⟨i, none⟩))

/-- A write discarded and counted in the AM log (R26, R27); the Starter hands the entry over as of class 19 (R49, R51). VF 511
belongs to no partition: its entries concern none. -/
def State.discard (s : State) (who : BitVec 9) : State :=
  let v := who.toNat
  let s := { s with amLog := s.amLog.put v ((s.amLog.find v).getD 0 + 1) }
  if v = 511 then s.handOver ⟨19, none, 0, s.now, [v], false⟩
  else
    let p := (s.vf v).part.toNat
    s.operate p 19 (s.part p).active 0 [.plain v]

/-- A count read by VF 511 passes the entry of its class; another VF's read is the tenant's view (R50, R53). -/
def State.shown (s : State) (who : BitVec 9) (part : Option Nat) (cls : Nat) (i : Item) : Nat :=
  match part with
  | none => i.full
  | some p => if who = 511 then i.seen (policyEntry (s.part p).active cls) (s.part p).active else i.full

/-- The fields of an operator-bound answer as the entry of their class lets them through; without one, as they are (R53). -/
def State.throughFilter (s : State) (part : Option Nat) (policy : List Byte) (cls : Nat) (l : List (Nat × Item)) : Option (List Byte) × State :=
  let full := l.flatMap (fun x => leBytes x.1 x.2.full)
  match part with
  | none => (some full, s)
  | some p =>
    let e := policyEntry policy cls
    if e.level = 0 then (some (l.flatMap (fun x => leBytes x.1 0)), s)
    else match s.rateCap p cls e with
      | (false, s) => (none, s)
      | (true, s) => (some (l.flatMap (fun x => leBytes x.1 (x.2.seen e policy))), s)

end Sys2Proof.Machine
end

