-- ==== Sys2Proof/Machine/Records.lean ====
section
/-! DEFINITION. Fault records, token entries and pacer records as bytes, and the record buffers they are
written to (R216 to R219, R225, R229). -/

namespace Sys2Proof.Machine

/-- A record buffer of a partition: the fault buffer or the trace buffer. -/
def Partition.buf (p : Partition) (trace : Bool) : RecBuf := if trace then p.trace else p.fault

def Partition.setBuf (p : Partition) (trace : Bool) (b : RecBuf) : Partition :=
  if trace then { p with trace := b } else { p with fault := b }

/-- One more record dropped; the count saturates (R216, R217). -/
def RecBuf.drop (b : RecBuf) : RecBuf :=
  { b with dropped := if b.dropped = BitVec.allOnes 24 then b.dropped else b.dropped + 1 }

/-- A record is written at NEXTOFF, or dropped and counted: where it does not fit, or its write fails
translation or permission. The answer is its VA (R217). -/
def State.writeRecord (s : State) (part : Nat) (trace : Bool) (bs : List Byte) : Option Nat × State :=
  let b := (s.part part).buf trace
  let off := b.nextOff.toNat
  let va := b.va.toNat * 64 + off
  let dropped := s.modPart part (fun p => p.setBuf trace b.drop)
  if b.size.toNat * 64 < off + bs.length then (none, dropped)
  else if !s.storeOk b.vf.toNat va bs.length then (none, dropped)
  else
    match s.starterWriteAll b.vf.toNat va bs with
    | none => (none, dropped)
    | some s => (some va, s.modPart part (fun p =>
        p.setBuf trace { (p.buf trace) with nextOff := BitVec.ofNat 64 (off + bs.length) }))

/-- A token entry (R219). -/
def TokEntry.bytes (t : TokEntry) : List Byte :=
  payloadBytes t.token.lanes ++ leBytes 2 (validMask t.token.lanes).toNat ++
  [BitVec.ofNat 8 (t.token.tag.toNat + (if t.token.pacer.isSome then 16 else 0)),
   BitVec.ofNat 8 (t.kind * 32 + t.idx % 32)] ++ leBytes 2 t.holder ++ List.replicate 58 0

/-- A fault record and its token entries, with NEXT zero (R218). `ids` are GEN, TASK_ID and INST. -/
def FaultEvent.bytes (f : FaultEvent) (ids : Nat × Nat × Nat) : List Byte :=
  let toks := f.tokens.take 64
  leBytes 4 f.seq ++ leBytes 2 f.src ++ leBytes 1 f.kind ++ leBytes 1 f.family ++ leBytes 1 f.code ++
  leBytes 1 (match f.slot with | some n => 128 + n | none => 0) ++ leBytes 2 ids.1 ++ leBytes 2 ids.2.1 ++
  leBytes 1 ids.2.2 ++ leBytes 1 toks.length ++ leBytes 16 f.word.toNat ++ leBytes 4 f.heads.toNat ++
  leBytes 4 f.ttidx ++ leBytes 8 f.addr ++ leBytes 8 f.time ++ leBytes 8 0 ++ toks.flatMap TokEntry.bytes

/-- The record class of a fault family (R220). -/
def faultClass (family : Nat) : Nat := if family = fMEMORY then 9 else if family = fOPERAND || family = fSTREAM then 10 else 12

/-- A token entry as the operator's fields (R54, R219). -/
def TokEntry.fields (t : TokEntry) : List Item :=
  [.payload (leNat (payloadBytes t.token.lanes)), .payload (validMask t.token.lanes).toNat,
   .plain (t.token.tag.toNat + (if t.token.pacer.isSome then 16 else 0)), .plain (t.kind * 32 + t.idx % 32),
   if t.far then .tile t.holder else .elem t.holder]

/-- A fault record as the operator's fields: the family is of the floor, and names its task as TASKID_KEEP allows (R54, R57,
R218). What has no kind that R54 coarsens passes whole (log 77). -/
def FaultEvent.fields (f : FaultEvent) (ids : Nat × Nat × Nat) : List Field :=
  let toks := f.tokens.take 64
  let id := if keepsTaskId f.policy then ids.2.1 else 0xFFFF
  [⟨.plain f.family, some f.family⟩, ⟨.taskId ids.2.1, some id⟩] ++
  (([.plain f.seq, if f.kind = 0 then .elem f.src else .plain f.src, .plain f.kind, .plain f.code,
    .plain (match f.slot with | some n => 128 + n | none => 0), .gen ids.1, .plain ids.2.2, .count toks.length,
    .payload f.word.toNat, .plain f.heads.toNat, .plain f.ttidx, .addr f.addr] ++ toks.flatMap TokEntry.fields : List Item).map
    (fun i => ⟨i, none⟩))

/-- The fault writer hands a record of a task to the operator (R51, R56, R57): under any policy the operator hears the family, in
a time of 2^20 ns. -/
def State.operateFault (s : State) (part : Nat) (f : FaultEvent) (ids : Nat × Nat × Nat) : State :=
  s.produceFor part (faultClass f.family) f.policy 0 f.time (some 20) (f.fields ids)

/-- GEN, TASK_ID and INST of an instance's records (R82, R218). -/
def State.instIds (s : State) (x : Inst) : Nat × Nat × Nat :=
  (x.gen, ((s.task? x.launch x.task).map (·.gw.taskId)).getD 0xFFFF, x.num)

/-- A pacer record (R229). -/
def pacerBytes (l : PacerLog) (sink : Nat) (ids : Nat × Nat × Nat) (endCode seq : Nat) : List Byte :=
  let hop (i : Nat) : List Byte := match l.hops[i]? with
    | some h => leBytes 2 h.eid ++ leBytes 3 h.arrive ++ leBytes 3 (h.depart.getD 0xFFFFFF)
    | none => leBytes 8 0
  leBytes 8 l.birth ++ leBytes 2 l.origin ++ leBytes 2 sink ++ leBytes 2 ids.2.1 ++ leBytes 2 ids.1 ++
  leBytes 1 ids.2.2 ++ leBytes 1 l.hops.length ++ leBytes 1 ((if l.ovf then 1 else 0) + endCode * 2) ++ leBytes 1 0 ++
  leBytes 4 seq ++ leBytes 8 0 ++ (List.range 16).flatMap hop

/-- A pacer record as the operator's fields (R54, R229). -/
def pacerFields (l : PacerLog) (sink : Nat) (ids : Nat × Nat × Nat) (endCode seq : Nat) : List Item :=
  [.time l.birth, .elem l.origin, .elem sink, .taskId ids.2.1, .gen ids.1, .plain ids.2.2, .count l.hops.length,
   .plain ((if l.ovf then 1 else 0) + endCode * 2), .plain seq] ++
  l.hops.flatMap (fun h => [.elem h.eid, .time h.arrive, .time (h.depart.getD 0xFFFFFF)])

/-- The record of a pacer log, numbered by the tile where it ends, goes to the trace buffer of the partition, and through the filter
to the operator (R51, R227, R229). END: 0 store, 1 TDONE, 2 dropped, 3 cut, 4 fault release. -/
def State.logRecord (s : State) (part : Nat) (policy : List Byte) (ids : Nat × Nat × Nat) (tile sink : Nat) (l : PacerLog)
    (endCode : Nat) : State :=
  let n := ((s.tile tile).pacerSeq.find part).getD 0
  let s := s.modTile tile (fun t => { t with pacerSeq := t.pacerSeq.put part ((n + 1) % 2 ^ 32) })
  (s.writeRecord part true (pacerBytes l sink ids endCode n)).2.operate part 8 policy 0 (pacerFields l sink ids endCode n)

/-- A pacer log of an instance ends in a tile, at the element `sink`. -/
def State.endLogIn (s : State) (x : Inst) (tile sink : Nat) (l : PacerLog) (endCode : Nat) : State :=
  s.logRecord x.part x.policy (s.instIds x) tile sink l endCode

/-- The log of a token of an instance ends in a tile, where it carries one. -/
def State.endLogOf (s : State) (x : Inst) (tile sink : Nat) (t : Token) (endCode : Nat) : State :=
  match t.pacer with
  | some l => s.endLogIn x tile sink l endCode
  | none => s

/-- A pacer log ends at an element of a bound instance. -/
def State.endLog (s : State) (eid : Nat) (l : PacerLog) (endCode : Nat) : State :=
  match s.instOf eid with
  | none => s
  | some x => s.endLogIn x (tileOf eid) eid l endCode

/-- The log of a far or local token ends as its sender's: in the name of the instance that sent it, or, where that is gone, of the
sender's partition with no task (log 145). -/
def State.endSentLog (s : State) (sender inst : Nat) (t : Token) (endCode : Nat) : State :=
  match t.pacer with
  | none => s
  | some l =>
    let tile := tileOf sender
    match s.insts.find inst, s.partOfCluster (clusterOf tile) with
    | some x, _ => s.endLogIn x tile sender l endCode
    | none, some p => s.logRecord p (s.part p).active ((s.tile tile).gen, 0xFFFF, 0xFF) tile sender l endCode
    | none, none => s

/-- The logs of tokens end. -/
def State.endLogs (s : State) (eid : Nat) (ts : List Token) (endCode : Nat) : State :=
  ts.foldl (fun s t => match t.pacer with
    | some l => s.endLog eid l endCode
    | none => s) s

end Sys2Proof.Machine
end

