-- ==== Sys2Proof/Machine/WriteBack.lean ====
section
/-! DEFINITION. The write-back of a firing (R146, R236 to R239, R242): what an instruction computes is an
`Out`; `State.complete` takes its effects, or its fault by R170 and R223. -/

namespace Sys2Proof.Machine

/-- A result token: lanes and how it is tagged. -/
structure Emit where
  lanes : Lanes
  tag : TagRule
deriving DecidableEq, Repr

/-- What an instruction gives to its write-back. -/
structure Out where
  /-- The result for DA; none emits nothing. -/
  res : Option Emit := none
  /-- The second result, where the instruction defines one; otherwise DB takes a copy of `res`. -/
  res2 : Option (Option Emit) := none
  /-- The result that PM tests, where it is not `res` (R239). -/
  first : Option (Option Lanes) := none
  /-- A token used by the firing is POISON (R238). -/
  poison : Bool := false
  /-- A fault: family, code, address. -/
  fault : Option (Nat × Nat × Nat) := none
  /-- Sticky flags to set. -/
  flags : Word := 0
  /-- Predicates written besides PD. -/
  preds : List (Nat × Pred) := []
  /-- Other effects on the element's own state, before the results are written. -/
  elem : Element → Element := id
  /-- A token enqueued behind the results: its output queue, lanes and tag (R307). -/
  spill : Option (Nat × Lanes × Tag) := none
  /-- How the log of a consumed pacer token ends where nothing is enqueued (R227). -/
  sink : Nat := 2
  /-- The result carries this log in place of the dequeued one (R340). -/
  log : Option PacerLog := none
  /-- What the tile's counters take: group, counter, number (R337). -/
  tile : List (Nat × Nat × Nat) := []

/-- The views of the sources that an instruction names. -/
def Firing.views (f : Firing) (w : Slot) : List View :=
  (if w.sa = .none then [] else [f.a]) ++ (if w.sb = .none then [] else [f.b]) ++
  (if w.sc = .none then [] else [f.c])

/-- Some source token of the firing is POISON. -/
def Firing.poisoned (f : Firing) (w : Slot) : Bool := (f.views w).any (fun v => v.tag == some tagPoison)

/-- The AND of the masks of the named sources at a lane (R237). -/
def Firing.valid (f : Firing) (w : Slot) (l : Nat) : Bool := (f.views w).all (fun v => validAt v.lanes l)

/-- The AND of the masks of the named sources at a pair (R190, R237). -/
def Firing.validPair (f : Firing) (w : Slot) (k : Nat) : Bool := f.valid w (2 * k) && f.valid w (2 * k + 1)

/-- The tag of the first dequeued input as it was at selection, for KT and PM 110 (R238, R239). -/
def Firing.ktTag (f : Firing) (w : Slot) : Tag :=
  let q := (List.range 4).find? (fun q => w.deq.getLsbD q)
  match f.deqd.find? (fun x => some x.1.val == q) with
  | some x => x.2.tag
  | none =>
    match (w.sa.headQueue, f.a.tag), (w.sb.headQueue, f.b.tag) with
    | (some qa, some t), (some qb, some u) =>
      if some qa.val == q then t else if some qb.val == q then u else 0
    | (some _, some t), _ => t
    | _, (some _, some u) => u
    | _, _ => 0

/-- A destination that keeps no tag: POISON must not reach it (R170). -/
def Dst.isReg : Dst → Bool
  | .v _ | .a _ | .x _ => true
  | _ => false

/-- The faults of R170: a POISON result for a register, or a predicate that tests a POISON result. -/
def poisonControl (w : Slot) (res res2 : Option (Lanes × Tag)) : Bool :=
  let bad (r : Option (Lanes × Tag)) : Bool := match r with
    | some x => x.2 == tagPoison
    | none => false
  (Dst.isReg w.da && bad res) || (Dst.isReg w.db && bad res2) ||
  ((w.pm == .lane0 || w.pm == .anyLane || w.pm == .allLanes) && (bad res || bad res2 && w.da == .none))

/-- The element after a result has gone to its destination. -/
def Element.deliver (e : Element) (d : Bool) (dst : Dst) (r : Option (Lanes × Tag)) (log : Option PacerLog) : Element :=
  match r with
  | none => e
  | some (l, t) =>
    match dst with
    | .o q => e.enqueue q.val ⟨l, t, log⟩
    | dst => writeReg e d dst l

/-- The element after a token besides the results has gone to its output queue (R307). -/
def Element.spilled (e : Element) (x : Option (Nat × Lanes × Tag)) (log : Option PacerLog) : Element :=
  match x with
  | none => e
  | some (q, l, t) => e.enqueue q ⟨l, t, log⟩

/-- The tokens that a faulting firing dequeued, as entries of its record: kind 5, or kind 6 where an AG
withholds them (R219, R223). -/
def Firing.entries (f : Firing) (eid kind : Nat) : List TokEntry :=
  f.deqd.map (fun x => ⟨x.2, kind, x.1.val, eid, false⟩) ++
  (match f.moved with
    | some t => [⟨t.token, 6, 0, eid, false⟩]
    | none => [])

/-- Give back an answer-buffer entry that a firing took. -/
def Element.freeEntry (e : Element) (n : Option Nat) : Element :=
  match n with
  | some n => { e with ans := e.ans.filter (fun a => a.id ≠ n) }
  | none => e

/-- Whether a fault of an AG withholds its tokens: a translation, permission or alignment fault (R167, R168). -/
def withheld (family code : Nat) : Bool := family = fMEMORY && code < cPOISONCTL

/-- The fault of a firing at its write-back (R223): no register, token or predicate is written. A memory fault of
an AG withholds the tokens (R167). The logs of the dequeued tokens end: the firing enqueues nothing (R227). -/
def State.faultFiring (s : State) (fo : Focus) (fault : Nat × Nat × Nat) : State :=
  let kind := if elemType fo.eid == .ag && withheld fault.1 fault.2.1 then 6 else 5
  let s := (s.modElem fo.eid (·.freeEntry fo.firing.entry)).endLogs fo.eid (fo.firing.deqd.map (·.2)) 2
  s.takeFault fo.eid fault.1 fault.2.1 fault.2.2 (some fo.firing.slot) fo.firing.word (fo.firing.entries fo.eid kind)

/-- The pacer logs of a firing: the first dequeued one goes on with the first token enqueued; every other ends
(R227). -/
def Firing.logs (f : Firing) : List PacerLog := f.deqd.filterMap (fun x => x.2.pacer)

/-- The write-back of a firing whose instruction gives `o` (R146, R242): faults first, then registers, tokens
(DA's before DB's, then a spilled one), flags and predicates together. -/
def State.complete (s : State) (fo : Focus) (w : Slot) (o : Out) : State :=
  let s := { s with focus := none }
  let tagIt (e : Option Emit) : Option (Lanes × Tag) :=
    e.map (fun x => (x.lanes, resultTag w o.poison (fo.firing.ktTag w) x.tag))
  let res := tagIt o.res
  let res2 := match o.res2 with
    | some r => tagIt r
    | none => res
  match fo.firing.fault with
  | some x => s.faultFiring fo x
  | none =>
  match o.fault with
  | some x => s.faultFiring fo x
  | none =>
    if poisonControl w res res2 then s.faultFiring fo (fMEMORY, cPOISONCTL, 0)
    else
      let logs := fo.firing.logs
      let outA := w.da.isOut && res.isSome
      let outB := w.db.isOut && res2.isSome
      let cont := match o.log with
        | some l => some l
        | none => logs.head?
      let e := o.elem (s.elem fo.eid)
      let e := e.deliver w.d w.da res (if outA then cont else none)
      let e := e.deliver w.d w.db res2 (if outB && !outA then cont else none)
      let e := e.spilled o.spill (if outA || outB then none else cont)
      let first := match o.first with
        | some r => r
        | none => res.map (·.1)
      let deqTag := fo.firing.deqd.head?.map (·.2.tag)
      let pd := predValue w.pm w.d first deqTag fo.firing.oldPd
      let e := if w.pm = .keep then e else { e with p := upd e.p w.pd.val (fun _ => pd) }
      let e := { e with p := o.preds.foldl (fun (p : List Pred) (x : Nat × Pred) => upd p x.1 (fun _ => x.2)) e.p }
      let e := e.setFlags o.flags
      let s := s.setElem fo.eid e
      let s := o.tile.foldl (fun (s : State) x => s.countTile (tileOf fo.eid) x.1 x.2.1 x.2.2) s
      let ended : List (PacerLog × Nat) := match o.log with
        | some _ => (fo.firing.kept.toList ++ logs).map (fun l => (l, 2))
        | none => if outA || outB || o.spill.isSome then (logs.drop 1).map (fun l => (l, 2))
                  else (logs.take 1).map (fun l => (l, o.sink)) ++ (logs.drop 1).map (fun l => (l, 2))
      ended.foldl (fun (s : State) (x : PacerLog × Nat) => s.endLog fo.eid x.1 x.2) s

/-- A write-back that waits: the firing stands again among those in flight, and is due in the next step. -/
def State.postpone (s : State) (fo : Focus) : State :=
  { s with focus := none }.modElem fo.eid (fun e =>
    let older (f : Firing) : Bool := f.seq < fo.firing.seq
    { e with inflight := e.inflight.takeWhile older ++ [{ fo.firing with remaining := 1 }] ++ e.inflight.dropWhile older })

/-- A meaning that only computes on its firing and element: at the write-back of its firing it gives an `Out`; with
no firing in focus nothing happens. -/
def writeBack (w : Slot) (f : Firing → Element → Out) (s : State) : Res :=
  match s.focus with
  | none => .next s
  | some fo => .next (s.complete fo w (f fo.firing (s.elem fo.eid)))

/-- A result built from the sources (R237, R238). -/
def built (lanes : Lanes) : Option Emit := some ⟨lanes, .built⟩

/-- A lane-wise result of the firing's operands: an invalid lane is not computed (R237, R257). -/
def laneWise (w : Slot) (f : Firing) (op : Word → Word → Word → Word) : Lanes :=
  lanesOf (fun l => if f.valid w l then some (op (wordAt f.a.lanes l) (wordAt f.b.lanes l) (wordAt f.c.lanes l)) else none)

/-- The flags that a lane-wise operation gives over the valid lanes (R257, R280). -/
def laneFlags (w : Slot) (f : Firing) (fl : Word → Word → Word → Word) : Word :=
  flagsOr ((List.range 16).map (fun l =>
    if f.valid w l then fl (wordAt f.a.lanes l) (wordAt f.b.lanes l) (wordAt f.c.lanes l) else 0))

/-- The double word of a pair, zero where a lane is invalid. -/
def dwordAt (v : Lanes) (k : Nat) : DWord := wordAt v (2 * k + 1) ++ wordAt v (2 * k)

/-- A pair-wise result (R190, R262). -/
def pairWise (w : Slot) (f : Firing) (op : DWord → DWord → DWord → DWord) : Lanes :=
  lanesOfPairs (fun k => if f.validPair w k then some (op (dwordAt f.a.lanes k) (dwordAt f.b.lanes k) (dwordAt f.c.lanes k)) else none)

def pairFlags (w : Slot) (f : Firing) (fl : DWord → DWord → DWord → Word) : Word :=
  flagsOr ((List.range 8).map (fun k =>
    if f.validPair w k then fl (dwordAt f.a.lanes k) (dwordAt f.b.lanes k) (dwordAt f.c.lanes k) else 0))

/-- The Out of a lane-wise instruction. -/
def laneOut (w : Slot) (f : Firing) (op : Word → Word → Word → Word) (fl : Word → Word → Word → Word := fun _ _ _ => 0) : Out :=
  { res := built (laneWise w f op), poison := f.poisoned w, flags := laneFlags w f fl }

/-- The Out of a pair-wise instruction. -/
def pairOut (w : Slot) (f : Firing) (op : DWord → DWord → DWord → DWord)
    (fl : DWord → DWord → DWord → Word := fun _ _ _ => 0) : Out :=
  { res := built (pairWise w f op), poison := f.poisoned w, flags := pairFlags w f fl }

end Sys2Proof.Machine
end

