-- ==== Sys2Proof/Machine/Integer.lean ====
section
/-! DEFINITION. The class 0 instructions (R257 to R264): integer lanes, pairs, and the scalar forms. -/

namespace Sys2Proof.Machine

/-! ## Lane operations -/

/-- The code OPERAND RANGE (R220). -/
def opRange : Nat × Nat × Nat := (fOPERAND, 2, 0)

/-- An integer clamped to the signed 32-bit range (R258). -/
def clampS (i : Int) : Word :=
  if i < -(2 ^ 31) then 0x80000000 else if 2 ^ 31 - 1 < i then 0x7FFFFFFF else BitVec.ofInt 32 i

/-- Whether a signed clamp changes a value. -/
def clampsS (i : Int) : Bool := i < -(2 ^ 31) || 2 ^ 31 - 1 < i

/-- An integer clamped to the unsigned 32-bit range (R258). -/
def clampU (i : Int) : Word :=
  if i < 0 then 0 else if 2 ^ 32 - 1 < i then 0xFFFFFFFF else BitVec.ofInt 32 i

def clampsU (i : Int) : Bool := i < 0 || 2 ^ 32 - 1 < i

/-- OF where a signed or unsigned clamp changes the value (R258). -/
def ofS (i : Int) : Word := flagIf (clampsS i) flagOF
def ofU (i : Int) : Word := flagIf (clampsU i) flagOF

/-- An unsigned lane as an integer. -/
def uInt (a : Word) : Int := Int.ofNat a.toNat

/-- The shift count of a lane (R258). -/
def count5 (b : Word) : Nat := b.toNat % 32

/-- Number of leading zero bits of the n low bits of a (R258). -/
def clzFrom : Nat → Word → Nat
  | 0, _ => 0
  | n + 1, a => if a.getLsbD n then 0 else clzFrom n a + 1

/-- Number of one bits among the n low bits (R258). -/
def popFrom : Nat → Word → Nat
  | 0, _ => 0
  | n + 1, a => popFrom n a + (if a.getLsbD n then 1 else 0)

/-- A lane mask of a comparison (R261). -/
def maskOf (c : Bool) : Word := if c then 0xFFFFFFFF else 0

/-- The quotient and remainder lanes of R259. -/
def divS (a b : Word) : Word := if b = 0 then 0xFFFFFFFF else BitVec.ofInt 32 (Int.tdiv a.toInt b.toInt)
def divU (a b : Word) : Word := if b = 0 then 0xFFFFFFFF else a / b
def remS (a b : Word) : Word := if b = 0 then a else BitVec.ofInt 32 (Int.tmod a.toInt b.toInt)
def remU (a b : Word) : Word := if b = 0 then 0xFFFFFFFF else a % b

/-- IDZ for a divisor of zero; OF for −2^31 by −1, in DIV alone (R259). -/
def divZero (b : Word) : Word := flagIf (b == 0) flagIDZ
def divOver (a b : Word) : Word := flagIf (a == 0x80000000 && b == 0xFFFFFFFF) flagOF

/-- POS and WIDTH of BFX and BFI, and the mask M (R260). -/
def fieldPos (imm : Word) : Nat := imm.toNat % 32
def fieldWidth (imm : Word) : Nat := imm.toNat / 32 % 64
def fieldMask (imm : Word) : Word := BitVec.ofNat 32 ((2 ^ fieldWidth imm - 1) * 2 ^ fieldPos imm)

/-- BFX: the field, zero-extended or sign-extended from bit WIDTH − 1 (R260). -/
def bfxLane (w : Slot) (a : Word) : Word :=
  let v := (a &&& fieldMask w.imm) >>> fieldPos w.imm
  let n := fieldWidth w.imm
  if w.rnd = 1 && v.getLsbD (n - 1) then v ||| BitVec.ofNat 32 (2 ^ 32 - 2 ^ n) else v

/-- BFI (R260). -/
def bfiLane (w : Slot) (a b : Word) : Word :=
  let m := fieldMask w.imm
  (a &&& ~~~m) ||| ((b <<< fieldPos w.imm) &&& m)

/-! ## Meanings -/

def execMov (w : Slot) (s : State) : Res := writeBack w (fun f _ => laneOut w f (fun a _ _ => a)) s

/-- NOP: no result; it may dequeue and resolve a predicate (R264). -/
def execNop (w : Slot) (s : State) : Res := writeBack w (fun _ _ => { }) s

def execAdd (w : Slot) (s : State) : Res := writeBack w (fun f _ => laneOut w f (fun a b _ => a + b)) s

def execSub (w : Slot) (s : State) : Res := writeBack w (fun f _ => laneOut w f (fun a b _ => a - b)) s

def execAdds (w : Slot) (s : State) : Res :=
  writeBack w (fun f _ => laneOut w f (fun a b _ => clampS (a.toInt + b.toInt)) (fun a b _ => ofS (a.toInt + b.toInt))) s

def execSubs (w : Slot) (s : State) : Res :=
  writeBack w (fun f _ => laneOut w f (fun a b _ => clampS (a.toInt - b.toInt)) (fun a b _ => ofS (a.toInt - b.toInt))) s

def execAddus (w : Slot) (s : State) : Res :=
  writeBack w (fun f _ => laneOut w f (fun a b _ => clampU (uInt a + uInt b)) (fun a b _ => ofU (uInt a + uInt b))) s

def execSubus (w : Slot) (s : State) : Res :=
  writeBack w (fun f _ => laneOut w f (fun a b _ => clampU (uInt a - uInt b)) (fun a b _ => ofU (uInt a - uInt b))) s

/-- MUL: the low 32 bits, or under SAT the clamp of the exact product (R258). -/
def execMul (w : Slot) (s : State) : Res :=
  writeBack w (fun f _ =>
    if w.sat then laneOut w f (fun a b _ => clampS (a.toInt * b.toInt)) (fun a b _ => ofS (a.toInt * b.toInt))
    else laneOut w f (fun a b _ => a * b)) s

def execMulh (w : Slot) (s : State) : Res :=
  writeBack w (fun f _ => laneOut w f (fun a b _ => (BitVec.ofInt 64 (a.toInt * b.toInt)).extractLsb' 32 32)) s

def execMulhu (w : Slot) (s : State) : Res :=
  writeBack w (fun f _ => laneOut w f (fun a b _ => (BitVec.ofNat 64 (a.toNat * b.toNat)).extractLsb' 32 32)) s

/-- MAD (R258). -/
def execMad (w : Slot) (s : State) : Res :=
  writeBack w (fun f _ =>
    if w.sat then laneOut w f (fun a b c => clampS (a.toInt * b.toInt + c.toInt))
      (fun a b c => ofS (a.toInt * b.toInt + c.toInt))
    else laneOut w f (fun a b c => a * b + c)) s

def execDiv (w : Slot) (s : State) : Res :=
  writeBack w (fun f _ => laneOut w f (fun a b _ => divS a b) (fun a b _ => divZero b ||| divOver a b)) s

def execDivu (w : Slot) (s : State) : Res :=
  writeBack w (fun f _ => laneOut w f (fun a b _ => divU a b) (fun _ b _ => divZero b)) s

def execRem (w : Slot) (s : State) : Res :=
  writeBack w (fun f _ => laneOut w f (fun a b _ => remS a b) (fun _ b _ => divZero b)) s

def execRemu (w : Slot) (s : State) : Res :=
  writeBack w (fun f _ => laneOut w f (fun a b _ => remU a b) (fun _ b _ => divZero b)) s

/-- NEG, under SAT with −2^31 clamped (R258). -/
def execNeg (w : Slot) (s : State) : Res :=
  writeBack w (fun f _ =>
    if w.sat then laneOut w f (fun a _ _ => clampS (-a.toInt)) (fun a _ _ => ofS (-a.toInt))
    else laneOut w f (fun a _ _ => -a)) s

/-- ABS, under SAT with −2^31 clamped (R258). -/
def execAbs (w : Slot) (s : State) : Res :=
  writeBack w (fun f _ =>
    if w.sat then laneOut w f (fun a _ _ => clampS (Int.ofNat a.toInt.natAbs)) (fun a _ _ => ofS (Int.ofNat a.toInt.natAbs))
    else laneOut w f (fun a _ _ => if a.msb then -a else a)) s

def execMin (w : Slot) (s : State) : Res :=
  writeBack w (fun f _ => laneOut w f (fun a b _ => if a.toInt < b.toInt then a else b)) s

def execMax (w : Slot) (s : State) : Res :=
  writeBack w (fun f _ => laneOut w f (fun a b _ => if a.toInt < b.toInt then b else a)) s

def execMinu (w : Slot) (s : State) : Res :=
  writeBack w (fun f _ => laneOut w f (fun a b _ => if a < b then a else b)) s

def execMaxu (w : Slot) (s : State) : Res :=
  writeBack w (fun f _ => laneOut w f (fun a b _ => if a < b then b else a)) s

def execAnd (w : Slot) (s : State) : Res := writeBack w (fun f _ => laneOut w f (fun a b _ => a &&& b)) s

def execOr (w : Slot) (s : State) : Res := writeBack w (fun f _ => laneOut w f (fun a b _ => a ||| b)) s

def execXor (w : Slot) (s : State) : Res := writeBack w (fun f _ => laneOut w f (fun a b _ => a ^^^ b)) s

def execAndn (w : Slot) (s : State) : Res := writeBack w (fun f _ => laneOut w f (fun a b _ => a &&& ~~~b)) s

def execNot (w : Slot) (s : State) : Res := writeBack w (fun f _ => laneOut w f (fun a _ _ => ~~~a)) s

def execShl (w : Slot) (s : State) : Res := writeBack w (fun f _ => laneOut w f (fun a b _ => a <<< count5 b)) s

def execShr (w : Slot) (s : State) : Res := writeBack w (fun f _ => laneOut w f (fun a b _ => a >>> count5 b)) s

def execSar (w : Slot) (s : State) : Res := writeBack w (fun f _ => laneOut w f (fun a b _ => a.sshiftRight (count5 b))) s

def execRol (w : Slot) (s : State) : Res := writeBack w (fun f _ => laneOut w f (fun a b _ => a.rotateLeft (count5 b))) s

def execClz (w : Slot) (s : State) : Res :=
  writeBack w (fun f _ => laneOut w f (fun a _ _ => BitVec.ofNat 32 (clzFrom 32 a))) s

def execPopc (w : Slot) (s : State) : Res :=
  writeBack w (fun f _ => laneOut w f (fun a _ _ => BitVec.ofNat 32 (popFrom 32 a))) s

def execBrev (w : Slot) (s : State) : Res := writeBack w (fun f _ => laneOut w f (fun a _ _ => a.reverse)) s

def execBfx (w : Slot) (s : State) : Res := writeBack w (fun f _ => laneOut w f (fun a _ _ => bfxLane w a)) s

def execBfi (w : Slot) (s : State) : Res := writeBack w (fun f _ => laneOut w f (fun a b _ => bfiLane w a b)) s

/-- SEL: a lane is valid where c's lane and the chosen source's lane are (R261). -/
def execSel (w : Slot) (s : State) : Res :=
  writeBack w (fun f _ =>
    { res := built (lanesOf (fun l =>
        match laneAt f.c.lanes l with
        | none => none
        | some c => if c = 0 then laneAt f.b.lanes l else laneAt f.a.lanes l)),
      poison := f.poisoned w }) s

def execCmpeq (w : Slot) (s : State) : Res := writeBack w (fun f _ => laneOut w f (fun a b _ => maskOf (a == b))) s

def execCmpne (w : Slot) (s : State) : Res := writeBack w (fun f _ => laneOut w f (fun a b _ => maskOf (a != b))) s

def execCmplt (w : Slot) (s : State) : Res :=
  writeBack w (fun f _ => laneOut w f (fun a b _ => maskOf (a.toInt < b.toInt))) s

def execCmple (w : Slot) (s : State) : Res :=
  writeBack w (fun f _ => laneOut w f (fun a b _ => maskOf (a.toInt ≤ b.toInt))) s

def execCmpltu (w : Slot) (s : State) : Res := writeBack w (fun f _ => laneOut w f (fun a b _ => maskOf (a < b))) s

def execCmpleu (w : Slot) (s : State) : Res := writeBack w (fun f _ => laneOut w f (fun a b _ => maskOf (a ≤ b))) s

def execAdd64 (w : Slot) (s : State) : Res := writeBack w (fun f _ => pairOut w f (fun a b _ => a + b)) s

def execSub64 (w : Slot) (s : State) : Res := writeBack w (fun f _ => pairOut w f (fun a b _ => a - b)) s

def execMul64 (w : Slot) (s : State) : Res := writeBack w (fun f _ => pairOut w f (fun a b _ => a * b)) s

def execCmplt64 (w : Slot) (s : State) : Res :=
  writeBack w (fun f _ => pairOut w f (fun a b _ => if a.toInt < b.toInt then BitVec.allOnes 64 else 0)) s

/-- AMOV: lane n in every lane, valid where lane n is (R263). -/
def execAmov (w : Slot) (s : State) : Res :=
  writeBack w (fun f _ =>
    { res := built (lanesOf (fun _ => laneAt f.a.lanes (w.imm.toNat % 16))), poison := f.poisoned w }) s

/-- AADD: the sum of lanes 0, under X brought below C by one subtraction (R263). -/
def execAadd (w : Slot) (s : State) : Res :=
  writeBack w (fun f _ =>
    let sum := wordAt f.a.lanes 0 + wordAt f.b.lanes 0
    let c := wordAt f.c.lanes 0
    if !f.valid w 0 then { res := built Lanes.empty, poison := f.poisoned w }
    else if w.x && c == 0 then { fault := some opRange }
    else { res := built (Lanes.all (if w.x && c ≤ sum then sum - c else sum)), poison := f.poisoned w }) s

end Sys2Proof.Machine
end

