-- ==== Sys2Proof/Machine/Float.lean ====
section
/-! DEFINITION. IEEE 754 arithmetic on exact dyadic values (R191, R280, R281): formats, one rounding, and the
operations that the instructions of classes 1 and 2 share. -/

namespace Sys2Proof.Machine

/-! ## Formats -/

/-- A binary format: exponent bits, mantissa bits, bias (R193). -/
structure Fmt where
  eb : Nat
  mb : Nat
  bias : Nat
deriving DecidableEq, Repr

def fmtS : Fmt := ⟨8, 23, 127⟩
def fmtD : Fmt := ⟨11, 52, 1023⟩
def fmtBF16 : Fmt := ⟨8, 7, 127⟩
def fmtFP16 : Fmt := ⟨5, 10, 15⟩
def fmtE4M3 : Fmt := ⟨4, 3, 7⟩
def fmtE5M2 : Fmt := ⟨5, 2, 15⟩

/-- binary32, or binary64 under D. -/
def fmtOf (d : Bool) : Fmt := if d then fmtD else fmtS

/-- The value of a bit pattern: (−1)^neg × m × 2^e where it is a number. -/
inductive FVal where
  | nan (signalling : Bool)
  | inf (neg : Bool)
  | num (neg : Bool) (m : Nat) (e : Int)
deriving DecidableEq, Repr

/-- The exponent of the smallest subnormal of a format. -/
def Fmt.emin (f : Fmt) : Int := 1 - Int.ofNat f.bias - Int.ofNat f.mb

/-- The value that a bit pattern of a format with infinities and NaNs holds (R191, R280). -/
def Fmt.unpack (f : Fmt) (b : Nat) : FVal :=
  let man := b % 2 ^ f.mb
  let ex := b / 2 ^ f.mb % 2 ^ f.eb
  let neg := b / 2 ^ (f.mb + f.eb) % 2 = 1
  if ex = 2 ^ f.eb - 1 then
    if man = 0 then .inf neg else .nan (man < 2 ^ (f.mb - 1))
  else if ex = 0 then .num neg man f.emin
  else .num neg (man + 2 ^ f.mb) (f.emin + Int.ofNat ex - 1)

/-- The default NaN (R191). -/
def Fmt.nan (f : Fmt) : Nat := (2 ^ f.eb - 1) * 2 ^ f.mb + 2 ^ (f.mb - 1)

def Fmt.signBit (f : Fmt) (neg : Bool) : Nat := if neg then 2 ^ (f.mb + f.eb) else 0

def Fmt.inf (f : Fmt) (neg : Bool) : Nat := f.signBit neg + (2 ^ f.eb - 1) * 2 ^ f.mb

/-- The largest finite magnitude of a format with infinities, with a sign. -/
def Fmt.maxFinite (f : Fmt) (neg : Bool) : Nat := f.inf neg - 1

def FVal.isNan : FVal → Bool
  | .nan _ => true
  | _ => false

def FVal.isSig : FVal → Bool
  | .nan s => s
  | _ => false

def FVal.neg? : FVal → Bool
  | .nan _ => false
  | .inf n => n
  | .num n _ _ => n

/-! ## Rounding -/

/-- The rounding modes of R240. -/
inductive Rnd where
  | rne | rtz | rup | rdn | rna
deriving DecidableEq, Repr

def rndOf (b : BitVec 3) : Rnd :=
  match b.toNat with
  | 1 => .rtz
  | 2 => .rup
  | 3 => .rdn
  | 4 => .rna
  | _ => .rne

/-- A magnitude cut at 2^q: the whole units, and the rest as 0 (none), 1 (below half), 2 (half), 3 (above). The
magnitude is m × 2^e, or between that and (m + 1) × 2^e where `sticky` is set. -/
def cutAt (q : Int) (m : Nat) (e : Int) (sticky : Bool) : Nat × Nat :=
  if q ≤ e then (m * 2 ^ (e - q).toNat, if sticky then 1 else 0)
  else
    let k := (q - e).toNat
    let r := m % 2 ^ k
    let half := 2 ^ (k - 1)
    (m / 2 ^ k,
      if r = 0 && !sticky then 0 else if r < half then 1 else if r = half && !sticky then 2 else 3)

/-- Whether a cut magnitude rounds away from zero (R280). -/
def roundsUp (mode : Rnd) (neg : Bool) (n rest : Nat) : Bool :=
  match mode with
  | .rne => rest = 3 || (rest = 2 && n % 2 = 1)
  | .rtz => false
  | .rup => rest ≠ 0 && !neg
  | .rdn => rest ≠ 0 && neg
  | .rna => 2 ≤ rest

/-- A magnitude rounded to units of 2^q, and whether that was inexact. -/
def roundAt (mode : Rnd) (neg : Bool) (q : Int) (m : Nat) (e : Int) (sticky : Bool) : Nat × Bool :=
  let c := cutAt q m e sticky
  (c.1 + (if roundsUp mode neg c.1 c.2 then 1 else 0), c.2 ≠ 0)

/-- The exponent of the leading bit of a magnitude. -/
def ilog (m : Nat) (e : Int) : Int := Int.ofNat (Nat.log2 m) + e

/-- A finite magnitude n × 2^q of a format as bits; n below 2^(mb + 1). -/
def Fmt.pack (f : Fmt) (neg : Bool) (n : Nat) (q : Int) : Nat :=
  f.signBit neg + (if n < 2 ^ f.mb then n else (q - f.emin).toNat * 2 ^ f.mb + n)

/-- One rounding of (−1)^neg × m × 2^e into a format with infinities, with NX, OF and UF (R280). -/
def Fmt.round (f : Fmt) (mode : Rnd) (neg : Bool) (m : Nat) (e : Int) (sticky : Bool) : Nat × Word :=
  if m = 0 && !sticky then (f.signBit neg, 0)
  else
    let lead := ilog m e
    let q0 := lead - Int.ofNat f.mb
    let q := max q0 f.emin
    let (n, inexact) := roundAt mode neg q m e sticky
    let (n, q) := if 2 ^ (f.mb + 1) ≤ n then (2 ^ f.mb, q + 1) else (n, q)
    let nx := flagIf inexact flagNX
    if 2 ^ f.mb ≤ n && Int.ofNat f.bias < q + Int.ofNat f.mb then
      let toInf := match mode with
        | .rne | .rna => true
        | .rtz => false
        | .rup => !neg
        | .rdn => neg
      (if toInf then f.inf neg else f.maxFinite neg, flagOF ||| flagNX)
    else
      -- tininess after rounding: rounded with an unbounded exponent
      let (t, _) := roundAt mode neg q0 m e sticky
      let tiny := if 2 ^ (f.mb + 1) ≤ t then lead + 1 < 1 - Int.ofNat f.bias else lead < 1 - Int.ofNat f.bias
      (f.pack neg n q, nx ||| flagIf (inexact && tiny) flagUF)

/-- A value rounded into a format; a number is exact before the rounding. -/
def Fmt.ofVal (f : Fmt) (mode : Rnd) : FVal → Nat × Word
  | .nan _ => (f.nan, 0)
  | .inf n => (f.inf n, 0)
  | .num n m e => f.round mode n m e false

/-! ## Exact operations -/

/-- A signed integer times 2^e as a value; a zero takes the given sign. -/
def signed (i : Int) (e : Int) (zeroNeg : Bool) : FVal :=
  if i = 0 then .num zeroNeg 0 0 else .num (i < 0) i.natAbs e

/-- The integer ±m × 2^(e − q). -/
def intAt (neg : Bool) (m : Nat) (e q : Int) : Int :=
  let v := Int.ofNat (m * 2 ^ (e - q).toNat)
  if neg then -v else v

/-- The exact sum of two numbers; a zero sum of opposite signs is −0 under RDN alone (R280). -/
def addNum (mode : Rnd) (n1 : Bool) (m1 : Nat) (e1 : Int) (n2 : Bool) (m2 : Nat) (e2 : Int) : FVal :=
  let e := min e1 e2
  signed (intAt n1 m1 e1 e + intAt n2 m2 e2 e) e (if n1 == n2 then n1 else mode == .rdn)

/-- An operation's outcome before rounding: a value and the flags it has already set. -/
abbrev Exact := FVal × Word

def invalid : Exact := (.nan false, flagNV)

/-- a + b, exactly (R281). -/
def addVal (mode : Rnd) : FVal → FVal → Exact
  | .nan s, b => (.nan false, flagIf (s || b.isSig) flagNV)
  | a, .nan s => (.nan false, flagIf (a.isSig || s) flagNV)
  | .inf x, .inf y => if x == y then (.inf x, 0) else invalid
  | .inf x, _ => (.inf x, 0)
  | _, .inf y => (.inf y, 0)
  | .num n1 m1 e1, .num n2 m2 e2 => (addNum mode n1 m1 e1 n2 m2 e2, 0)

/-- a × b, exactly (R281). -/
def mulVal : FVal → FVal → Exact
  | .nan s, b => (.nan false, flagIf (s || b.isSig) flagNV)
  | a, .nan s => (.nan false, flagIf (a.isSig || s) flagNV)
  | .inf x, .inf y => (.inf (x != y), 0)
  | .inf x, .num n m _ => if m = 0 then invalid else (.inf (x != n), 0)
  | .num n m _, .inf y => if m = 0 then invalid else (.inf (n != y), 0)
  | .num n1 m1 e1, .num n2 m2 e2 => (.num (n1 != n2) (m1 * m2) (e1 + e2), 0)

def FVal.negate : FVal → FVal
  | .nan s => .nan s
  | .inf n => .inf !n
  | .num n m e => .num (!n) m e

/-- a × b + c, exactly: 0 × ∞ is invalid whatever c is (R281). -/
def fmaVal (mode : Rnd) (a b c : FVal) : Exact :=
  let p := mulVal a b
  if p.2 = flagNV then (.nan false, flagNV)
  else
    let r := addVal mode p.1 c
    (r.1, p.2 ||| r.2)

/-- The digit loop of the integer square root: bits n − 1 down to 0 of the root are still to be found. -/
def isqrtLoop (v : Nat) : Nat → Nat → Nat
  | 0, r => r
  | n + 1, r => if (r + 2 ^ n) * (r + 2 ^ n) ≤ v then isqrtLoop v n (r + 2 ^ n) else isqrtLoop v n r

/-- The integer square root. -/
def isqrt (v : Nat) : Nat := isqrtLoop v (Nat.log2 v / 2 + 1) 0

/-- One rounding of n ÷ d × 2^e. -/
def Fmt.roundQuot (f : Fmt) (mode : Rnd) (neg : Bool) (n d : Nat) (e : Int) : Nat × Word :=
  let k := 2 * f.mb + 16 + Nat.log2 d
  let v := n * 2 ^ k
  f.round mode neg (v / d) (e - Int.ofNat k) (v % d ≠ 0)

/-- a ÷ b (R281). -/
def Fmt.div (f : Fmt) (mode : Rnd) (a b : FVal) : Nat × Word :=
  match a, b with
  | .nan s, b => (f.nan, flagIf (s || b.isSig) flagNV)
  | _, .nan s => (f.nan, flagIf s flagNV)
  | .inf _, .inf _ => (f.nan, flagNV)
  | .inf x, .num n _ _ => (f.inf (x != n), 0)
  | .num n _ _, .inf y => (f.signBit (n != y), 0)
  | .num n1 m1 e1, .num n2 m2 e2 =>
    if m2 = 0 then if m1 = 0 then (f.nan, flagNV) else (f.inf (n1 != n2), flagDZ)
    else if m1 = 0 then (f.signBit (n1 != n2), 0)
    else f.roundQuot mode (n1 != n2) m1 m2 (e1 - e2)

/-- √a (R281). -/
def Fmt.sqrt (f : Fmt) (mode : Rnd) (a : FVal) : Nat × Word :=
  match a with
  | .nan s => (f.nan, flagIf s flagNV)
  | .inf n => if n then (f.nan, flagNV) else (f.inf false, 0)
  | .num n m e =>
    if m = 0 then (f.signBit n, 0)
    else if n then (f.nan, flagNV)
    else
      let (m, e) := if e % 2 = 0 then (m, e) else (2 * m, e - 1)
      let k := f.mb + 8
      let v := m * 2 ^ (2 * k)
      let r := isqrt v
      f.round mode false r (e / 2 - Int.ofNat k) (r * r ≠ v)

/-- 1 ÷ a (R281). -/
def Fmt.rcp (f : Fmt) (mode : Rnd) (a : FVal) : Nat × Word :=
  match a with
  | .nan s => (f.nan, flagIf s flagNV)
  | .inf n => (f.signBit n, 0)
  | .num n m e => if m = 0 then (f.inf n, flagDZ) else f.roundQuot mode n 1 m (-e)

/-- 1 ÷ √a (R281). -/
def Fmt.rsq (f : Fmt) (mode : Rnd) (a : FVal) : Nat × Word :=
  match a with
  | .nan s => (f.nan, flagIf s flagNV)
  | .inf n => if n then (f.nan, flagNV) else (0, 0)
  | .num n m e =>
    if m = 0 then (f.inf n, flagDZ)
    else if n then (f.nan, flagNV)
    else
      let (m, e) := if e % 2 = 0 then (m, e) else (2 * m, e - 1)
      let k := f.mb + 8 + Nat.log2 m
      let v := 2 ^ (2 * k) / m
      let r := isqrt v
      f.round mode false r (-(e / 2) - Int.ofNat k) (r * r * m ≠ 2 ^ (2 * k))

/-- a rounded to an integer, kept as a float (R281). -/
def Fmt.rint (f : Fmt) (mode : Rnd) (b : Nat) : Nat × Word :=
  match f.unpack b with
  | .nan s => (f.nan, flagIf s flagNV)
  | .inf _ => (b, 0)
  | .num n m e =>
    let (i, inexact) := roundAt mode n 0 m e false
    ((f.round mode n i 0 false).1, flagIf inexact flagNX)

/-- a × 2^b; a scale beyond every exponent counts as the nearest one that is (R281). -/
def Fmt.scale (f : Fmt) (mode : Rnd) (b : Nat) (k : Int) : Nat × Word :=
  match f.unpack b with
  | .nan s => (f.nan, flagIf s flagNV)
  | .inf _ => (b, 0)
  | .num n m e => if m = 0 then (b, 0) else f.round mode n m (e + max (-8192) (min 8192 k)) false

/-- The order of two numbers or infinities; the zeros are equal. -/
def cmpVal : FVal → FVal → Ordering
  | .inf x, .inf y => if x == y then .eq else if x then .lt else .gt
  | .inf x, _ => if x then .lt else .gt
  | _, .inf y => if y then .gt else .lt
  | .num n1 m1 e1, .num n2 m2 e2 =>
    let e := min e1 e2
    compare (intAt n1 m1 e1 e) (intAt n2 m2 e2 e)
  | _, _ => .eq

/-- FMIN, or FMAX where `max` is set, of two bit patterns (R282). -/
def Fmt.minMax (f : Fmt) (max : Bool) (x y : Nat) : Nat × Word :=
  let a := f.unpack x
  let b := f.unpack y
  let fl := flagIf (a.isSig || b.isSig) flagNV
  if a.isNan && b.isNan then (f.nan, fl)
  else if a.isNan then (y, fl)
  else if b.isNan then (x, fl)
  else
    match cmpVal a b with
    | .lt => (if max then y else x, fl)
    | .gt => (if max then x else y, fl)
    | .eq => (if a.neg? == max then y else x, fl)

/-- The comparisons of R282: equal, less, less or equal. -/
inductive FCmp where
  | eq | lt | le
deriving DecidableEq, Repr

def Fmt.compare (f : Fmt) (c : FCmp) (x y : Nat) : Bool × Word :=
  let a := f.unpack x
  let b := f.unpack y
  if a.isNan || b.isNan then (false, flagIf (a.isSig || b.isSig || c != .eq) flagNV)
  else
    (match c, cmpVal a b with
      | .eq, .eq | .lt, .lt | .le, .lt | .le, .eq => true
      | _, _ => false, 0)

/-- FCLASS (R283). -/
def Fmt.class (f : Fmt) (b : Nat) : Nat :=
  match f.unpack b with
  | .nan s => if s then 2 ^ 8 else 2 ^ 9
  | .inf n => if n then 1 else 2 ^ 7
  | .num n m _ =>
    let normal : Bool := 2 ^ f.mb ≤ m
    if m = 0 then if n then 2 ^ 3 else 2 ^ 4
    else if normal then if n then 2 ^ 1 else 2 ^ 6
    else if n then 2 ^ 2 else 2 ^ 5

/-- ⌊log2 |a|⌋ for a result of w bits (R282). -/
def Fmt.expn (f : Fmt) (w : Nat) (b : Nat) : Int × Word :=
  match f.unpack b with
  | .nan _ => (-(2 ^ (w - 1)), flagNV)
  | .inf _ => (2 ^ (w - 1) - 1, 0)
  | .num _ m e => if m = 0 then (-(2 ^ (w - 1)), 0) else (ilog m e, 0)

/-- Float to an integer between bounds (R285). -/
def Fmt.toInt (f : Fmt) (mode : Rnd) (lo hi : Int) (b : Nat) : Int × Word :=
  match f.unpack b with
  | .nan _ => (0, flagNV)
  | .inf n => (if n then lo else hi, flagNV)
  | .num n m e =>
    let r := if Int.ofNat (f.mb + 72) < ilog m e then (2 ^ (f.mb + 72), true) else roundAt mode n 0 m e false
    let i : Int := if n then -(Int.ofNat r.1) else Int.ofNat r.1
    if i < lo then (lo, flagNV) else if hi < i then (hi, flagNV) else (i, flagIf r.2 flagNX)

/-- Integer to float (R285). -/
def Fmt.ofInt (f : Fmt) (mode : Rnd) (i : Int) : Nat × Word :=
  let r := f.round mode (i < 0) i.natAbs 0 false
  (r.1, r.2 &&& flagNX)

/-- FRRED: a − 2 × round(a ÷ 2) (R286). -/
def Fmt.rred (f : Fmt) (b : Nat) : Nat × Word :=
  match f.unpack b with
  | .nan s => (f.nan, flagIf s flagNV)
  | .inf _ => (f.nan, flagNV)
  | .num n m e =>
    let k := (roundAt .rne n 0 m (e - 1) false).1
    let e' := min e 1
    let r := intAt n m e e' - intAt n k 1 e'
    ((f.ofVal .rne (signed r e' n)).1, 0)

/-! ## Lanes and pairs -/

/-- The bits of element k of a token: a lane, or under D a pair. -/
def elemBits (d : Bool) (v : Lanes) (k : Nat) : Nat := if d then (dwordAt v k).toNat else (wordAt v k).toNat

/-- The lanes of a token from its elements' bits. -/
def lanesOfElems (d : Bool) (f : Nat → Option Nat) : Lanes :=
  if d then lanesOfPairs (fun k => (f k).map (BitVec.ofNat 64)) else lanesOf (fun l => (f l).map (BitVec.ofNat 32))

/-- Whether element k is valid in every named source (R237). -/
def Firing.validElem (f : Firing) (w : Slot) (k : Nat) : Bool := if w.d then f.validPair w k else f.valid w k

/-- The Out of an instruction that computes every element, with its flags (R280, R281). -/
def floatOut (w : Slot) (f : Firing) (op : Nat → Nat → Nat → Nat × Word) : Out :=
  let rs := (List.range (elemCount w.d)).map (fun k =>
    if f.validElem w k then
      some (op (elemBits w.d f.a.lanes k) (elemBits w.d f.b.lanes k) (elemBits w.d f.c.lanes k))
    else none)
  { res := built (lanesOfElems w.d (fun k => (nth rs k none).map (·.1))), poison := f.poisoned w,
    flags := flagsOr (rs.map (fun r => match r with
      | some x => x.2
      | none => 0)) }

end Sys2Proof.Machine
end

