-- ==== Sys2Proof/Machine/Stream.lean ====
section
/-! DEFINITION. The class 3 instructions (R265 to R278). What a firing decides at its selection, from the heads,
registers and cursors of that moment, is here too; SELECTION calls it and keeps it in `Firing.extra`. -/

namespace Sys2Proof.Machine

/-! ## Passing (R265) -/

/-- The tag that a passed token takes: its own where it is an input head, DATA otherwise (R265). -/
def View.passTag (v : View) : Tag := v.tag.getD 0

def View.isPoison (v : View) : Bool := v.tag == some tagPoison

/-- A passed token (R265). -/
def passed (v : View) : Option Emit := some ⟨v.lanes, .passed v.passTag⟩

/-- POISON-CONTROL of a control operand (R170, R265). -/
def controlFault (bad : Bool) : Option (Nat × Nat × Nat) := if bad then some (fMEMORY, cPOISONCTL, 0) else none

/-- Whether PM tests a result (R239). -/
def PredMode.tests : PredMode → Bool
  | .lane0 | .anyLane | .allLanes => true
  | _ => false

/-- The broadcast of a scalar. -/
def scalar (w : Word) : Option Emit := some ⟨Lanes.all w, .built⟩

/-- The broadcast of a count for the a-register that keeps it, whatever tag the passed token has. -/
def countBack (w : Word) : Option Emit := some ⟨Lanes.all w, .passed 0⟩

/-! ## Decisions made at selection -/

/-- DUP dequeues when its count is 0 or 1 (R267). -/
def dupDequeues (b : View) : Bool := wordAt b.lanes 0 ≤ 1

/-- The condition of GATE and of MERGE.steer: lane 0 valid and not zero (R269, R270). -/
def condOf (v : View) : Bool := validAt v.lanes 0 && wordAt v.lanes 0 != 0

/-- What ZIP does with its two heads (R271): pass both, pad for A, pad for B, drop A's or B's data, or fault. -/
inductive ZipCase where
  | both | padA | padB | dropA | dropB | mismatch
deriving DecidableEq, Repr

def zipCase (w : Slot) (a b : Tag) : ZipCase :=
  let ea := isEnd a && !(isEnd b && a < b)
  let eb := isEnd b && !(isEnd a && b < a)
  if ea == eb then .both
  else if w.rnd = 0 then .mismatch
  else if w.rnd = 1 then if ea then .dropB else .dropA
  else if ea then .padA else .padB

/-- Pair k is live: both its lanes are valid (R272). -/
def live (v : Lanes) (k : Nat) : Bool := validAt v (2 * k) && validAt v (2 * k + 1)

/-- The first live pair from a cursor on, 8 where none is (R273). -/
def skipDead : Nat → Lanes → Nat → Nat
  | 0, _, c => c
  | n + 1, v, c => if c < 8 && !live v c then skipDead n v (c + 1) else c

/-- The state of the loop of R273. -/
structure Join where
  ca : Nat
  cb : Nat
  /-- The triples (k, u, w) put so far. -/
  out : List (Word × Word × Word) := []
  /-- A pair of A, of B was read. -/
  readA : Bool := false
  readB : Bool := false
  deqA : Bool := false
  deqB : Bool := false
  /-- End tokens pass. -/
  ends : Bool := false
deriving DecidableEq, Repr

/-- One round of the loop after dead pairs are skipped: none where the loop stops (R273). -/
def joinPair (union : Bool) (f : Word) (a b : Lanes) (ea eb : Bool) (j : Join) : Join :=
  let x := wordAt a (2 * j.ca)
  let y := wordAt b (2 * j.cb)
  let u := wordAt a (2 * j.ca + 1)
  let v := wordAt b (2 * j.cb + 1)
  if ea then { j with out := if union then j.out ++ [(y, f, v)] else j.out, cb := j.cb + 1, readB := true }
  else if eb then { j with out := if union then j.out ++ [(x, u, f)] else j.out, ca := j.ca + 1, readA := true }
  else if x = y then { j with out := j.out ++ [(x, u, v)], ca := j.ca + 1, cb := j.cb + 1, readA := true, readB := true }
  else if x < y then
    { j with out := if union then j.out ++ [(x, u, f)] else j.out, ca := j.ca + 1, readA := true, readB := true }
  else { j with out := if union then j.out ++ [(y, f, v)] else j.out, cb := j.cb + 1, readA := true, readB := true }

/-- The loop of ISECT and UNION (R273); every round moves a cursor, so 17 rounds are enough. -/
def joinLoop (union : Bool) (f : Word) (a b : Lanes) (ea eb : Bool) : Nat → Join → Join
  | 0, j => j
  | n + 1, j =>
    let ca := if ea then j.ca else skipDead 8 a j.ca
    let cb := if eb then j.cb else skipDead 8 b j.cb
    let j := { j with ca, cb, readA := j.readA || ca != j.ca, readB := j.readB || cb != j.cb }
    let xa := !ea && ca == 8
    let xb := !eb && cb == 8
    if xa || xb then { j with deqA := xa, deqB := xb, readA := j.readA || xa, readB := j.readB || xb }
    else if ea && eb then { j with deqA := true, deqB := true, ends := true }
    else if j.out.length = 8 then j
    else joinLoop union f a b ea eb n (joinPair union f a b ea eb j)

/-- The decision of an ISECT or UNION firing from its heads and cursors (R273). -/
def joinOf (union : Bool) (a b c : View) (ca cb : Nat) : Join :=
  joinLoop union (wordAt c.lanes 0) a.lanes b.lanes (isEnd a.passTag) (isEnd b.passTag) 17 { ca, cb }

/-- The remainder of PACK: the lanes from lane 0 to the first invalid one (R278). -/
def packRest (v : Lanes) : List Word :=
  (((List.range 16).map (laneAt v)).takeWhile (·.isSome)).map (·.getD 0)

/-- PACK leaves an end token in place while a remainder is left (R278). -/
def packDequeues (a b : View) : Bool := !isEnd a.passTag || (packRest b.lanes).isEmpty

/-! ## Meanings -/

/-- PASS (R267). -/
def execPass (w : Slot) (s : State) : Res := writeBack w (fun f _ => { res := passed f.a }) s

/-- DUP: the head again, and the count written back (R267). -/
def execDup (w : Slot) (s : State) : Res :=
  writeBack w (fun f _ =>
    { res := passed f.a,
      res2 := some (countBack (if dupDequeues f.b then wordAt f.c.lanes 0 else wordAt f.b.lanes 0 - 1)),
      fault := controlFault f.c.isPoison }) s

/-- A FILT result; for an output queue an empty one is dropped (R268). -/
def filtPart (f : Firing) (dst : Dst) (keep : Bool) : Option Emit :=
  let l := lanesOf (fun l => if (validAt f.b.lanes l && wordAt f.b.lanes l != 0) == keep then laneAt f.a.lanes l else none)
  if dst.isOut && validMask l == 0 then none else some ⟨l, .passed f.a.passTag⟩

/-- FILT (R268). -/
def execFilt (w : Slot) (s : State) : Res :=
  writeBack w (fun f _ =>
    { res := filtPart f w.da true, res2 := some (filtPart f w.db false),
      fault := controlFault (f.b.isPoison || (f.a.isPoison && PredMode.tests w.pm)) }) s

/-- GATE: A by the condition, or under `.not` by its contrary (R269). -/
def execGate (w : Slot) (s : State) : Res :=
  writeBack w (fun f _ =>
    { res := if condOf f.b == (w.rnd == 0) then passed f.a else none, fault := controlFault f.b.isPoison }) s

/-- MERGE: the head chosen at selection, entry 0 of `extra` being 1 for A (R270). -/
def execMerge (w : Slot) (s : State) : Res :=
  writeBack w (fun f _ =>
    { res := passed (if nth f.extra 0 0 = 1 then f.a else f.b), fault := controlFault f.c.isPoison }) s

/-- ZIP; a mismatch is a fault of the firing (R271). -/
def execZip (w : Slot) (s : State) : Res :=
  writeBack w (fun f _ =>
    match zipCase w f.a.passTag f.b.passTag with
    | .both => { res := passed f.a, res2 := some (passed f.b) }
    | .padA => { res := some ⟨f.c.lanes, .passed f.b.passTag⟩, res2 := some (passed f.b) }
    | .padB => { res := passed f.a, res2 := some (some ⟨f.c.lanes, .passed f.a.passTag⟩) }
    | .dropA | .dropB => { res2 := some none }
    | .mismatch => { fault := some (fSTREAM, 1, 0) }) s

/-- The Out of ISECT and UNION from the decision made at selection, with the cursors of that moment in
`extra` (R273). -/
def joinOut (union : Bool) (f : Firing) : Out :=
  let j := joinOf union f.a f.b f.c (nth f.extra 0 0) (nth f.extra 1 0)
  let words (g : Word × Word × Word → Word) : Lanes := lanesOfList (j.out.flatMap (fun x => [x.1, g x]))
  let bad := (f.a.isPoison && j.readA) || (f.b.isPoison && j.readB)
  if j.ends then { res := passed f.a, res2 := some (passed f.b) }
  else if j.out.isEmpty then { res2 := some none, fault := controlFault bad }
  else { res := built (words (·.2.1)), res2 := some (built (words (·.2.2))), fault := controlFault bad }

def execIsect (w : Slot) (s : State) : Res := writeBack w (fun f _ => joinOut false f) s

def execUnion (w : Slot) (s : State) : Res := writeBack w (fun f _ => joinOut true f) s

/-- The tag that RETAG gives (R274). -/
def retagOf (w : Slot) (t : Tag) : Tag :=
  let entry (n : Nat) : Tag := (w.imm >>> (4 * n)).setWidth 4
  if w.rnd = 0 then if t.toNat < 8 then entry t.toNat else t
  else if 8 ≤ t.toNat && t.toNat ≤ 13 then entry (t.toNat - 8) else t

/-- RETAG (R274). -/
def execRetag (w : Slot) (s : State) : Res :=
  writeBack w (fun f _ => { res := some ⟨f.a.lanes, .passed (retagOf w f.a.passTag)⟩ }) s

/-- TAGSEL: to DA where the bit of the tag is set, to DB otherwise (R274). -/
def execTagsel (w : Slot) (s : State) : Res :=
  writeBack w (fun f _ =>
    if w.imm.getLsbD f.a.passTag.toNat then { res := passed f.a, res2 := some none }
    else { res2 := some (passed f.a) }) s

/-- The dimension j of R275 that wraps, as a count: 0 where none does. -/
def aloopWraps (e : Element) (dims : Nat) : Nat :=
  ((List.range dims).takeWhile (fun k => (nth e.bank.consts k 0).toNat ≤ (nth e.a k 0).toNat + 1)).length

/-- ALOOP: the counters, their tag, and the counters advanced (R275). -/
def execAloop (w : Slot) (s : State) : Res :=
  writeBack w (fun _ e =>
    let dims := w.imm.toNat % 4 + 1
    let n := aloopWraps e dims
    let tag : Tag := if n = 0 then 0 else if n < dims then BitVec.ofNat 4 (7 + n) else tagEnd
    { res := some ⟨lanesOfList (e.a.take dims), .given tag⟩,
      elem := fun e => { e with a := e.a.mapIdx (fun k v => if k < n then 0 else if k = n && n < dims then v + 1 else v) } }) s

/-- CNT: the count moved by the valid lanes or by one token, and a copy of A (R276). -/
def execCnt (w : Slot) (s : State) : Res :=
  writeBack w (fun f _ =>
    let n : Word := if w.rnd.getLsbD 0 then 1 else BitVec.ofNat 32 (validCount f.a.lanes)
    let b := wordAt f.b.lanes 0
    { res := scalar (if w.rnd.getLsbD 1 then b - n else b + n), res2 := some (passed f.a),
      fault := controlFault (f.a.isPoison || f.b.isPoison) }) s

/-- ENDGEN: every C-th token takes OTAG (R276). -/
def execEndgen (w : Slot) (s : State) : Res :=
  writeBack w (fun f _ =>
    let k := (wordAt f.b.lanes 0).toNat + 1
    if (wordAt f.c.lanes 0).toNat ≤ k then
      { res := some ⟨f.a.lanes, .given w.otag⟩, res2 := some (countBack 0), poison := f.a.isPoison,
        fault := controlFault (f.b.isPoison || f.c.isPoison) }
    else { res := passed f.a, res2 := some (countBack (BitVec.ofNat 32 k)),
           fault := controlFault (f.b.isPoison || f.c.isPoison) }) s

/-- The value that PSET or SLOTEN writes for bit k (R277). -/
def setBit (w : Slot) (f : Firing) (k : Nat) : Bool :=
  if w.rnd = 1 then (wordAt f.a.lanes 0).getLsbD k else w.imm.getLsbD k

/-- PSET: every predicate in MASK (R277). -/
def execPset (w : Slot) (s : State) : Res :=
  writeBack w (fun f _ =>
    { preds := ((List.range 8).filter (fun k => w.imm.getLsbD (8 + k))).map
        (fun k => (k, if setBit w f k then Pred.yes else Pred.no)),
      fault := controlFault f.a.isPoison }) s

/-- SLOTEN: every enable in MASK (R277). -/
def execSloten (w : Slot) (s : State) : Res :=
  writeBack w (fun f _ =>
    let v : BitVec 16 := if w.rnd = 1 then (wordAt f.a.lanes 0).setWidth 16 else w.imm.setWidth 16
    let m : BitVec 16 := (w.imm >>> 16).setWidth 16
    { elem := fun e => { e with en := (e.en &&& ~~~m) ||| (v &&& m) }, fault := controlFault f.a.isPoison }) s

/-- PACK (R278). -/
def execPack (w : Slot) (s : State) : Res :=
  writeBack w (fun f _ =>
    let r := packRest f.b.lanes
    if isEnd f.a.passTag then
      if r.isEmpty then { res := passed f.a, res2 := some (some ⟨Lanes.empty, .passed 0⟩) }
      else { res := built (lanesOfList r), res2 := some (some ⟨Lanes.empty, .passed 0⟩) }
    else
      let l := r ++ ((List.range 16).filterMap (laneAt f.a.lanes))
      if 16 ≤ l.length then
        { res := built (lanesOfList (l.take 16)), res2 := some (some ⟨lanesOfList (l.drop 16), .passed 0⟩),
          fault := controlFault f.a.isPoison }
      else { res2 := some (some ⟨lanesOfList l, .passed 0⟩), fault := controlFault f.a.isPoison }) s

end Sys2Proof.Machine
end

