-- ==== Sys2Proof/Machine/Scratch.lean ====
section
/-! DEFINITION. The SE instructions on the tile's own SRAM: loads, stores, atomics, hash tables and lap buffers
(R299 to R308, R150 to R155). The granule events of a firing perform one by one, as the banks serve them; the last with its write-back. -/

namespace Sys2Proof.Machine

/-! ## Fields and addresses -/

/-- OFF, DESC and SCOPE of an SE instruction (R299). -/
def seOff (w : Slot) : Nat := w.imm.toNat % 2 ^ 23
def seDesc (w : Slot) : Nat := w.imm.toNat / 2 ^ 27 % 8
def scopeOf (w : Slot) : Nat := w.imm.toNat / 2 ^ 30

/-- The lanes that make an access, each with its local address. -/
abbrev LaneAddrs := List (Nat × Nat)

/-- Addresses of a token access: lane l at TA + 4l (R150, R304). -/
def tokenAddrs (ta : Nat) (ok : Nat → Bool) : LaneAddrs :=
  ((List.range 16).filter ok).map (fun l => (l, sramWrap (ta + 4 * l)))

/-- Addresses of an indexed access: lane l at A.lane(l) + OFF (R304). -/
def indexAddrs (a : Lanes) (off : Nat) (ok : Nat → Bool) : LaneAddrs :=
  ((List.range 16).filter ok).map (fun l => (l, sramWrap ((wordAt a l).toNat + off)))

/-- ALIGN of the first address that is no multiple of 4 (R300). -/
def alignFault (l : LaneAddrs) : Option (Nat × Nat × Nat) :=
  match l.find? (fun x => x.2 % 4 ≠ 0) with
  | some x => some (fMEMORY, cALIGN, x.2)
  | none => none

/-- The first of two faults. -/
def orFault (a b : Option (Nat × Nat × Nat)) : Option (Nat × Nat × Nat) :=
  match a with
  | some x => some x
  | none => b

/-- The distinct granules of addresses. -/
def granuleCount (l : LaneAddrs) : Nat := ((l.map (·.2 / 64)).dedup).length

/-- Their granules, in the order of their first addresses. -/
def granuleOrder (l : LaneAddrs) : List Nat := (l.map (·.2 / 64)).reverse.dedup.reverse

/-- The bank of a granule (R150). -/
def bankOf (granule : Nat) : Nat := granule % 16

/-- Events of one firing or request, its granules read and written, in group 3 (R337); each event after the first of all is a
conflict step (R149, R304). -/
def Tile.bankEvents (t : Tile) (n reads writes : Nat) (first : Bool := true) : Tile :=
  if n = 0 then t else (((t.count 3 0 n).count 3 1 (n - first.toNat)).count 3 3 reads).count 3 4 writes

/-- The word at a local address, zero where it is poisoned, and whether it is (R169). -/
def Tile.word (t : Tile) (a : Nat) : Word × Bool :=
  let r := t.read a 4
  (wordOfBytes r.1, r.2)

/-- Loads of lanes: their words, and whether any was poisoned. -/
def Tile.loadWords (t : Tile) (l : LaneAddrs) : List (Nat × Word) × Bool :=
  (l.map (fun x => (x.1, (t.word x.2).1)), l.any (fun x => (t.word x.2).2))

/-- Lanes of words. -/
def oldLanes (l : List (Nat × Word)) : Lanes := lanesOf (fun k => (l.find? (fun x => x.1 = k)).map (·.2))

/-- Load lanes: their words, and whether any was poisoned. -/
def Tile.loadLanes (t : Tile) (l : LaneAddrs) : Lanes × Bool := (oldLanes (t.loadWords l).1, (t.loadWords l).2)

/-- Store lanes of a token, a higher lane over a lower one; POISON writes markers (R171, R304). -/
def Tile.storeLanes (t : Tile) (l : LaneAddrs) (b : Lanes) (poison : Bool) : Tile :=
  if l.isEmpty then t
  else t.write (l.flatMap (fun x => spreadBytes x.2 (leBytes 4 (wordAt b x.1).toNat))) poison

/-- The acknowledgement token: the access address in lanes 0 and 1 (R302); without an access, no valid lane
(R300). -/
def ackLanes (addr : Option Nat) : Lanes :=
  match addr with
  | some a => lanesOfList [BitVec.ofNat 32 a, BitVec.ofNat 32 (a / 2 ^ 32)]
  | none => Lanes.empty

/-- The address that the acknowledgement of the n-th firing carries: that of one of its accessing lanes (R302; log 15). -/
def pickAddr (n : Nat) (l : LaneAddrs) : Option Nat := (l[Config.freeLane n % l.length]?).map (·.2)

/-- A write-back that also acts on the tile's SRAM: no fault found before its accesses, and they perform. -/
def tileBack (w : Slot) (f : Firing → Element → Tile → Out × Tile) (s : State) : Res :=
  match s.focus with
  | none => .next s
  | some fo =>
    let r := f fo.firing (s.elem fo.eid) (s.tile (tileOf fo.eid))
    let s := if r.1.fault.isSome || fo.firing.fault.isSome then s else s.setTile (tileOf fo.eid) r.2
    .next (s.complete fo w r.1)

/-! ## Loads, stores and atomics (R304 to R306) -/

/-- What a scratchpad instruction does: its accesses, the addresses that must be aligned, how lanes perform, the lanes that write,
and whether granules are read. -/
structure LaneOp where
  places : LaneAddrs
  checked : LaneAddrs
  run : LaneAddrs → Tile → List (Nat × Word) × Bool × Tile
  writes : Nat → Bool
  reads : Bool

/-- The accesses of a firing that have still to perform. -/
def Firing.left (f : Firing) (l : LaneAddrs) : LaneAddrs := l.filter (fun x => !f.early.any (·.1 = x.1))

/-- Lanes perform, and the bank events are counted. -/
def LaneOp.perform (o : LaneOp) (l : LaneAddrs) (t : Tile) (first : Bool) : List (Nat × Word) × Bool × Tile :=
  let r := o.run l t
  (r.1, r.2.1, r.2.2.bankEvents (granuleCount l) (if o.reads then granuleCount l else 0) (granuleCount (l.filter (fun x => o.writes x.1)))
    first)

/-- The lanes of the next granule event of a firing: those of the granule of the lowest lane left (R304). -/
def LaneOp.event (o : LaneOp) (f : Firing) : LaneAddrs :=
  match f.left o.places with
  | [] => []
  | x :: l => x :: l.filter (fun y => y.2 / 64 = x.2 / 64)

/-- The fault of a scratchpad instruction: a POISON address token, or an address that is no multiple of 4 (R171, R300). -/
def LaneOp.fault (o : LaneOp) (f : Firing) : Option (Nat × Nat × Nat) :=
  orFault (controlFault f.a.isPoison) (alignFault o.checked)

/-- What the lanes of a firing have given with its write-back, whether poison was met, and the tile. -/
def LaneOp.finish (o : LaneOp) (f : Firing) (t : Tile) : List (Nat × Word) × Bool × Tile :=
  let r := o.perform (f.left o.places) t f.early.isEmpty
  (f.early.map (fun x => (x.1, x.2.1)) ++ r.1, f.earlyBad || r.2.1, r.2.2)

/-- The token address of LDS and STS; none where lane 0 is invalid (R300). -/
def tokenAddr (w : Slot) (f : Firing) : Option Nat :=
  match laneAt f.a.lanes 0 with
  | some a => some (sramWrap (a.toNat + seOff w))
  | none => none

def LaneAddrs.load (l : LaneAddrs) : LaneOp :=
  ⟨l, l, fun l t => ((t.loadWords l).1, (t.loadWords l).2, t), fun _ => false, true⟩

def LaneAddrs.store (l : LaneAddrs) (f : Firing) (ok : Nat → Bool) : LaneOp :=
  ⟨l, l, fun l t => (l.map (fun x => (x.1, 0)), false, t.storeLanes (l.filter (fun x => ok x.1)) f.b.lanes f.b.isPoison), ok, false⟩

/-- LDS, STS, LDSX and STSX (R304). -/
def ldsOp (w : Slot) (f : Firing) : LaneOp :=
  (match tokenAddr w f with
    | some ta => tokenAddrs ta (fun _ => true)
    | none => []).load

def ldsxOp (w : Slot) (f : Firing) : LaneOp := (indexAddrs f.a.lanes (seOff w) (validAt f.a.lanes)).load

def stsOp (w : Slot) (f : Firing) : LaneOp :=
  (match tokenAddr w f with
    | some ta => tokenAddrs ta (fun _ => true)
    | none => []).store f (validAt f.b.lanes)

def stsxOp (w : Slot) (f : Firing) : LaneOp :=
  (indexAddrs f.a.lanes (seOff w) (fun k => validAt f.a.lanes k && validAt f.b.lanes k)).store f (fun _ => true)

/-- The Out and tile of a load. -/
def loadOut (o : LaneOp) (f : Firing) (t : Tile) : Out × Tile :=
  let r := o.finish f t
  ({ res := built (oldLanes r.1), poison := r.2.1, fault := o.fault f }, r.2.2)

def execLds (w : Slot) (s : State) : Res := tileBack w (fun f _ t => loadOut (ldsOp w f) f t) s

def execLdsx (w : Slot) (s : State) : Res := tileBack w (fun f _ t => loadOut (ldsxOp w f) f t) s

/-- The Out and tile of a store of B, with the acknowledgement under ACK (R302). -/
def storeOut (w : Slot) (o : LaneOp) (f : Firing) (t : Tile) (addr : Option Nat) : Out × Tile :=
  ({ res := if w.ack then built (ackLanes addr) else none, poison := f.b.isPoison, sink := 0, fault := o.fault f }, (o.finish f t).2.2)

def execSts (w : Slot) (s : State) : Res := tileBack w (fun f _ t => storeOut w (stsOp w f) f t (tokenAddr w f)) s

def execStsx (w : Slot) (s : State) : Res :=
  tileBack w (fun f _ t => storeOut w (stsxOp w f) f t (pickAddr f.seq (stsxOp w f).places)) s

/-- The new value of an atomic; X:MOD as in R305. -/
def atomicOp (code : BitVec 4) (old b : Word) : Word :=
  match code.toNat with
  | 0 => old + b
  | 1 => if b.toInt < old.toInt then b else old
  | 2 => if old.toInt < b.toInt then b else old
  | 3 => if b < old then b else old
  | 4 => if old < b then b else old
  | 5 => old &&& b
  | 6 => old ||| b
  | 7 => old ^^^ b
  | _ => b

/-- The code of an atomic instruction. -/
def atomicCode (w : Slot) : BitVec 4 := BitVec.ofBool w.x ++ w.rnd

/-- One lane of a read-modify-write: a marked word is not updated (R171, R182). -/
def Tile.rmw (t : Tile) (a : Nat) (new : Word → Option Word) (frozen : Bool) : Word × Bool × Tile :=
  let (old, bad) := t.word a
  if bad || frozen then (old, bad, t)
  else match new old with
    | some v => (old, false, t.write (spreadBytes a (leBytes 4 v.toNat)) false)
    | none => (old, false, t)

/-- The lanes of a read-modify-write in ascending order: the old values, poison, and the tile (R305). -/
def Tile.rmwLanes (t : Tile) (l : LaneAddrs) (new : Nat → Word → Option Word) (frozen : Bool) :
    List (Nat × Word) × Bool × Tile :=
  l.foldl (fun acc x =>
    let r := acc.2.2.rmw x.2 (new x.1) frozen
    (acc.1 ++ [(x.1, r.1)], acc.2.1 || r.2.1, r.2.2)) ([], frozen, t)

def LaneAddrs.rmw (l : LaneAddrs) (new : Nat → Word → Option Word) (frozen : Bool) : LaneOp :=
  ⟨l, l, fun l t => t.rmwLanes l new frozen, fun _ => true, true⟩

/-- The new value of a compare and swap: none where the comparand differs. -/
def casOp (cmp new old : Word) : Option Word := if old = cmp then some new else none

/-- ATMS and CASS (R305). -/
def atmsOp (w : Slot) (f : Firing) : LaneOp :=
  (indexAddrs f.a.lanes (seOff w) (f.valid w)).rmw (fun l old => some (atomicOp (atomicCode w) old (wordAt f.b.lanes l))) f.b.isPoison

def cassOp (w : Slot) (f : Firing) : LaneOp :=
  (indexAddrs f.a.lanes (seOff w) (f.valid w)).rmw (fun l old => casOp (wordAt f.b.lanes l) (wordAt f.c.lanes l) old)
    (f.b.isPoison || f.c.isPoison)

/-- TAS: the bit of each lane is set; OFF is a multiple of 4 (R306). -/
def tasOp (w : Slot) (f : Firing) : LaneOp :=
  LaneAddrs.rmw (((List.range 16).filter (validAt f.a.lanes)).map (fun k => (k, sramWrap (seOff w + 4 * ((wordAt f.a.lanes k).toNat / 32)))))
    (fun k old => some (old ||| BitVec.ofNat 32 (2 ^ ((wordAt f.a.lanes k).toNat % 32)))) false

def execAtms (w : Slot) (s : State) : Res := tileBack w (fun f _ t => loadOut (atmsOp w f) f t) s

def execCass (w : Slot) (s : State) : Res := tileBack w (fun f _ t => loadOut (cassOp w f) f t) s

/-- TAS: the old bit of each lane. -/
def execTas (w : Slot) (s : State) : Res :=
  tileBack w (fun f _ t =>
    let r := (tasOp w f).finish f t
    let bit (x : Nat × Word) : Word := if x.2.getLsbD ((wordAt f.a.lanes x.1).toNat % 32) then 1 else 0
    ({ res := built (oldLanes (r.1.map (fun x => (x.1, bit x)))), poison := r.2.1, fault := controlFault f.a.isPoison }, r.2.2)) s

/-! ## Hash tables (R154, R155, R307) -/

/-- A hash-table configuration word. -/
structure HashCfg where
  v : Bool
  spen : Bool
  spq : Nat
  probes : Nat
  keyw : Nat
  log2n : Nat
  base : Nat
deriving DecidableEq, Repr

def hashCfgOf (d : DWord) : HashCfg :=
  let n := d.toNat
  { v := d.getLsbD 63, spen := d.getLsbD 43, spq := bitsOf n 41 2, probes := bitsOf n 38 3 + 1,
    keyw := bitsOf n 33 5, log2n := bitsOf n 28 5, base := bitsOf n 0 17 }

/-- The descriptor that an instruction names. -/
def Element.hashCfg (e : Element) (w : Slot) : HashCfg := hashCfgOf (nth e.bank.hashCfg (seDesc w) 0)

/-- The home slot of a key (R155). -/
def hashHome (c : HashCfg) (k : Nat) : Nat :=
  let m := k * 0x9E3779B1 % 2 ^ 32
  if c.log2n = 0 then 0 else m / 2 ^ (32 - c.log2n)

/-- The local address of the slot of probe j (R154, R155). -/
def probeAddr (c : HashCfg) (k j : Nat) : Nat := sramWrap (c.base * 64 + 8 * ((hashHome c k + j) % 2 ^ c.log2n))

/-- What a probe sequence ends in. -/
inductive Probe where
  | present (addr : Nat) (value : Word)
  | free (addr : Nat)
  | full
deriving DecidableEq, Repr

/-- Examine n probes from probe j on; whether a poisoned slot was met (R155, R307). -/
def Tile.probe (t : Tile) (c : HashCfg) (k : Nat) : Nat → Nat → Probe × Bool
  | 0, _ => (.full, false)
  | n + 1, j =>
    let a := probeAddr c k j
    let (w0, bad) := t.word a
    if !w0.getLsbD 31 then (.free a, bad || t.poisoned a 8)
    else if w0.toNat % 2 ^ 31 = k then (.present a (t.word (a + 4)).1, bad || t.poisoned a 8)
    else
      let r := t.probe c k n (j + 1)
      (r.1, bad || r.2)

/-- The granules that n probes of a key from probe j on touch, in order (R155, R307). -/
def Tile.probed (t : Tile) (c : HashCfg) (k : Nat) : Nat → Nat → LaneAddrs
  | 0, _ => []
  | n + 1, j =>
    let a := probeAddr c k j
    let w0 := (t.word a).1
    (j, a) :: (if w0.getLsbD 31 && w0.toNat % 2 ^ 31 ≠ k then t.probed c k n (j + 1) else [])

/-- The granules of a key: two at most (R154, R182). -/
def Tile.keyGranules (t : Tile) (c : HashCfg) (k : Nat) : List Nat := granuleOrder (t.probed c k c.probes 0)

/-- What a hash instruction gives for a lane: res, res2, FULL. -/
structure HashLane where
  lane : Nat
  key : Nat
  res : Word
  res2 : Word
  full : Bool
deriving DecidableEq, Repr

/-- One key of HINS: a poisoned slot or a POISON operand updates nothing (R171, R307). -/
def Tile.hins (t : Tile) (c : HashCfg) (lane k : Nat) (v : Word) (frozen : Bool) : HashLane × Bool × Tile :=
  let (p, bad) := t.probe c k c.probes 0
  match p with
  | .present _ old => (⟨lane, k, 1, old, false⟩, bad, t)
  | .full => (⟨lane, k, 0xFFFFFFFF, 0, true⟩, bad, t)
  | .free a =>
    (⟨lane, k, 0, v, false⟩, bad,
      if bad || frozen then t
      else t.write (spreadBytes a (leBytes 4 (2 ^ 31 + k) ++ leBytes 4 v.toNat)) false)

/-- The token of a per-lane word. -/
def hashLanes (l : List HashLane) (g : HashLane → Word) : Lanes :=
  lanesOf (fun k => (l.find? (fun x => x.lane = k)).map g)

/-- What HINS has done up to a key: its lanes, poison, the tile, the granules that it touched, and how often it wrote. -/
structure HashRun where
  lanes : List HashLane
  bad : Bool
  tile : Tile
  granules : List Nat
  writes : Nat

/-- The key of a lane (R154, R307). -/
def Firing.key (f : Firing) (c : HashCfg) (l : Nat) : Nat := (wordAt f.a.lanes l).toNat % 2 ^ c.keyw

/-- A key that HINS takes, in lane order, and the granules that it touches. -/
def HashRun.next (r : HashRun) (c : HashCfg) (f : Firing) (frozen : Bool) (l : Nat) : HashRun :=
  let k := f.key c l
  let x := r.tile.hins c l k (wordAt f.b.lanes l) frozen
  ⟨r.lanes ++ [x.1], r.bad || x.2.1, x.2.2, r.granules ++ r.tile.keyGranules c k,
    r.writes + (if x.1.res = 0 && !x.2.1 && !frozen then 1 else 0)⟩

/-- What the keys that the banks have served gave. -/
def Firing.hadKeys (f : Firing) (c : HashCfg) : List HashLane :=
  f.early.map (fun x => ⟨x.1, f.key c x.1, x.2.1, x.2.2, x.2.1 == 0xFFFFFFFF⟩)

/-- The lanes of a hash instruction whose keys are still to come: of HINS, the valid lanes of A (R307). -/
def Firing.keysLeft (f : Firing) (ok : Nat → Bool) : List Nat := (List.range 16).filter (fun l => ok l && !f.early.any (·.1 = l))

/-- All keys of a HINS: the valid lanes of A (R307); a lane that is invalid in B has the value 0 (R128). -/
def Tile.hinsAll (t : Tile) (c : HashCfg) (w : Slot) (f : Firing) : HashRun :=
  (f.keysLeft (validAt f.a.lanes)).foldl (fun (r : HashRun) l => r.next c f (f.poisoned w) l)
    ⟨f.hadKeys c, f.earlyBad || f.poisoned w, t, [], 0⟩

/-- The granules that the keys of a HFIND touch. -/
def Tile.hfindGranules (t : Tile) (c : HashCfg) (w : Slot) (f : Firing) : List Nat :=
  (f.keysLeft (f.valid w)).flatMap (fun l => t.keyGranules c (f.key c l))

/-- One key of HFIND: present or absent, and the value (R307). -/
def Tile.hfind (t : Tile) (c : HashCfg) (lane k : Nat) : HashLane × Bool :=
  match t.probe c k c.probes 0 with
  | (.present _ v, bad) => (⟨lane, k, 0xFFFFFFFF, v, false⟩, bad)
  | (_, bad) => (⟨lane, k, 0, 0, false⟩, bad)

/-- OPERAND DESCRIPTOR (R220). -/
def opDescriptor : Nat × Nat × Nat := (fOPERAND, 3, 0)

def execHins (w : Slot) (s : State) : Res :=
  tileBack w (fun f e t =>
    let c := e.hashCfg w
    if !c.v then ({ fault := some opDescriptor }, t)
    else
      let r := t.hinsAll c w f
      let full := if f.poisoned w then [] else r.lanes.filter (·.full)
      let n := full.length
      let ovf (e : Element) : Element :=
        { e with ovf := upd e.ovf (seDesc w) (fun v => min (v + n) 0xFFFFFFFF), counts := { e.counts with hovf := e.counts.hovf + n } }
      let shown := r.lanes.filter (fun x => f.valid w x.lane)
      ({ res := built (hashLanes shown (·.res)), res2 := some (built (hashLanes shown (·.res2))), poison := r.bad, elem := ovf,
         spill := if c.spen && n ≠ 0 then some (c.spq, hashLanes full (fun x => BitVec.ofNat 32 x.key), 0) else none },
       ((r.tile.bankEvents (r.granules.length - f.served) (r.granules.length - f.served) r.writes
         (f.early.isEmpty && f.served = 0)).count 7 4 r.lanes.length).count 7 6 n)) s

def execHfind (w : Slot) (s : State) : Res :=
  tileBack w (fun f e t =>
    let c := e.hashCfg w
    if !c.v then ({ fault := some opDescriptor }, t)
    else
      let r := (f.keysLeft (f.valid w)).map (fun l => t.hfind c l (f.key c l))
      let all := f.hadKeys c ++ r.map (·.1)
      let n := (t.hfindGranules c w f).length - f.served
      ({ res := built (hashLanes all (·.res)), res2 := some (built (hashLanes all (·.res2))),
         poison := f.poisoned w || f.earlyBad || r.any (·.2) },
       (t.bankEvents n n 0 (f.early.isEmpty && f.served = 0)).count 7 5 all.length)) s

/-! ## Lap buffers (R152, R153, R308) -/

/-- A lap-buffer configuration word; `slotg` is the slot size minus one. -/
structure LapCfg where
  v : Bool
  nslot : Nat
  slotg : Nat
  base : Nat
deriving DecidableEq, Repr

def lapCfgOf (d : DWord) : LapCfg :=
  { v := d.getLsbD 63, nslot := bitsOf d.toNat 24 16, slotg := bitsOf d.toNat 17 7, base := bitsOf d.toNat 0 17 }

def Element.lapCfg (e : Element) (n : Nat) : LapCfg := lapCfgOf (nth e.bank.lapCfg n 0)

def Element.lap (e : Element) (n : Nat) : Lap := nth e.laps n { }

/-- The firings in flight of an opcode on a lap buffer; for LBPUT and LBGET the `.last` ones, for CPY the `.inlb`
ones. Their effect on the counters is still to come. -/
def Element.lapFlight (e : Element) (opc n : Nat) : Nat :=
  (e.inflight.filter (fun f =>
    f.word.extractLsb' 79 9 = BitVec.ofNat 9 opc && f.word.extractLsb' 27 3 = BitVec.ofNat 3 n &&
    (if opc = 0x10D then f.word.extractLsb' 37 3 = 2 else f.word.getLsbD 32))).length

/-- The free count, less the slots that firings in flight are about to take (R152, R153). -/
def Element.lapFree (e : Element) (n : Nat) : Nat :=
  (e.lapCfg n).nslot - (e.lap n).filled - (e.lap n).resv - e.lapFlight 0x109 n - e.lapFlight 0x10D n

/-- The slot that an LBPUT or LBGET selected now uses (R153). -/
def Element.putSlot (e : Element) (n : Nat) : Nat :=
  ((e.lap n).wridx + e.lapFlight 0x109 n + e.lapFlight 0x10D n) % (e.lapCfg n).nslot

def Element.getSlot (e : Element) (n : Nat) : Nat :=
  ((e.lap n).rdidx + e.lapFlight 0x10A n) % (e.lapCfg n).nslot

/-- The local address of a granule of a slot (R152). -/
def lapAddr (c : LapCfg) (slot off : Nat) : Nat := sramWrap ((c.base + slot * (c.slotg + 1) + off) * 64)

/-- The fault of a lap-buffer instruction: a descriptor without V, or OFF above SLOTG (R308). -/
def lapFault (w : Slot) (c : LapCfg) : Option (Nat × Nat × Nat) :=
  if !c.v then some opDescriptor else if c.slotg < seOff w then some opRange else none

def Element.modLap (e : Element) (n : Nat) (f : Lap → Lap) : Element := { e with laps := upd e.laps n f }

def execLbput (w : Slot) (s : State) : Res :=
  tileBack w (fun f e t =>
    let n := seDesc w
    let c := e.lapCfg n
    let l := tokenAddrs (lapAddr c (nth f.extra 0 0) (seOff w)) (validAt f.a.lanes)
    let fill (p : Lap) : Lap := if w.x then { p with filled := p.filled + 1, wridx := (p.wridx + 1) % c.nslot } else p
    ({ fault := lapFault w c, elem := (·.modLap n fill), sink := 0 },
     ((t.storeLanes l f.a.lanes f.a.isPoison).bankEvents (granuleCount l) 0 (granuleCount l)).count 7 2 w.x.toNat)) s

def execLbget (w : Slot) (s : State) : Res :=
  tileBack w (fun f e t =>
    let n := seDesc w
    let c := e.lapCfg n
    let r := t.loadLanes (tokenAddrs (lapAddr c (nth f.extra 0 0) (seOff w)) (fun _ => true))
    let release (p : Lap) : Lap :=
      if w.x then
        let next := (p.rdidx + 1) % c.nslot
        { p with filled := p.filled - 1, rdidx := next, lap := if next = 0 then (p.lap + 1) % 256 else p.lap }
      else p
    ({ res := built r.1, poison := r.2, fault := lapFault w c, elem := (·.modLap n release) },
     (t.bankEvents 1 1 0).count 7 3 w.x.toNat)) s

/-! ## The granule events of a firing (R149, R151, R304) -/

/-- The accesses of an instruction that works lane by lane. -/
def laneOpOf (opc : Nat) (w : Slot) (f : Firing) : Option LaneOp :=
  match opc with
  | 0x100 => some (ldsOp w f)
  | 0x101 => some (stsOp w f)
  | 0x102 => some (ldsxOp w f)
  | 0x103 => some (stsxOp w f)
  | 0x104 => some (atmsOp w f)
  | 0x105 => some (cassOp w f)
  | 0x106 => some { tasOp w f with checked := [] }
  | _ => none

/-- The granules that a firing has still to access in its own tile, in order; one that will fault makes no access. -/
def Tile.granules (t : Tile) (e : Element) (opc : Nat) (w : Slot) (f : Firing) : List Nat :=
  if f.fault.isSome then []
  else match laneOpOf opc w f with
    | some o => if (o.fault f).isSome then [] else granuleOrder (f.left o.places)
    | none =>
      if opc = 0x107 then (if (e.hashCfg w).v then (t.hinsAll (e.hashCfg w) w f).granules.drop f.served else [])
      else if opc = 0x108 then (if (e.hashCfg w).v then (t.hfindGranules (e.hashCfg w) w f).drop f.served else [])
      else if (opc = 0x109 || opc = 0x10A) && (lapFault w (e.lapCfg (seDesc w))).isNone then
        [lapAddr (e.lapCfg (seDesc w)) (nth f.extra 0 0) (seOff w) / 64]
      else []

/-- A key of a firing performs, of HINS with its slot written (R307): what it gives, poison, and the tile. -/
def Tile.serveKey (t : Tile) (c : HashCfg) (insert : Bool) (w : Slot) (f : Firing) (l : Nat) : HashLane × Bool × Tile :=
  if insert then t.hins c l (f.key c l) (wordAt f.b.lanes l) (f.poisoned w)
  else ((t.hfind c l (f.key c l)).1, (t.hfind c l (f.key c l)).2, t)

/-- A granule event of a firing before its last: a bank serves it, and its lanes perform; a key of two granules performs with the
second, so that no other access falls between (R151, R182). -/
def Tile.serve (t : Tile) (e : Element) (opc : Nat) (w : Slot) (f : Firing) : Firing × Tile :=
  let first := f.early.isEmpty && f.served = 0
  match laneOpOf opc w f with
  | some o =>
    let r := o.perform (o.event f) t first
    ({ f with early := f.early ++ r.1.map (fun x => (x.1, x.2, 0)), earlyBad := f.earlyBad || r.2.1 }, r.2.2)
  | none =>
    let c := e.hashCfg w
    let insert := opc = 0x107
    match (f.keysLeft (if insert then validAt f.a.lanes else f.valid w)).head? with
    | none => (f, t)
    | some l =>
      if f.served + 1 < (t.keyGranules c (f.key c l)).length then ({ f with served := f.served + 1 }, t.bankEvents 1 1 0 first)
      else
        let x := t.serveKey c insert w f l
        let wrote := insert && x.1.res == 0 && !x.2.1 && !f.poisoned w
        ({ f with early := f.early ++ [(l, x.1.res, x.1.res2)], earlyBad := f.earlyBad || x.2.1, served := 0 },
          x.2.2.bankEvents 1 1 wrote.toNat first)

/-- LBSTAT: the counters as SELECTION read them into `extra` (R308). -/
def execLbstat (w : Slot) (s : State) : Res :=
  writeBack w (fun f e =>
    { res := built (lanesOfList ((f.extra.take 6).map (BitVec.ofNat 32))),
      fault := if (e.lapCfg (seDesc w)).v then none else some opDescriptor }) s

end Sys2Proof.Machine
end

