-- ==== Sys2Proof/Machine/Format.lean ====
section
/-! DEFINITION. Storage formats: widening on load, narrowing on store, block formats and the alignment of
plane and weight operands (R192 to R205). -/

namespace Sys2Proof.Machine

/-! ## Formats (R192, R193) -/

/-- Bits of an element divided by 4. -/
def fmtNibbles (f : Nat) : Nat :=
  match f with
  | 0 | 1 | 2 => 8
  | 3 => 16
  | 4 | 5 | 10 => 4
  | 11 | 12 => 1
  | _ => 2

/-- Bytes of an element of a format that is not a block format. -/
def fmtBytes (f : Nat) : Nat := fmtNibbles f / 2

def isBlock (f : Nat) : Bool := f == 11 || f == 12

/-- The narrow float format of a code. -/
def narrowFmt (f : Nat) : Option Fmt :=
  match f with
  | 4 => some fmtBF16
  | 5 => some fmtFP16
  | 6 => some fmtE4M3
  | 7 => some fmtE5M2
  | _ => none

/-- The value of an E4M3 byte: no infinity, and only mantissa 7 of exponent 15 is NaN (R193). -/
def unpackE4M3 (b : Nat) : FVal :=
  let man := b % 8
  let ex := b / 8 % 16
  let neg := b / 128 % 2 = 1
  if ex = 15 && man = 7 then .nan false
  else if ex = 0 then .num neg man (-9)
  else .num neg (man + 8) (Int.ofNat ex - 10)

/-- The value of a narrow float. -/
def unpackNarrow (f : Nat) (b : Nat) : FVal :=
  match narrowFmt f with
  | some m => if f = 6 then unpackE4M3 b else m.unpack b
  | none => .num false 0 0

/-- A value as binary32; a value that is no binary32 is rounded (R194, R196). -/
def asSingle (v : FVal) : Nat × Word := fmtS.ofVal .rne v

/-- The lane of an element of a format of 32 bits or fewer that is no block format (R192, R194). -/
def widenElem (f : Nat) (b : Nat) : Word :=
  match f with
  | 8 => (BitVec.ofNat 8 b).signExtend 32
  | 9 => BitVec.ofNat 32 (b % 256)
  | 10 => (BitVec.ofNat 16 b).signExtend 32
  | 4 | 5 | 6 | 7 => BitVec.ofNat 32 (asSingle (unpackNarrow f b)).1
  | _ => BitVec.ofNat 32 b

/-! ## Counts -/

def Counts.add (a b : Counts) : Counts :=
  ⟨a.sat + b.sat, a.nann + b.nann, a.under + b.under, a.stoch + b.stoch, a.alignx + b.alignx, a.hovf + b.hovf⟩

/-- The flags that counts set (R213). -/
def Counts.flags (c : Counts) : Word :=
  flagIf (c.sat ≠ 0) flagOF ||| flagIf (c.nann ≠ 0) flagNV ||| flagIf (c.under ≠ 0) flagUF

/-- What a conversion gives: the code, its counts and flags, and the generator state after it. -/
structure Narrowed where
  code : Nat
  counts : Counts := { }
  flags : Word := 0
  gen : Word
deriving DecidableEq, Repr

/-! ## Narrowing (R197 to R199) -/

/-- One advance of the generator (R199). -/
def advanceGen (s : Word) : Word :=
  let fb := (s >>> 31 ^^^ s >>> 21 ^^^ s >>> 1 ^^^ s) &&& 1
  (s <<< 1) ||| fb

/-- The generator's value before a narrowed element: advanced under STO (R199). -/
def genFor (rndf : Nat) (s : Word) : Word := if rndf = 2 then advanceGen s else s

/-- A magnitude (num / den) × 2^k in whole units, rounded in the mode of RNDF: 0 RNE, 1 RTZ, 2 STO against the
generator state; and whether it was inexact (R197, R199). -/
def roundRatio (rndf : Nat) (gen : Word) (num den : Nat) (k : Int) : Nat × Bool :=
  let n := if 0 ≤ k then num * 2 ^ k.toNat else num
  let d := if 0 ≤ k then den else den * 2 ^ (-k).toNat
  let q := n / d
  let r := n % d
  let up : Bool := match rndf with
    | 0 => d < 2 * r || (2 * r = d && q % 2 = 1)
    | 2 => r ≠ 0 && gen.toNat < r * 2 ^ 32 / d
    | _ => false
  (q + up.toNat, r ≠ 0)

/-- The largest finite code of a narrow float. -/
def maxCode (f : Nat) (m : Fmt) : Nat := if f = 6 then 0x7E else m.maxFinite false

/-- The canonical NaN of a narrow float (R193). -/
def nanCode (f : Nat) (m : Fmt) : Nat := if f = 6 then 0x7F else m.nan

/-- A binary32 lane narrowed to BF16, FP16, E4M3 or E5M2 (R197, R199). -/
def narrowFloat (f : Nat) (m : Fmt) (rndf : Nat) (gen : Word) (x : Word) : Narrowed :=
  let gen := genFor rndf gen
  match fmtS.unpack x.toNat with
  | .nan _ | .inf _ => { code := nanCode f m, counts := { nann := 1 }, flags := flagNV, gen }
  | .num neg man e =>
    let sign := m.signBit neg
    if man = 0 then { code := sign, gen }
    else
      let q := max (ilog man e - Int.ofNat m.mb) m.emin
      let (n, inexact) := roundRatio rndf gen man 1 (e - q)
      let (n, q) := if 2 ^ (m.mb + 1) ≤ n then (2 ^ m.mb, q + 1) else (n, q)
      let stoch := if rndf = 2 && inexact then 1 else 0
      if 2 ^ m.mb ≤ n && maxCode f m < m.pack false n q then
        { code := sign + maxCode f m, counts := { sat := 1, stoch }, flags := flagOF ||| flagNX, gen }
      else if n = 0 then
        { code := sign, counts := { under := 1, stoch }, flags := flagUF ||| flagNX, gen }
      else
        { code := sign + m.pack false n q, counts := { stoch },
          flags := flagIf inexact flagNX ||| flagIf (inexact && n < 2 ^ m.mb) flagUF, gen }

/-- An integer clamped to n bits, signed or unsigned (R198). -/
def narrowInt (signed : Bool) (n : Nat) (rndf : Nat) (gen : Word) (x : Word) : Narrowed :=
  let v := if signed then x.toInt else Int.ofNat x.toNat
  let lo : Int := if signed then -(2 ^ (n - 1)) else 0
  let hi : Int := if signed then 2 ^ (n - 1) - 1 else 2 ^ n - 1
  let y := max lo (min v hi)
  let changed : Bool := y ≠ v
  { code := (y % 2 ^ n).toNat, counts := { sat := if changed then 1 else 0 }, flags := flagIf changed flagOF,
    gen := genFor rndf gen }

/-- One lane narrowed to a format of 32 bits or fewer that is no block format (R192). -/
def narrowElem (f rndf : Nat) (gen x : Word) : Narrowed :=
  match f, narrowFmt f with
  | _, some m => narrowFloat f m rndf gen x
  | 8, none => narrowInt true 8 rndf gen x
  | 9, none => narrowInt false 8 rndf gen x
  | 10, none => narrowInt true 16 rndf gen x
  | _, none => { code := x.toNat, gen }

/-! ## Block formats (R195, R196, R200) -/

/-- The magnitudes of E2M1 in halves, by code (R193). -/
def e2m1Halves : List Nat := [0, 1, 2, 3, 4, 6, 8, 12]

/-- The value of a 4-bit element (R195). -/
def unpackNibble (f : Nat) (b : Nat) : FVal :=
  if f = 11 then .num (8 ≤ b) (nth e2m1Halves (b % 8) 0) (-1)
  else if 8 ≤ b then .num true (16 - b) 0 else .num false b 0

/-- The value of a block scale byte as (significand, exponent) (R195). -/
def scaleVal (c : Nat) : Nat × Int :=
  if c < 32 then (c, -8) else (32 + c % 32, Int.ofNat (c / 32) - 9)

/-- A lane with the counts and flags of its conversion. -/
structure Widened where
  lane : Word
  counts : Counts := { }
  flags : Word := 0
deriving DecidableEq, Repr

/-- A 4-bit element widened: q × s × B, rounded once; a zero block gives +0 (R196). -/
def widenBlock (f elem scale band : Nat) : Widened :=
  if scale = 0 then { lane := 0 }
  else
    let sv := scaleVal scale
    let x := mulVal (mulVal (unpackNibble f elem) (.num false sv.1 sv.2)).1 (fmtBF16.unpack band)
    let r := asSingle x.1
    let fromNum : Bool := match x.1 with
      | .num _ m _ => m ≠ 0
      | _ => false
    let sat : Bool := fromNum && fmtS.inf false ≤ r.1 % 2 ^ 31
    let under : Bool := fromNum && r.1 % 2 ^ 31 = 0
    { lane := BitVec.ofNat 32 r.1, counts := { sat := sat.toNat, under := under.toNat }, flags := x.2 ||| r.2 }

/-- m1 × 2^e1 ≥ m2 × 2^e2. -/
def geDyadic (m1 : Nat) (e1 : Int) (m2 : Nat) (e2 : Int) : Bool :=
  if e2 ≤ e1 then m2 ≤ m1 * 2 ^ (e1 - e2).toNat else m2 * 2 ^ (e2 - e1).toNat ≤ m1

/-- The largest of magnitudes given as (significand, exponent). -/
def maxDyadic (l : List (Nat × Int)) : Nat × Int :=
  l.foldl (fun (a x : Nat × Int) => if geDyadic a.1 a.2 x.1 x.2 then a else x) (0, 0)

/-- The finite magnitudes among lanes. -/
def finiteMags (l : List Word) : List (Nat × Int) :=
  l.filterMap (fun x => match fmtS.unpack x.toNat with
    | .num _ m e => some (m, e)
    | _ => none)

/-- A band scale that a storing stream may use: finite, positive and normal (R200). -/
def bandOk (band : Nat) : Bool :=
  match fmtBF16.unpack band with
  | .num neg m _ => !neg && 128 ≤ m
  | _ => false

/-- The band scale as (significand, exponent). -/
def bandVal (band : Nat) : Nat × Int :=
  match fmtBF16.unpack band with
  | .num _ m e => (m, e)
  | _ => (0, 0)

/-- The block scale code for the valid elements of a block (R200). -/
def chooseScale (f band : Nat) (l : List Word) : Nat :=
  let a := maxDyadic (finiteMags l)
  if a.1 = 0 then 0
  else
    let b := bandVal band
    let limit := if f = 11 then 6 else 7
    match ((List.range 255).map (· + 1)).find? (fun c =>
        geDyadic (limit * (scaleVal c).1 * b.1) ((scaleVal c).2 + b.2) a.1 a.2) with
    | some c => c
    | none => 0xFF

/-- A magnitude num / den × 2^k, in halves, rounded to the grid of E2M1; the answer is the code (R200). -/
def gridCode (rndf : Nat) (gen : Word) (num den : Nat) (k : Int) : Nat × Bool :=
  -- in halves the grid is 0 1 2 3 4 6 8 12: unit 1 below 4, 2 below 8, 4 above
  let whole := (roundRatio 1 gen num den (k + 1)).1
  let sh : Nat := if whole < 4 then 0 else if whole < 8 then 1 else 2
  let (n, inexact) := roundRatio rndf gen num den (k + 1 - Int.ofNat sh)
  ((e2m1Halves.findIdx? (· == n * 2 ^ sh)).getD 7, inexact)

/-- One element of a block narrowed as v / (val(c) × B) (R200). -/
def narrowBlock (f rndf scale band : Nat) (gen x : Word) : Narrowed :=
  let gen := genFor rndf gen
  match fmtS.unpack x.toNat with
  | .nan _ => { code := if scale = 0 then 0 else if f = 11 then 7 else 0, counts := { nann := 1 }, flags := flagNV, gen }
  | .inf neg =>
    { code := if scale = 0 then 0 else if f = 11 then (if neg then 0xF else 7) else (if neg then 8 else 7),
      counts := { nann := 1 }, flags := flagNV, gen }
  | .num neg m e =>
    if scale = 0 then { code := 0, gen }
    else
      let sv := scaleVal scale
      let bv := bandVal band
      let den := sv.1 * bv.1
      let k := e - sv.2 - bv.2
      if f = 11 then
        let sign := if neg then 8 else 0
        if !geDyadic (6 * den) 0 m k then
          { code := sign + 7, counts := { sat := 1 }, flags := flagOF ||| flagNX, gen }
        else
          let (c, inexact) := gridCode rndf gen m den k
          let under : Bool := m ≠ 0 && c = 0
          { code := sign + c, counts := { under := under.toNat, stoch := (rndf = 2 && inexact : Bool).toNat },
            flags := flagIf inexact flagNX ||| flagIf (inexact && c < 2) flagUF, gen }
      else
        let (n, inexact) := roundRatio rndf gen m den k
        let limit := if neg then 8 else 7
        let sat : Bool := limit < n
        let n := min n limit
        let under : Bool := m ≠ 0 && n = 0
        { code := if neg then (16 - n) % 16 else n,
          counts := { sat := sat.toNat, under := under.toNat, stoch := (rndf = 2 && inexact : Bool).toNat },
          flags := flagIf (inexact || sat) flagNX ||| flagIf sat flagOF ||| flagIf under flagUF, gen }

/-! ## Plane and weight operands (R202, R203) -/

/-- An exact element value: sign, significand, exponent; none is NaN or infinite. -/
abbrev Elem := Option (Bool × Nat × Int)

def elemOf : FVal → Elem
  | .num n m e => some (n, m, e)
  | _ => none

/-- What a block of 8 values aligns to: the exponent byte D, the significands, the counts, or the code of a
stream-family fault. -/
structure Aligned where
  d : Int := -128
  q : List Int := List.replicate 8 0
  counts : Counts := { }
  fault : Option Nat := none
deriving DecidableEq, Repr

/-- The significand of a value at exponent E, rounded to nearest even, and whether it is inexact (R202). -/
def signifAt (e : Int) (v : Bool × Nat × Int) : Int × Bool :=
  let r := roundAt .rne v.1 e v.2.1 v.2.2 false
  (if v.1 then -(Int.ofNat r.1) else Int.ofNat r.1, r.2)

/-- Codes of the stream family (R220). -/
def cFARRUN : Nat := 3
def cBANDSCALE : Nat := 4
def cPLANENAN : Nat := 5
def cPLANERANGE : Nat := 6
def cSETUP : Nat := 7

/-- Eight values aligned to a shared exponent with p planes and exponent base eb (R202, R203). -/
def alignBlock (p : Nat) (eb : Int) (vs : List Elem) : Aligned :=
  if vs.any (·.isNone) then { fault := some cPLANENAN }
  else
    let l := vs.filterMap id
    let m := maxDyadic (l.map (·.2))
    if m.1 = 0 then { }
    else
      let e := ilog m.1 m.2 - (Int.ofNat p - 2)
      let q := l.map (signifAt e)
      let tooBig := q.any (fun x => (2 : Int) ^ (p - 1) - 1 < x.1)
      let e := if tooBig then e + 1 else e
      let q := if tooBig then l.map (signifAt e) else q
      let alignx := if q.any (·.2) then 1 else 0
      let d := e - eb
      if 127 < d then { fault := some cPLANERANGE }
      else if d < -127 then { counts := { alignx, under := (l.filter (fun v => v.2.1 ≠ 0)).length } }
      else { d, q := q.map (·.1), counts := { alignx } }

/-- The exponent byte of a block. -/
def Aligned.expByte (a : Aligned) : Nat := (a.d % 256).toNat

/-- The eight values of K block b from a row of values. -/
def blockOf (row : List Elem) (b : Nat) : List Elem := (row.drop (8 * b)).take 8

/-- The lanes of a token whose 512 bits are a number. -/
def lanesOfNat (n : Nat) : Lanes := lanesOf (fun l => some (BitVec.ofNat 32 (n / 2 ^ (32 * l))))

/-- The number whose bits are given, bit 0 first. -/
def natOfBits (l : List Bool) : Nat := l.foldr (fun b n => b.toNat + 2 * n) 0

/-- The number whose bytes are given, byte 0 first. -/
def natOfBytes (l : List Nat) : Nat := l.foldr (fun b n => b + 256 * n) 0

def tagG1 : Tag := 1

/-- The tokens of a PLANELD group: the exponent token, then planes p − 1 down to 0 (R204). `rows` are the 8 rows of
8 aligned blocks. -/
def planeTokens (p : Nat) (rows : List (List Aligned)) : List Token :=
  let exps := natOfBytes (rows.flatMap (fun r => r.map (·.expByte)))
  let plane (b : Nat) : Nat := natOfBits (rows.flatMap (fun r => r.flatMap (fun a =>
    a.q.map (fun q => (q / 2 ^ b) % 2 = 1))))
  ⟨lanesOfNat exps, tagG1, none⟩ :: (List.range p).reverse.map (fun b => ⟨lanesOfNat (plane b), 0, none⟩)

/-- The tokens of one weight block: 16 of exponents, 192 of 12-bit significands (R205). `cols` are the 128 columns
of 8 aligned blocks; `sh` is the lowest significand bit that the block carries. -/
def weightTokens (cols : List (List Aligned)) (sh : Nat) : List Token :=
  let exps := natOfBytes ((List.range 8).flatMap (fun b => cols.map (fun c => (nth c b { }).expByte)))
  let sig (a : Aligned) (k : Nat) : Nat := (nth a.q k 0 / 2 ^ sh % 4096).toNat
  -- the stream of significands, k outermost
  let row (k : Nat) : Nat := (cols.map (fun c => sig (nth c (k / 8) { }) (k % 8))).foldr (fun v n => v + 4096 * n) 0
  let perRow := 2 ^ 1536
  let stream := ((List.range 64).map row).foldr (fun v n => v + perRow * n) 0
  (List.range 16).map (fun t => ⟨lanesOfNat (exps / 2 ^ (512 * t)), tagG1, none⟩) ++
  (List.range 192).map (fun t => ⟨lanesOfNat (stream / 2 ^ (512 * t)), 0, none⟩)

end Sys2Proof.Machine
end

