-- ==== Sys2Proof/Machine/Access.lean ====
section
/-! DEFINITION. Memory operations on their way: translation through a stream's entry (R165), issue, the scopes at
which accesses have performed (R176), answers (R301, R302) and fences (R180). -/

namespace Sys2Proof.Machine

/-! ## Streams -/

def Element.stream (e : Element) (k : Nat) : Stream := nth e.streams k { }

def Element.modStream (e : Element) (k : Nat) (f : Stream → Stream) : Element := { e with streams := upd e.streams k f }

/-- The quarter of an element. -/
def quarterOf (eid : Nat) : Nat := clusterOf (tileOf eid) / 4

/-- The VF of the task that an element runs. -/
def State.vfOf (s : State) (eid : Nat) : Nat := ((s.instOf eid).map (·.vf)).getD 511

/-- Whether a stream's translation entry holds an address (R165). -/
def Stream.covers (t : Stream) (va : Nat) : Bool :=
  match t.page with
  | some p => p.start ≤ va && va < p.start + p.size
  | none => false

/-- The page of an address for a stream: its entry, or the walker's page, which then fills it (R165). -/
def State.streamPage (s : State) (eid k va : Nat) : Except Nat PageEntry × State :=
  let t := (s.elem eid).stream k
  match t.page, t.covers va with
  | some p, true => (.ok p, s)
  | _, _ =>
    match s.lookup (quarterOf eid) (s.vfOf eid) va with
    | (.ok p, s) =>
      (.ok p, (s.modElem eid (·.modStream k (fun t => { t with page := some p }))).countTile (tileOf eid) 4 2 1)
    | (.error c, s) => (.error c, s)

/-! ## What waits before a home (R163, R176) -/

/-- Whether an access of a tile to a granule has entered the track and not yet come to its home or to the link: what the tile does
later to that granule comes after it (R176). -/
def State.trackBusy (s : State) (tile : Nat) (h : Home) : Bool :=
  s.accs.any (fun a => a.2.stage == .track && tileOf a.2.eid = tile && (match a.2.home, h with
    | .hbm x, .hbm y => x / 64 = y / 64
    | .remote p _ x _, .remote q _ y _ => p = q && x / 64 = y / 64
    | _, _ => false))

/-- Whether an access by an agent of a tile, or by none of a tile, that goes over no track waits before its home or the link: for a
scrub, or for accesses of the tile before it to the granule (R163, R176). -/
def State.homeWaits (s : State) (tile : Option Nat) (h : Home) : Bool :=
  (tile.map (fun t => s.trackBusy t h)).getD false ||
  match h with
  | .hbm pa => s.scrubbing pa
  | _ => false

/-! ## Translation of a stream's accesses -/

/-- What the checks of R162 ask of an access. -/
def AccKind.want : AccKind → AccessWant
  | .load _ _ => .load
  | .store _ _ | .merge _ _ => .store
  | .atomic _ _ _ | .cas _ _ => .atomic

/-- The opcode of a firing. -/
def Firing.opc (f : Firing) : Nat := (f.word.extractLsb' 79 9).toNat

/-- On device MMIO, LDG and STG need format 0 or 1, and a pair's valid bits must agree (R322). -/
def mmioFault (fmt : Nat) (lanes : Lanes) (va : Nat) : Option (Nat × Nat × Nat) :=
  if 1 < fmt then some (fMEMORY, cMMIOKIND, va)
  else if (List.range 8).any (fun k => validAt lanes (2 * k) != validAt lanes (2 * k + 1)) then some opRange
  else none

/-- An access of a stream is translated and checked (R157, R161, R162). -/
def State.resolve (s : State) (op : MemOp) (va : Nat) (k : AccKind) : Except (Nat × Nat × Nat) Home × State :=
  if 2 ^ 49 ≤ va then (.error (fMEMORY, cVARANGE, va), s)
  else
    match s.streamPage op.eid op.port va with
    | (.error c, s) => (.error (fMEMORY, c, va), s)
    | (.ok p, s) =>
      match s.checkLeaf (s.vfOf op.eid) p va k.want (op.firing.opc = 0x110 || op.firing.opc = 0x111) with
      | .error c => (.error (fMEMORY, c, va), s)
      | .ok (.mmio pa) =>
        match mmioFault ((s.elem op.eid).stream op.port).cfg.fmt op.lanes va with
        | some f => (.error f, s)
        | none => (.ok (.mmio pa), s)
      | .ok h => (.ok h, s)

/-! ## The egress buffer and the track (R138, R139) -/

/-- Where a message of an access goes: a stack's endpoint, the MMIO registers, the Aqric ports or a tile (R10). -/
def Home.dst : Home → Nat
  | .hbm pa => 1024 + 2 * bitsOf pa 38 4 + bitsOf pa 8 1
  | .mmio _ => 2048
  | .remote _ _ _ _ => 3072
  | .sram t _ => t
  | .unset => 4096

/-- Flits of an access's message: one, and its data by 16 bytes (R138). -/
def AccKind.flits : AccKind → Nat
  | .load _ _ => 1
  | .store bs _ => 1 + (bs.length + 15) / 16
  | .merge bs _ => 1 + (bs.length + 15) / 16
  | .atomic _ l _ => 1 + (4 * l.length + 15) / 16
  | .cas l _ => 1 + (8 * l.length + 15) / 16

def State.msgFlits (s : State) (m : Msg) : Nat :=
  match m.body with
  | .far _ _ => 5
  | .credit _ _ _ => 1
  | .access a => ((s.accs.find a).map (·.kind.flits)).getD 1

/-- Flits in the request side of a tile's egress buffer. -/
def State.egressFlits (s : State) (t : Nat) : Nat := total ((s.tile t).egressReq.map s.msgFlits)

/-- A message enters the egress buffer of a tile. -/
def State.emitMsg (s : State) (t dst : Nat) (response : Bool) (body : MsgBody) : State :=
  let (n, s) := s.newId
  let m : Msg := ⟨n, t, dst, body⟩
  s.modTile t (fun t => if response then { t with egressResp := t.egressResp ++ [m] }
    else { t with egressReq := t.egressReq ++ [m] })

/-! ## Issue -/

/-- An operation that reaches device MMIO remembers it (R93). -/
def State.noteHome (s : State) (id : Nat) (h : Home) : State :=
  match h, s.ops.find id with
  | .mmio _, some op => { s with ops := s.ops.put id { op with mmio := true } }
  | _, _ => s

/-- An access of an operation comes to be, in the stage given. -/
def State.addAccess (s : State) (op : MemOp) (va : Nat) (k : AccKind) (home : Home) (stage : AccStage) : State :=
  let (n, s) := s.newId
  let s := s.noteHome op.id home
  let s := { s with accs := s.accs.put n ⟨n, op.id, op.eid, op.port, va, k, home, stage⟩ }
  if stage = .egress then s.emitMsg (tileOf op.eid) home.dst false (.access n) else s

/-- Whether a port has an access that waits for a walk. -/
def State.walking (s : State) (eid port : Nat) : Bool :=
  s.accs.any (fun a => a.2.eid = eid && a.2.port = port && a.2.stage == .walk)

/-- The accesses of an operation enter the egress buffer in their order, or wait for a walk; a fault stops this and the
later ones, and the earlier ones go on (R186). -/
def State.issueAll (s : State) (op : MemOp) : List (Nat × AccKind) → Option (Nat × Nat × Nat) × State
  | [] => (none, s)
  | (va, k) :: rest =>
    if s.walking op.eid op.port || (va < 2 ^ 49 && !((s.elem op.eid).stream op.port).covers va) then
      (none, ((va, k) :: rest).foldl (fun s x => s.addAccess op x.1 x.2 .unset .walk) s)
    else
      match s.resolve op va k with
      | (.error f, s) => (some f, s)
      | (.ok h, s) => (s.addAccess op va k h .egress).issueAll op rest

/-! ## Performing and answers (R176, R301, R302) -/

/-- Whether an access that has not yet performed at its home has performed at a scope (R176). -/
def Access.performedAt (a : Access) (scope : Nat) : Bool :=
  match a.home, a.stage with
  | .hbm _, .track => scope = 0
  | .remote _ _ _ _, .track => scope = 0
  | .remote _ _ _ _, .aqric _ => scope ≤ 2
  | _, _ => false

/-- The accesses of an operation that have not performed at their home. -/
def State.opAccs (s : State) (id : Nat) : List Access := (s.accs.filter (fun a => a.2.op = id)).map (·.2)

/-- The bytes of an operation's data at an offset. -/
def MemOp.bytesAt (op : MemOp) (off n : Nat) : Nat :=
  leNat ((List.range n).map (fun i => ((op.data.find? (fun b => b.1 = off + i)).map (·.2)).getD 0))

/-- The lanes of loaded data (R192). -/
def MemOp.widened (op : MemOp) (fmt : Nat) (l : List (Nat × Nat)) : Lanes :=
  if fmt = 3 then
    lanesOfPairs (fun k => (l.find? (fun x => x.1 = k)).map (fun x => BitVec.ofNat 64 (op.bytesAt x.2 8)))
  else lanesOf (fun k => (l.find? (fun x => x.1 = k)).map (fun x => widenElem fmt (op.bytesAt x.2 (fmtBytes fmt))))

/-- The answer token of an operation (R301, R302). -/
def MemOp.token (op : MemOp) (otag : Tag) : Token :=
  if op.refused then ⟨Lanes.empty, tagNull, none⟩
  else
    let lanes := match op.result with
      | .data f l => op.widened f l
      | .old => op.lanes
      | .ack a => ackLanes (some a.toNat)
      | .none => Lanes.empty
    ⟨lanes, if op.poison then tagPoison else otag, none⟩

/-- An answer arrives in its entry (R301). -/
def Element.answer (e : Element) (entry : Nat) (tok : Tag → Token) : Element :=
  { e with ans := e.ans.map (fun a =>
      if a.id = entry && a.token.isNone then { a with token := some (tok a.otag) } else a) }

/-- An operation whose accesses have all performed, at its scope where it acknowledges a store, gives its answer; it
ends with its last access (R179, R301). -/
def State.settleOp (s : State) (id : Nat) : State :=
  match s.ops.find id with
  | none => s
  | some op =>
    let left := s.opAccs id
    let ready : Bool := match op.result with
      | .ack _ => left.all (·.performedAt op.scope)
      | _ => left.isEmpty
    let s := match op.entry, ready with
      | some n, true => s.modElem op.eid (·.answer n op.token)
      | _, _ => s
    if left.isEmpty then { s with ops := s.ops.drop id } else s

/-- Whether everything that a fence waits for has performed (R180, R309): no firing before it in flight that accesses
memory, and no access before it short of its scope. -/
def State.fenceDone (s : State) (eid : Nat) (f : Fence) : Bool :=
  (s.elem eid).inflight.all (fun x => f.upTo ≤ x.seq || x.opc / 64 ≠ 4) &&
  (s.elem eid).reissue.all (fun o => f.upTo ≤ o.id) &&
  s.accs.all (fun a => a.2.eid ≠ eid || f.upTo ≤ a.2.op || a.2.performedAt f.scope)

/-- The fences of an element that are done give their tokens: SCOPE in lane 0 (R309, R319). -/
def State.settleFences (s : State) (eid : Nat) : State :=
  let e := s.elem eid
  if e.fences.isEmpty then s
  else
    let (yes, no) := e.fences.partition (s.fenceDone eid)
    let e := yes.foldl (fun (e : Element) f =>
      e.answer f.entry (fun t => ⟨lanesOfList [BitVec.ofNat 32 f.scope], t, none⟩)) { e with fences := no }
    s.setElem eid e

/-- An access has come a stage further or has ended. -/
def State.settle (s : State) (op eid : Nat) : State := (s.settleOp op).settleFences eid

/-! ## The write-back of an instruction that issues accesses -/

/-- What a firing issues. -/
structure Issue where
  port : Nat
  /-- The home where no translation is needed. -/
  home : Home := .unset
  scope : Nat := 0
  accs : List (Nat × AccKind) := []
  result : OpResult := .none
  lanes : Lanes := Lanes.empty
  poison : Bool := false
deriving DecidableEq, Repr

/-- The operation of a firing. -/
def Issue.op (i : Issue) (fo : Focus) (inst : Nat) : MemOp :=
  { id := fo.firing.seq, firing := fo.firing, inst, eid := fo.eid, port := i.port, entry := fo.firing.entry,
    scope := i.scope, result := i.result, data := [], lanes := i.lanes, poison := i.poison, refused := false,
    all := i.accs, mmio := false }

/-- A firing issues its accesses: the fault that stops it, or none. An operation without an access answers at once
(R300). -/
def State.issue (s : State) (fo : Focus) (i : Issue) : Option (Nat × Nat × Nat) × State :=
  match (s.elem fo.eid).inst with
  | none => (none, s)
  | some inst =>
    let op := i.op fo inst
    let s := { s with ops := s.ops.put op.id op }
    let r := if i.home = .unset then s.issueAll op i.accs
      else (none, i.accs.foldl (fun s x => s.addAccess op x.1 x.2 i.home .egress) s)
    match r with
    | (none, s) => (none, s.settleOp op.id)
    | (some f, s) =>
      let s := { s with ops := s.ops.put op.id { op with entry := none, result := .none } }
      (some f, s.settleOp op.id)

/-- A write-back that may also issue accesses; they go only where no fault stands before them. -/
def issueBack (w : Slot) (f : Firing → Element → Out × Option Issue) (s : State) : Res :=
  match s.focus with
  | none => .next s
  | some fo =>
    let r := f fo.firing (s.elem fo.eid)
    match r.2, r.1.fault, fo.firing.fault with
    | some i, none, none =>
      match s.issue fo i with
      | (some x, s) => .next (s.complete fo w { r.1 with fault := some x })
      | (none, s) => .next (s.complete fo w r.1)
    | _, _, _ => .next (s.complete fo w r.1)

end Sys2Proof.Machine
end

