-- ==== Sys2Proof/Machine/Notices.lean ====
section
/-! DEFINITION. Active messages that the device sends (R41, R42), the answer to a received one, and the start of a
hold (R230, R233). -/

namespace Sys2Proof.Machine

/-! ## Device-to-host messages (R41) -/

def amCOMPLETE : BitVec 8 := 0x80
def amFAULTNOTE : BitVec 8 := 0x81
def amLEASENOTE : BitVec 8 := 0x82
def amNAK : BitVec 8 := 0x83

/-- An AM leaves for the card with the VF's next outgoing SEQ (R41, R42). -/
def State.sendAm (s : State) (v : Nat) (amop : BitVec 8) (operand : Word) (cont : DWord)
    (sender : Option (Nat × Option Nat)) :
    State :=
  s.modVf v (fun x => { x with out := x.out ++ [⟨amop, x.outSeq, operand, cont, sender⟩], outSeq := x.outSeq + 1 })

/-- NAK reasons (R41). -/
def nakUNDEFINED : Nat := 0x01
def nakSEQUENCE : Nat := 0x02
def nakVFOFF : Nat := 0x03
def nakADMIN : Nat := 0x04
def nakBADADDR : Nat := 0x05
def nakFULL : Nat := 0x06
def nakNOTACTIVE : Nat := 0x07
def nakURGENT : Nat := 0x08
def nakNOHANDLER : Nat := 0x09
def nakBUSY : Nat := 0x0A
def nakNOTREADY : Nat := 0x0B
def nakBADIMAGE : Nat := 0x0C
def nakOPERAND : Nat := 0x0D

/-- An answer arrives in its entry, which a save or a resume may have moved: names of entries are the package's. -/
def State.giveAnswer (s : State) (eid entry : Nat) (tok : Tag → Token) : State :=
  let has (e : Element) : Bool := e.ans.any (·.id = entry)
  if has (s.elem eid) then s.modElem eid (·.answer entry tok)
  else
    let give (e : Element) : Element := if has e then e.answer entry tok else e
    { s with
      elems := s.elems.map (fun x => (x.1, give x.2)),
      contexts := s.contexts.map (fun x => (x.1, { x.2 with elements := x.2.elements.map give })) }

/-- The answer of an AMSEND: status and SEQ (R343). -/
def State.answerSend (s : State) (eid : Nat) (entry : Option Nat) (status seq : Nat) : State :=
  match entry with
  | none => s
  | some n => s.giveAnswer eid n (fun t => ⟨lanesOfList [BitVec.ofNat 32 status, BitVec.ofNat 32 seq], t, none⟩)

/-- An AM took effect: an AMSEND hears it (R343). -/
def State.accept (s : State) (m : Am) : State :=
  match m.sender with
  | .element eid entry => s.answerSend eid entry 0 m.seq.toNat
  | .remote _ => { s with remoteOut := s.remoteOut ++ [.message 0 m.seq.toNat] }
  | .host => s

/-- An AM is refused: NAK to the VF, with the AM's CONT or the one given; an AMSEND gets the reason (R41, R343). A
message from another package is answered there. -/
def State.refuse (s : State) (m : Am) (reason : Nat) (cont : DWord) : State :=
  match m.sender with
  | .host => s.sendAm m.vf.toNat amNAK
      (BitVec.ofNat 32 (reason * 2 ^ 24 + m.amop.toNat * 2 ^ 16 + m.seq.toNat)) cont none
  | .element eid entry => s.answerSend eid entry reason m.seq.toNat
  | .remote _ => { s with remoteOut := s.remoteOut ++ [.message reason m.seq.toNat] }

/-- Refused with the message's own CONT. -/
def State.nak (s : State) (m : Am) (reason : Nat) : State := s.refuse m reason m.cont

/-! ## Holds (R91, R230, R233) -/

/-- Whether the instance runs and no stop of the hold-wave kind is under way. -/
def Inst.canHold (x : Inst) : Bool := (x.phase == .run || x.phase == .teardown) && x.stop == .none

/-- A hold wave starts through an instance, named by an element; `brk` says whether BRK asked for it. -/
def State.startHold (s : State) (i eid : Nat) (brk : Bool) : State :=
  s.modInst i (fun x => if x.canHold then { x with stop := .hold eid brk, waveLeft := x.elems, holdDone := false } else x)

end Sys2Proof.Machine
end

