-- ==== Sys2Proof/Machine/Flows.lean ====
section
/-! DEFINITION. Ethernet flows (R17 to R20, R323): templates, the frames that are sent, and the sender's and the receiver's state of a
flow. -/

namespace Sys2Proof.Machine

/-! ## The frames of an EGRESS stream (R17 to R20, R323) -/

/-- A field of the frame template. -/
def tmplField (t : List Byte) (off n : Nat) : Nat := leNat ((t.drop off).take n)

/-- The Twithen transport header (R18). -/
def ethHeader (len ackSeq seq flow : Nat) (last : Bool) (type : Nat) : BitVec 128 :=
  BitVec.ofNat 128 (1 + type * 2 ^ 4 + last.toNat * 2 ^ 8 + flow * 2 ^ 16 + seq * 2 ^ 32 + ackSeq * 2 ^ 64 + len * 2 ^ 96)

/-- Bytes as big-endian 16-bit numbers, the last one filled with zero. -/
def halves : List Byte → List Nat
  | [] => []
  | [a] => [a.toNat * 256]
  | a :: b :: rest => (a.toNat * 256 + b.toNat) :: halves rest

/-- A number as n bytes, most significant first. -/
def bigEndian (n v : Nat) : List Byte := (leBytes n v).reverse

/-- The UDP checksum of a frame: the one's complement of the one's complement sum of the IPv6 pseudo-header, the UDP header and its
data, and 0xFFFF for zero (R20). An address's first byte is its lowest. -/
def udpChecksum (f : EthFrame) : Nat :=
  let bytes := leBytes 16 f.srcIp.toNat ++ leBytes 16 f.dstIp.toNat ++ bigEndian 4 f.udpLength.toNat ++ bigEndian 4 f.nextHeader.toNat ++
    bigEndian 2 f.srcPort.toNat ++ bigEndian 2 f.dstPort.toNat ++ bigEndian 2 f.udpLength.toNat ++ leBytes 16 f.header.toNat ++ f.payload
  let sum := total (halves bytes) % 65535
  if sum = 0 then 65535 else 65535 - sum

/-- The frame with the lengths and the checksum that its contents require. -/
def EthFrame.sealed (f : EthFrame) : EthFrame :=
  let n := BitVec.ofNat 16 (24 + f.payload.length)
  let f := { f with ipLength := n, udpLength := n }
  { f with checksum := BitVec.ofNat 16 (udpChecksum f) }

/-- A frame of the device: headers as R20 gives them. 82 bytes of Ethernet, IPv6, UDP and Twithen headers and FCS stand
around the payload. -/
def deviceFrame (port dstMac srcIp dstIp flow : Nat) (header : BitVec 128) (payload : List Byte) : EthFrame :=
  EthFrame.sealed
    { dstMac := BitVec.ofNat 48 dstMac, srcMac := Config.ethMac port, version := 6, ipLength := 0, nextHeader := 17,
      srcIp := BitVec.ofNat 128 srcIp, dstIp := BitVec.ofNat 128 dstIp, tclass := 0, flowLabel := BitVec.ofNat 20 flow,
      hopLimit := 64, srcPort := BitVec.ofNat 16 (49152 + flow % 16384), dstPort := 49810, udpLength := 0, checksum := 0,
      pause := false, size := 82 + payload.length, header, payload }

/-! ## Flows (R19) -/

/-- The template of a stream as the port knows it (R323; log 114). -/
def State.template (s : State) (eid k : Nat) : Option (List Byte) := ((s.elem eid).stream k).tmpl

/-- Whether a template names a flow. -/
def namesFlow (tmpl : List Byte) (src dst : BitVec 128) (flow : BitVec 16) : Bool :=
  tmplField tmpl 8 16 = src.toNat && tmplField tmpl 0x18 16 = dst.toNat && tmplField tmpl 0x28 2 = flow.toNat

/-- The flow that a template names. -/
def templateKey (tmpl : List Byte) : FlowKey :=
  ⟨BitVec.ofNat 128 (tmplField tmpl 8 16), BitVec.ofNat 128 (tmplField tmpl 0x18 16), BitVec.ofNat 16 (tmplField tmpl 0x28 2)⟩

/-- The sender's state of a flow: a flow that has sent nothing starts at SEQ 0. -/
def State.txFlow (s : State) (k : FlowKey) : TxFlow := (s.txFlows.find? (·.key = k)).getD { key := k }

def State.setTxFlow (s : State) (x : TxFlow) : State := { s with txFlows := x :: s.txFlows.filter (·.key ≠ x.key) }

/-- The SEQ that the package takes next of a flow. -/
def State.rxNext (s : State) (k : FlowKey) : Word := ((s.rxFlows.find? (·.1 = k)).map (·.2)).getD 0

def State.setRxNext (s : State) (k : FlowKey) (n : Word) : State := { s with rxFlows := (k, n) :: s.rxFlows.filter (·.1 ≠ k) }

/-- Whether the flow of a stream takes n more frames (R19). -/
def State.flowRoom (s : State) (eid k n : Nat) : Bool :=
  match s.template eid k with
  | some t => (s.txFlow (templateKey t)).unacked.length + n ≤ 256
  | none => true

/-- The counts of a stream's flow in the present second, at the partition that owns the stream (R52). -/
def State.countFlow (s : State) (eid k : Nat) (f : FlowCount → FlowCount) : State :=
  let grow (l : List FlowCount) : List FlowCount :=
    if l.any (fun c => c.eid = eid && c.strm = k) then l.map (fun c => if c.eid = eid && c.strm = k then f c else c)
    else l ++ [f { eid, strm := k }]
  match s.instOf eid with
  | some x => s.modPart x.part (fun p => { p with flowCounts := grow p.flowCounts })
  | none => s

/-- The acknowledgement token of a PATST whose frame is acknowledged; the spec names no address for it. -/
def State.ackEntries (s : State) (eid : Nat) (entries : List Nat) : State :=
  entries.foldl (fun (s : State) n =>
    let (x, s) := s.takeFresh
    s.giveAnswer eid n (fun t => ⟨lanesOfList [Config.freeWord (2 * x), Config.freeWord (2 * x + 1)], t, none⟩)) s

/-- The current frame of a stream is sent on the flow of its template (R19, R323). -/
def State.sendFrame (s : State) (eid k : Nat) (tmpl : List Byte) (last : Bool) : State :=
  let g := ((s.elem eid).stream k).egress
  let x := s.txFlow (templateKey tmpl)
  let port := tmplField tmpl 6 1
  let flow := tmplField tmpl 0x28 2
  let f := deviceFrame port (tmplField tmpl 0 6) (tmplField tmpl 8 16) (tmplField tmpl 0x18 16) flow
    (ethHeader g.payload.length 0 x.nextSeq.toNat flow last 0) g.payload
  let s := { s with ethOut := s.ethOut ++ [(port, f)] }
  let s := s.setTxFlow { x with
    nextSeq := x.nextSeq + 1, unacked := x.unacked ++ [⟨port, x.nextSeq, f, eid, (s.elem eid).inst, g.entries⟩],
    lastAck := if x.unacked.isEmpty then s.now else x.lastAck, resends := if x.unacked.isEmpty then 0 else x.resends }
  let s := s.countFlow eid k (fun c => { c with txFrames := c.txFrames + 1, txBytes := c.txBytes + g.payload.length })
  s.modElem eid (·.modStream k (fun t => { t with egress := { } }))

end Sys2Proof.Machine
end

