-- ==== Sys2Proof/Machine/Agen.lean ====
section
/-! DEFINITION. The address-generator instructions (R312 to R323), with the patterns of their streams (R314). -/

namespace Sys2Proof.Machine

/-! ## Fields and checks (R299, R313) -/

def agStream (w : Slot) : Nat := w.imm.toNat / 2 ^ 28 % 4
def agOff (w : Slot) : Int := (w.imm.extractLsb' 0 28).toInt

def opSetup : Nat × Nat × Nat := (fSTREAM, cSETUP, 0)

/-- The checks of a set-up (R313). -/
def StreamCfg.setupFault (c : StreamCfg) : Option (Nat × Nat × Nat) :=
  if 12 < c.fmt || c.rndf = 3 then some opSetup
  else
    let s (k : Nat) : Int := nth c.stride k 0
    let bad := c.kind = 7 || (4 ≤ c.fmt && s 0 ≠ 1) ||
      (isBlock c.fmt && (nth c.ext 0 1 % 16 ≠ 0 || [1, 2, 3, 4].any (fun k => s k % 16 ≠ 0))) ||
      (c.kind = 2 && (c.planes < 1 || 56 < c.planes)) ||
      ((c.kind = 2 || c.kind = 3) && (c.fmt < 2 || 12 < c.fmt)) ||
      ((c.kind = 5 || c.kind = 6) && 2 < c.fmt)
    if bad then some opRange else none

/-- The fault of naming a stream: not configured, badly set up, or of another KIND (R313). -/
def Stream.useFault (t : Stream) (kinds : List Nat) : Option (Nat × Nat × Nat) :=
  if !t.cfg.v then some opDescriptor
  else match t.cfg.setupFault with
    | some f => some f
    | none => if kinds.contains t.cfg.kind then none else some opRange

/-- Base plus an element offset, as a 64-bit address (R314, R317). -/
def vaAt (base : Nat) (i : Int) (size : Nat) : Nat := ((Int.ofNat base + i * Int.ofNat size) % 2 ^ 64).toNat

/-- VA-RANGE, then ALIGN, of the first address that fails (R157). -/
def addrFault (vas : List Nat) : Option (Nat × Nat × Nat) :=
  (vas.findSome? (fun va => (vaCheck va).map (fun c => (fMEMORY, c, va))))

/-! ## Stores: narrowing and granules (R174, R197, R317) -/

/-- The bytes of a token's valid positions, with what narrowing counted and the generator after it. -/
structure Put where
  bytes : List (Nat × Byte) := []
  counts : Counts := { }
  flags : Word := 0
  gen : Word
  /-- Elements narrowed. -/
  narrowed : Nat := 0
deriving DecidableEq, Repr

/-- Narrow the valid ones of n positions to addresses (R197 to R199). -/
def narrowLanes (c : StreamCfg) (gen : Word) (b : Lanes) (addr : Nat → Nat) (n : Nat) : Put :=
  (List.range n).foldl (fun (p : Put) k =>
    if c.fmt = 3 then
      match pairAt b k with
      | some d => { p with bytes := p.bytes ++ spreadBytes (addr k) (leBytes 8 d.toNat) }
      | none => p
    else
      match laneAt b k with
      | some x =>
        let r := narrowElem c.fmt c.rndf p.gen x
        { bytes := p.bytes ++ spreadBytes (addr k) (leBytes (fmtBytes c.fmt) r.code), counts := p.counts.add r.counts,
          flags := p.flags ||| r.flags, gen := r.gen, narrowed := p.narrowed + if 4 ≤ c.fmt then 1 else 0 }
      | none => p) { gen }

/-- Bytes grouped by granule, one event for each, granules in the order of their first byte; a later byte to one
address wins (R174). -/
def storeGroups (poison : Bool) (bs : List (Nat × Byte)) : List (Nat × AccKind) :=
  ((bs.map (·.1 / 64)).eraseDups).map (fun g =>
    let l := bs.filter (fun b => b.1 / 64 = g)
    let va := l.foldl (fun (m : Nat) b => min m b.1) (64 * g + 63)
    (va, .store (l.map (fun b => (b.1 - va, b.2))) poison))

/-- The effect of narrowing on the element: generator, counts and flags. -/
def Put.apply (p : Put) (k : Nat) (e : Element) : Element :=
  { (e.modStream k (fun t => { t with gen := p.gen })) with counts := e.counts.add p.counts }

/-- The acknowledgement result under ACK. -/
def ackResult (w : Slot) (addr : Option Nat) : OpResult :=
  match w.ack, addr with
  | true, some a => .ack (BitVec.ofNat 64 a)
  | _, _ => .none

/-- A store's Out and issue. -/
def putOut (w : Slot) (k : Nat) (p : Put) (accs : List (Nat × AccKind)) (addr : Option Nat) (lanes : Lanes)
    (poison : Bool) : Out × Option Issue :=
  ({ flags := p.flags, elem := p.apply k, sink := 0, tile := [(4, 1, 1), (4, 4, p.narrowed), (4, 5, p.counts.sat)] },
   some { port := k, scope := scopeOf w, accs, result := ackResult w addr, lanes, poison })

def faultOut (f : Nat × Nat × Nat) : Out × Option Issue := ({ fault := some f }, none)

/-- An INDEX instruction's write-back: the stream's checks, the formats that the instruction takes, and a POISON address
before anything else (R170, R317). -/
def indexBack (w : Slot) (fmtOk : Nat → Bool) (f : Firing → Element → Stream → Out × Option Issue) (s : State) : Res :=
  issueBack w (fun fi e =>
    let t := e.stream (agStream w)
    match t.useFault [4] with
    | some x => faultOut x
    | none =>
      if !fmtOk t.cfg.fmt then faultOut opRange
      else if fi.a.isPoison then faultOut (fMEMORY, cPOISONCTL, 0)
      else f fi e t) s

/-- The index i of LDG and STG; none where lane 0 is invalid (R300, R317). -/
def scalarIndex (w : Slot) (f : Firing) : Option Int := (laneAt f.a.lanes 0).map (fun a => a.toInt + agOff w)

/-- The addresses of an indexed access, lane by lane (R317). -/
def laneIndex (w : Slot) (c : StreamCfg) (f : Firing) (ok : Nat → Bool) (size : Nat) : List (Nat × Nat) :=
  ((List.range 16).filter ok).map (fun l => (l, vaAt c.base ((wordAt f.a.lanes l).toInt + agOff w) size))

/-- Formats of LDG and STG, and of GATH and SCAT (R317). -/
def tokenFmt (f : Nat) : Bool := f ≤ 10
def laneFmt (f : Nat) : Bool := f ≤ 2

def execLdg (w : Slot) (s : State) : Res :=
  indexBack w tokenFmt (fun f _ t =>
    let k := agStream w
    match scalarIndex w f with
    | none => ({ }, some { port := k })
    | some i =>
      let size := fmtBytes t.cfg.fmt
      let va := vaAt t.cfg.base i size
      match addrFault [va] with
      | some x => faultOut x
      | none =>
        let n := rowLanes t.cfg.fmt
        ({ tile := [(4, 0, 1)] },
         some { port := k, accs := (granulesOf va (n * size)).map (fun g => (g.1, .load (g.1 - va) g.2)),
                result := .data t.cfg.fmt ((List.range n).map (fun l => (l, l * size))), lanes := Lanes.all 0 })) s

def execStg (w : Slot) (s : State) : Res :=
  indexBack w tokenFmt (fun f _ t =>
    let k := agStream w
    match scalarIndex w f with
    | none => ({ sink := 0 }, some { port := k, scope := scopeOf w, poison := f.b.isPoison })
    | some i =>
      let size := fmtBytes t.cfg.fmt
      let va := vaAt t.cfg.base i size
      match addrFault [va] with
      | some x => faultOut x
      | none =>
        let p := narrowLanes t.cfg t.gen f.b.lanes (fun l => va + l * size) (rowLanes t.cfg.fmt)
        putOut w k p (storeGroups f.b.isPoison p.bytes) (some va) f.b.lanes f.b.isPoison) s

def execGath (w : Slot) (s : State) : Res :=
  indexBack w laneFmt (fun f _ t =>
    let l := laneIndex w t.cfg f (validAt f.a.lanes) 4
    match addrFault (l.map (·.2)) with
    | some x => faultOut x
    | none =>
      ({ tile := [(4, 0, 1)] },
       some { port := agStream w, accs := l.map (fun x => (x.2, .load (4 * x.1) 4)),
              result := .data t.cfg.fmt (l.map (fun x => (x.1, 4 * x.1))), lanes := Lanes.all 0 })) s

def execScat (w : Slot) (s : State) : Res :=
  indexBack w laneFmt (fun f _ t =>
    let l := laneIndex w t.cfg f (fun k => validAt f.a.lanes k && validAt f.b.lanes k) 4
    match addrFault (l.map (·.2)) with
    | some x => faultOut x
    | none =>
      let bytes := l.flatMap (fun x => spreadBytes x.2 (leBytes 4 (wordAt f.b.lanes x.1).toNat))
      putOut w (agStream w) { gen := t.gen } (storeGroups f.b.isPoison bytes) (pickAddr f.seq l) f.b.lanes
        f.b.isPoison) s

/-! ## Atomics (R318) -/

/-- The lanes of ATMG and CASG in groups of one granule, in the order of their lowest lane. -/
def laneGroups (l : List (Nat × Nat)) : List (Nat × List (Nat × Nat)) :=
  ((l.map (·.2 / 64)).eraseDups).map (fun g =>
    let m := l.filter (fun x => x.2 / 64 = g)
    let va := m.foldl (fun (v : Nat) x => min v x.2) (64 * g + 63)
    (va, m.map (fun x => (x.1, x.2 - va))))

/-- The Out and issue of an atomic: the old values are its answer (R302). Its token counts as stored, and as loaded where the
old values return (R337; log 125). -/
def atomicIssue (w : Slot) (f : Firing) (t : Stream) (poison : Bool) (kind : List (Nat × Nat) → AccKind) :
    Out × Option Issue :=
  let l := laneIndex w t.cfg f (f.valid w) 4
  match addrFault (l.map (·.2)) with
  | some x => faultOut x
  | none =>
    ({ tile := [(4, 0, w.da.isOut.toNat), (4, 1, 1)] },
     some { port := agStream w, accs := (laneGroups l).map (fun g => (g.1, kind g.2)), result := .old, poison })

def execAtmg (w : Slot) (s : State) : Res :=
  indexBack w (fun _ => true) (fun f _ t =>
    atomicIssue w f t f.b.isPoison (fun m =>
      .atomic (atomicCode w) (m.map (fun x => (x.1, x.2, wordAt f.b.lanes x.1))) f.b.isPoison)) s

def execCasg (w : Slot) (s : State) : Res :=
  indexBack w (fun _ => true) (fun f _ t =>
    let poison := f.b.isPoison || f.c.isPoison
    atomicIssue w f t poison (fun m =>
      .cas (m.map (fun x => (x.1, x.2, wordAt f.b.lanes x.1, wordAt f.c.lanes x.1))) poison)) s

/-! ## Moving prefetched tokens (R319, R321) -/

/-- PATLD, PLANELD and WLD give the token that SELECTION moved out of the buffer; a check that failed there, or a
withheld token, is the firing's fault. -/
def movedOut (f : Firing) : Out :=
  match f.moved with
  | some p => { res := some ⟨p.token.lanes, .passed p.token.tag⟩, fault := p.fault, flags := p.flags,
                tile := [(4, 0, 1), (4, 5, p.stats.sat)],
                elem := fun e => { e with counts := e.counts.add p.stats } }
  | none => { fault := some opRange }

def execPatld (w : Slot) (s : State) : Res := writeBack w (fun f _ => movedOut f) s

def execPlaneld (w : Slot) (s : State) : Res := writeBack w (fun f _ => movedOut f) s

def execWld (w : Slot) (s : State) : Res := writeBack w (fun f _ => movedOut f) s

/-! ## Patterns (R314) -/

/-- A token of a pattern: its first i0, its positions, and i1 to i4. -/
structure PatTok where
  i0 : Nat
  n : Nat
  ix : List Nat
deriving DecidableEq, Repr

/-- Tokens of the whole pattern of a LOAD or STORE stream. -/
def StreamCfg.tokens (c : StreamCfg) : Nat := c.rowToks * c.e 1 * c.e 2 * c.e 3 * c.e 4

/-- Token number p of the pattern. -/
def StreamCfg.tok (c : StreamCfg) (p : Nat) : PatTok :=
  let i0 := p % c.rowToks * rowLanes c.fmt
  ⟨i0, min (rowLanes c.fmt) (c.e 0 - i0), c.rowIx (p / c.rowToks)⟩

/-- The element offset of position i0 + k of a token. -/
def StreamCfg.off (c : StreamCfg) (t : PatTok) (k : Nat) : Int :=
  Int.ofNat (t.i0 + k) * nth c.stride 0 0 + (List.range 4).foldl (fun (a : Int) j => a + Int.ofNat (nth t.ix j 0) * nth c.stride (j + 1) 0) 0

/-- The end tag when dimension 0 is at its last index: EOD(j), or END when all five are (R314). -/
def StreamCfg.endTag (c : StreamCfg) (ix : List Nat) : Tag :=
  BitVec.ofNat 4 (8 + ((List.range 4).takeWhile (fun j => nth ix j 0 + 1 = c.e (j + 1))).length)

/-- The tag of a token of the pattern. -/
def StreamCfg.tagOf (c : StreamCfg) (t : PatTok) : Tag := if t.i0 + t.n < c.e 0 then 0 else c.endTag t.ix

/-- The row number R that selects a band (R314). -/
def StreamCfg.bandRow (c : StreamCfg) (ix : List Nat) : Nat :=
  nth ix 0 0 + c.e 1 * (nth ix 1 0 + c.e 2 * (nth ix 2 0 + c.e 3 * nth ix 3 0))

def StreamCfg.bandAddr (c : StreamCfg) (ix : List Nat) : Nat := c.bandVa + 2 * (c.bandRow ix / 64)

/-- The address of the scale byte of an element offset. -/
def StreamCfg.scaleAddr (c : StreamCfg) (o : Int) : Nat := ((Int.ofNat c.scaleVa + o / 8) % 2 ^ 64).toNat

/-- The address of the byte that holds a 4-bit element. -/
def StreamCfg.nibAddr (c : StreamCfg) (o : Int) : Nat := ((Int.ofNat c.base + o / 2) % 2 ^ 64).toNat

/-- The addresses that a token's checks look at: its first byte, and for wide formats every position (R314). -/
def StreamCfg.checked (c : StreamCfg) (t : PatTok) : List Nat :=
  if isBlock c.fmt then [c.nibAddr (c.off t 0)]
  else if 4 ≤ c.fmt then [vaAt c.base (c.off t 0) (fmtBytes c.fmt)]
  else (List.range t.n).map (fun k => vaAt c.base (c.off t k) (fmtBytes c.fmt))

/-- As `checked`, for a store of a token: of a wide format only the positions that are written (R300, R319). -/
def StreamCfg.checkedPut (c : StreamCfg) (t : PatTok) (b : Lanes) : List Nat :=
  if 4 ≤ c.fmt then c.checked t
  else ((List.range t.n).filter (fun k => if c.fmt = 3 then (pairAt b k).isSome else validAt b k)).map (fun k =>
    vaAt c.base (c.off t k) (fmtBytes c.fmt))

/-! ## Reading through a stream at once: prefetches, band scales and frame templates -/

/-- A failed read: a fault, or a wait before the home. -/
inductive ReadStop where
  | fault (f : Nat × Nat × Nat)
  | wait
deriving DecidableEq, Repr

/-- A read over the link: asked for, and there once its answer has come (R15, R16). -/
def State.readLink (s : State) (owner : LinkOwner) (pkg pa n va : Nat) : Except ReadStop (List Byte × Bool) × State :=
  match s.asked owner pkg pa n with
  | none => (.error .wait, s.postLink owner pkg pa n false)
  | some r => match r.answer with
    | none => (.error .wait, s)
    | some (.done x) => (.ok (remoteBytes x pa n), s)
    | some .refused => (.error (.fault (fMEMORY, cPERMREMOTE, va)), s)
    | some .failed => (.error (.fault (fLINK, cAQRIC, 0)), s)

/-- The owner of a stream's reads over the link: for the token that it fetches, or at a write-back for the firing. -/
def State.streamOwner (s : State) (eid k : Nat) : LinkOwner :=
  .stream (((s.elem eid).inst).getD 0) eid k (match s.focus with
    | some fo => 2 * fo.firing.seq + 1
    | none => 2 * ((s.elem eid).stream k).fetch)

/-- Read n bytes of one granule through a stream's translation entry. -/
def State.readStream (s : State) (eid k va n : Nat) : Except ReadStop (List Byte × Bool) × State :=
  if 2 ^ 49 ≤ va then (.error (.fault (fMEMORY, cVARANGE, va)), s)
  else
    if !((s.elem eid).stream k).covers va && s.tableWaits (s.vfOf eid) va then (.error .wait, s)
    else match s.streamPage eid k va with
    | (.error c, s) => (.error (.fault (fMEMORY, c, va)), s)
    | (.ok p, s) =>
      match s.checkLeaf (s.vfOf eid) p va .load false with
      | .error c => (.error (.fault (fMEMORY, c, va)), s)
      | .ok h =>
        if s.homeWaits (some (tileOf eid)) h then (.error .wait, s)
        else match h with
          | .hbm pa => (.ok (s.readHbm pa n), s)
          | .remote pkg _ pa _ => s.readLink (s.streamOwner eid k) pkg pa n va
          | _ => (.error (.fault (fMEMORY, cMMIOKIND, va)), s)

/-- Read n bytes from an address on, granule by granule, lower first. -/
def State.readSpan (s : State) (eid k va n : Nat) : Except ReadStop (List Byte × Bool) × State :=
  (granulesOf va n).foldl (fun (acc : Except ReadStop (List Byte × Bool) × State) g =>
    match acc.1 with
    | .error x => (.error x, acc.2)
    | .ok (bs, bad) =>
      match acc.2.readStream eid k g.1 g.2 with
      | (.error x, s) => (.error x, s)
      | (.ok r, s) => (.ok (bs ++ r.1, bad || r.2), s)) (.ok ([], false), s)

/-- A read within a write-back, which waits where the read does. -/
def State.readNow (s : State) (eid k va n : Nat) : Except ReadStop (List Byte × Bool) × State := s.readSpan eid k va n

/-! ## EGRESS frames (R323) -/

/-- The bytes of A's valid lanes in lane order (R323). -/
def validBytes (v : Lanes) : List Byte := (List.range 16).flatMap (fun l => match laneAt v l with
  | some x => leBytes 4 x.toNat
  | none => [])

/-- Whether a PATST sends the current frame before its lanes, and after them. -/
def egressSends (g : Egress) (a : View) : Bool × Bool :=
  (9088 < g.payload.length + (validBytes a.lanes).length, isEnd a.passTag)

/-- PATST on an EGRESS stream (R323): what stops it, or the state with the lanes appended and the frames sent. The poison of a template
word is not looked at: it reads zero. A frame waits while its flow has 256 unacknowledged ones (R19). -/
def State.egressPut (s : State) (fo : Focus) (w : Slot) : Option ReadStop × State :=
  let k := agStream w
  let t := (s.elem fo.eid).stream k
  let a := fo.firing.a
  let (before, after) := egressSends t.egress a
  if t.mode == .idle then (some (.fault opRange), s)
  else
    let (r, s1) := if before || after then s.readNow fo.eid k t.cfg.scaleVa 64 else (.ok ([], false), s)
    match r with
    | .error f => (some f, s1)
    | .ok (tmpl, _) =>
      if 3 < tmplField tmpl 6 1 then (some (.fault opRange), s1)
      else
        if (before || after) && 256 < (s1.txFlow (templateKey tmpl)).unacked.length + before.toNat + after.toNat then (some .wait, s1)
        else
        let s1 := if before || after then s1.modElem fo.eid (·.modStream k (fun t => { t with tmpl := some tmpl })) else s1
        let s := if before then s1.sendFrame fo.eid k tmpl false else s1
        if a.isPoison then (some (.fault (fMEMORY, cPOISONEGRESS, 0)), s)
        else
          let grow (g : Egress) : Egress :=
            { g with payload := g.payload ++ validBytes a.lanes, entries := g.entries ++ fo.firing.entry.toList }
          let s := s.modElem fo.eid (·.modStream k (fun t => { t with egress := grow t.egress }))
          if after then
            let last := a.passTag == tagEnd
            let s := s.sendFrame fo.eid k tmpl last
            (none, if last then s.modElem fo.eid (·.modStream k (fun t => { t with mode := .idle })) else s)
          else (none, s)

/-! ## PATST (R319) -/

/-- The next position, or idle after the last token. -/
def Stream.advance (t : Stream) : Stream :=
  { t with pos := t.pos + 1, mode := if t.pos + 1 = t.cfg.tokens then .idle else t.mode }

/-- One block of a token in a block format: its scale byte and its elements, each one event (R200, R201). -/
def blockPut (c : StreamCfg) (band : Nat) (b : Lanes) (o : Int) (j : Nat) (poison : Bool) (p : Put) :
    Put × List (Nat × AccKind) :=
  let ls := ((List.range 8).map (8 * j + ·)).filter (validAt b)
  if ls.isEmpty then (p, [])
  else
    let scale := chooseScale c.fmt band (ls.map (wordAt b))
    let r := ls.foldl (fun (acc : Put × List (Nat × Nat)) l =>
      let n := narrowBlock c.fmt c.rndf scale band acc.1.gen (wordAt b l)
      ({ acc.1 with counts := acc.1.counts.add n.counts, flags := acc.1.flags ||| n.flags, gen := n.gen },
       acc.2 ++ [(l - 8 * j, n.code)])) ({ p with narrowed := p.narrowed + ls.length }, [])
    let cell (i : Nat) : Option (Nat × Byte × Byte) :=
      let lo := r.2.find? (fun x => x.1 = 2 * i)
      let hi := r.2.find? (fun x => x.1 = 2 * i + 1)
      if lo.isNone && hi.isNone then none
      else some (i, (if lo.isSome then 0x0F else 0) ||| (if hi.isSome then 0xF0 else 0),
        BitVec.ofNat 8 (((lo.map (·.2)).getD 0) + 16 * ((hi.map (·.2)).getD 0)))
    let o := o + 8 * Int.ofNat j
    (r.1, [(c.scaleAddr o, .store [(0, BitVec.ofNat 8 scale)] poison),
           (c.nibAddr o, .merge ((List.range 4).filterMap cell) poison)])

/-- PATST on a STORE stream whose checks passed: the bytes and accesses of its next token. -/
def patPut (c : StreamCfg) (t : Stream) (tok : PatTok) (b : Lanes) (band : Nat) (poison : Bool) :
    Put × List (Nat × AccKind) :=
  if isBlock c.fmt then
    let m := lanesOf (fun l => if l < tok.n then laneAt b l else none)
    let x := blockPut c band m (c.off tok 0) 0 poison { gen := t.gen }
    let y := blockPut c band m (c.off tok 0) 1 poison x.1
    (y.1, x.2 ++ y.2)
  else
    let p := narrowLanes c t.gen b (fun k => vaAt c.base (c.off tok k) (fmtBytes c.fmt)) tok.n
    (p, storeGroups poison p.bytes)

/-- PATST on a STORE stream. -/
def State.patStore (s : State) (fo : Focus) (w : Slot) : State :=
  let k := agStream w
  let t := (s.elem fo.eid).stream k
  let c := t.cfg
  let a := fo.firing.a
  let fail (s : State) (f : Nat × Nat × Nat) : State := s.complete fo w { fault := some f }
  if t.mode == .idle then fail s opRange
  else
    let tok := c.tok t.pos
    match addrFault (c.checkedPut tok a.lanes) with
    | some f => fail s f
    | none =>
      let (band, s) := if isBlock c.fmt then s.readNow fo.eid k (c.bandAddr tok.ix) 2 else (.ok ([], false), s)
      match band with
      | .error (.fault f) => fail s f
      | .error .wait => s.postpone fo
      | .ok (bs, _) =>
        if isBlock c.fmt && !bandOk (leNat bs) then fail s (fSTREAM, cBANDSCALE, 0)
        else
          let (p, accs) := patPut c t tok a.lanes (leNat bs) a.isPoison
          let first := vaAt c.base (c.off tok 0) (fmtBytes c.fmt)
          let addr := if isBlock c.fmt then c.nibAddr (c.off tok 0) else first
          let (o, i) := putOut w k p accs (some addr) a.lanes a.isPoison
          match i with
          | none => s.complete fo w o
          | some i =>
            match s.issue fo i with
            | (some f, s) => fail s f
            | (none, s) => s.complete fo w { o with elem := fun e => (p.apply k e).modStream k Stream.advance }

def execPatst (w : Slot) (s : State) : Res :=
  match s.focus with
  | none => .next s
  | some fo =>
    let t := (s.elem fo.eid).stream (agStream w)
    match t.useFault [1, 5] with
    | some f => .next (s.complete fo w { fault := some f })
    | none =>
      if t.cfg.kind = 5 then
        match s.egressPut fo w with
        | (some (.fault f), s) => .next (s.complete fo w { fault := some f })
        | (some .wait, s) => .next (s.postpone fo)
        | (none, s) => .next (s.complete fo w { sink := 0, tile := [(4, 1, 1)] })
      else .next (s.patStore fo w)

/-! ## FENCEG, PATSET and PREF -/

/-- FENCEG (R180, R319): its prefetched tokens went at selection; the token comes once all has performed. -/
def execFenceg (w : Slot) (s : State) : Res :=
  match s.focus with
  | none => .next s
  | some fo =>
    let s := match fo.firing.entry with
      | some n => s.modElem fo.eid (fun e => { e with fences := e.fences ++ [Fence.mk n (scopeOf w) fo.firing.seq] })
      | none => s
    .next ((s.complete fo w { }).settleFences fo.eid)

/-- The seed as the generator loads it (R199). -/
def loadSeed (w : Word) : Word := if w = 0 then 1 else w

/-- A set-up of a stream: the registers come into force, position 0, buffer empty (R313, R320). `go` says whether a
prefetching stream starts. -/
def Stream.restart (t : Stream) (go : Bool) : Stream :=
  let mode : StreamMode := if [0, 2, 3, 6].contains t.regs.kind then (if go then .prefetching else .idle) else .ready
  { t with
    cfg := t.regs, mode, pos := 0, fetch := 0, gen := loadSeed t.regs.seed, buf := [], ahead := [], halted := false, tmpl := none,
    ingress := [] }

/-- Prefetched tokens are dropped and the stream goes back to the first token not moved (R180, R319). -/
def Stream.discard (t : Stream) : Stream := { t with buf := [], ahead := [], fetch := t.pos, halted := false }

/-- Tokens prefetched and not yet moved. -/
def Stream.waiting (t : Stream) : Nat := t.buf.length

/-- Runs along dimension 0. -/
def StreamCfg.lines (c : StreamCfg) : Nat := (c.e 1 + c.groupRows - 1) / c.groupRows * c.e 2 * c.e 3 * c.e 4

/-- Tokens of the whole pattern. -/
def StreamCfg.total (c : StreamCfg) : Nat := c.lineToks * c.lines

/-- The stream once its head token has been moved (R319, R321, R323): after the last token it is idle; a withheld token
stays. -/
def Stream.moveHead (t : Stream) : Stream :=
  if t.cfg.kind = 6 then
    { t with ingress := match t.ingress with
        | [] => []
        | (bs, last) :: rest => if bs.length ≤ 64 then rest else (bs.drop 64, last) :: rest }
  else
    match t.buf with
    | [] => t
    | p :: rest =>
      if p.fault.isSome then t
      else { t with buf := rest, pos := t.pos + 1, mode := if t.pos + 1 = t.cfg.total then .idle else t.mode }

/-- PATSET's field written into the registers, or none where a lane or an extent is wrong (R320). -/
def patField (n : Nat) (a : Lanes) (c : StreamCfg) : Option StreamCfg :=
  let need (k : Nat) : Bool := (List.range k).all (validAt a)
  let five := (List.range 5).map (wordAt a)
  match n with
  | 0 => if need 2 then some { c with base := (wordAt a 0).toNat + 2 ^ 32 * (wordAt a 1).toNat } else none
  | 1 => if need 5 && five.all (fun x => 1 ≤ x.toNat && x.toNat ≤ 65536) then some { c with ext := five.map BitVec.toNat }
         else none
  | 2 => if need 5 then some { c with stride := five.map BitVec.toInt } else none
  | 3 => if need 1 then some { c with seed := wordAt a 0 } else none
  | _ => some c

def execPatset (w : Slot) (s : State) : Res :=
  writeBack w (fun f e =>
    let k := agStream w
    let t := e.stream k
    if !t.cfg.v then { fault := some opDescriptor }
    else if f.poisoned w then { fault := controlFault true }
    else
      match patField (w.imm.toNat % 16) f.a.lanes t.regs with
      | none => { fault := some opRange }
      | some c =>
        if w.imm.getLsbD 4 then
          { fault := c.setupFault, tile := [(4, 6, t.waiting)],
            elem := (·.modStream k (fun t => ({ t with regs := c }).restart true)) }
        else { elem := (·.modStream k (fun t => { t with regs := c })) }) s

/-- PREF asks an edge cache; nothing that a program can see (R320). -/
def execPref (w : Slot) (s : State) : Res := writeBack w (fun _ _ => { }) s

end Sys2Proof.Machine
end

