-- ==== Sys2Proof/Machine/FloatOps.lean ====
section
/-! DEFINITION. The class 1 float instructions (R281 to R283), the conversions (R284, R285) and FRRED (R286). -/

namespace Sys2Proof.Machine

/-- A result rounded once from an exact value, with the flags of both (R281). -/
def roundExact (w : Slot) (x : Exact) : Nat × Word :=
  let r := (fmtOf w.d).ofVal (rndOf w.rnd) x.1
  (r.1, r.2 ||| x.2)

def execFadd (w : Slot) (s : State) : Res :=
  writeBack w (fun f _ => floatOut w f (fun a b _ =>
    roundExact w (addVal (rndOf w.rnd) ((fmtOf w.d).unpack a) ((fmtOf w.d).unpack b)))) s

def execFsub (w : Slot) (s : State) : Res :=
  writeBack w (fun f _ => floatOut w f (fun a b _ =>
    roundExact w (addVal (rndOf w.rnd) ((fmtOf w.d).unpack a) ((fmtOf w.d).unpack b).negate))) s

def execFmul (w : Slot) (s : State) : Res :=
  writeBack w (fun f _ => floatOut w f (fun a b _ =>
    roundExact w (mulVal ((fmtOf w.d).unpack a) ((fmtOf w.d).unpack b)))) s

def execFfma (w : Slot) (s : State) : Res :=
  writeBack w (fun f _ => floatOut w f (fun a b c =>
    roundExact w (fmaVal (rndOf w.rnd) ((fmtOf w.d).unpack a) ((fmtOf w.d).unpack b) ((fmtOf w.d).unpack c)))) s

def execFfms (w : Slot) (s : State) : Res :=
  writeBack w (fun f _ => floatOut w f (fun a b c =>
    roundExact w (fmaVal (rndOf w.rnd) ((fmtOf w.d).unpack a) ((fmtOf w.d).unpack b) ((fmtOf w.d).unpack c).negate))) s

def execFnma (w : Slot) (s : State) : Res :=
  writeBack w (fun f _ => floatOut w f (fun a b c =>
    roundExact w (fmaVal (rndOf w.rnd) ((fmtOf w.d).unpack a).negate ((fmtOf w.d).unpack b) ((fmtOf w.d).unpack c)))) s

def execFdiv (w : Slot) (s : State) : Res :=
  writeBack w (fun f _ => floatOut w f (fun a b _ =>
    (fmtOf w.d).div (rndOf w.rnd) ((fmtOf w.d).unpack a) ((fmtOf w.d).unpack b))) s

def execFsqrt (w : Slot) (s : State) : Res :=
  writeBack w (fun f _ => floatOut w f (fun a _ _ => (fmtOf w.d).sqrt (rndOf w.rnd) ((fmtOf w.d).unpack a))) s

def execFrcp (w : Slot) (s : State) : Res :=
  writeBack w (fun f _ => floatOut w f (fun a _ _ => (fmtOf w.d).rcp (rndOf w.rnd) ((fmtOf w.d).unpack a))) s

def execFrsq (w : Slot) (s : State) : Res :=
  writeBack w (fun f _ => floatOut w f (fun a _ _ => (fmtOf w.d).rsq (rndOf w.rnd) ((fmtOf w.d).unpack a))) s

def execFrint (w : Slot) (s : State) : Res :=
  writeBack w (fun f _ => floatOut w f (fun a _ _ => (fmtOf w.d).rint (rndOf w.rnd) a)) s

/-- The signed integer that the bits of an element hold. -/
def intOf (d : Bool) (b : Nat) : Int := if d then (BitVec.ofNat 64 b).toInt else (BitVec.ofNat 32 b).toInt

/-- The bits of an integer result. -/
def bitsOfInt (d : Bool) (i : Int) : Nat := if d then (BitVec.ofInt 64 i).toNat else (BitVec.ofInt 32 i).toNat

/-- FSCALE: b is an INT32 lane, or an INT64 pair under D (R281). -/
def execFscale (w : Slot) (s : State) : Res :=
  writeBack w (fun f _ => floatOut w f (fun a b _ => (fmtOf w.d).scale (rndOf w.rnd) a (intOf w.d b))) s

def execFmin (w : Slot) (s : State) : Res :=
  writeBack w (fun f _ => floatOut w f (fun a b _ => (fmtOf w.d).minMax false a b)) s

def execFmax (w : Slot) (s : State) : Res :=
  writeBack w (fun f _ => floatOut w f (fun a b _ => (fmtOf w.d).minMax true a b)) s

/-- The sign bit of a format as a number. -/
def signOf (d : Bool) : Nat := (fmtOf d).signBit true

def execFabs (w : Slot) (s : State) : Res :=
  writeBack w (fun f _ => floatOut w f (fun a _ _ => (a % signOf w.d, 0))) s

def execFneg (w : Slot) (s : State) : Res :=
  writeBack w (fun f _ => floatOut w f (fun a _ _ =>
    (if signOf w.d ≤ a then a - signOf w.d else a + signOf w.d, 0))) s

def execFcopysgn (w : Slot) (s : State) : Res :=
  writeBack w (fun f _ => floatOut w f (fun a b _ =>
    (a % signOf w.d + (if signOf w.d ≤ b then signOf w.d else 0), 0))) s

/-- All ones or zero in every word of an element (R282). -/
def maskElem (d : Bool) (c : Bool) : Nat := if c then if d then 2 ^ 64 - 1 else 2 ^ 32 - 1 else 0

/-- A comparison of R282. -/
def fcmpOut (w : Slot) (f : Firing) (c : FCmp) : Out :=
  floatOut w f (fun a b _ =>
    let r := (fmtOf w.d).compare c a b
    (maskElem w.d r.1, r.2))

def execFcmpeq (w : Slot) (s : State) : Res := writeBack w (fun f _ => fcmpOut w f .eq) s
def execFcmplt (w : Slot) (s : State) : Res := writeBack w (fun f _ => fcmpOut w f .lt) s
def execFcmple (w : Slot) (s : State) : Res := writeBack w (fun f _ => fcmpOut w f .le) s

def execFcmpun (w : Slot) (s : State) : Res :=
  writeBack w (fun f _ => floatOut w f (fun a b _ =>
    let x := (fmtOf w.d).unpack a
    let y := (fmtOf w.d).unpack b
    (maskElem w.d (x.isNan || y.isNan), flagIf (x.isSig || y.isSig) flagNV))) s

def execFclass (w : Slot) (s : State) : Res :=
  writeBack w (fun f _ => floatOut w f (fun a _ _ => ((fmtOf w.d).class a, 0))) s

def execFexpn (w : Slot) (s : State) : Res :=
  writeBack w (fun f _ => floatOut w f (fun a _ _ =>
    let r := (fmtOf w.d).expn (if w.d then 64 else 32) a
    (bitsOfInt w.d r.1, r.2))) s

/-! ## Conversions (R284, R285) -/

def execCvtfi (w : Slot) (s : State) : Res :=
  writeBack w (fun f _ => floatOut w f (fun a _ _ =>
    let r := fmtS.toInt (rndOf w.rnd) (-(2 ^ 31)) (2 ^ 31 - 1) a
    (bitsOfInt false r.1, r.2))) s

def execCvtfu (w : Slot) (s : State) : Res :=
  writeBack w (fun f _ => floatOut w f (fun a _ _ =>
    let r := fmtS.toInt (rndOf w.rnd) 0 (2 ^ 32 - 1) a
    (bitsOfInt false r.1, r.2))) s

def execCvtif (w : Slot) (s : State) : Res :=
  writeBack w (fun f _ => floatOut w f (fun a _ _ => fmtS.ofInt (rndOf w.rnd) (intOf false a))) s

def execCvtuf (w : Slot) (s : State) : Res :=
  writeBack w (fun f _ => floatOut w f (fun a _ _ => fmtS.ofInt (rndOf w.rnd) (Int.ofNat a))) s

/-- binary32 to binary64: exact, a NaN to the default NaN (R285). -/
def widenSD (a : Nat) : Nat × Word :=
  let v := fmtS.unpack a
  ((fmtD.ofVal .rne v).1, flagIf v.isSig flagNV)

/-- binary64 to binary32 (R280, R285). -/
def narrowDS (mode : Rnd) (a : Nat) : Nat × Word :=
  let v := fmtD.unpack a
  let r := fmtS.ofVal mode v
  (r.1, r.2 ||| flagIf v.isSig flagNV)

/-- CVTSD: lanes 0 to 7 to the first result, lanes 8 to 15 to the second where DB names one (R284). -/
def execCvtsd (w : Slot) (s : State) : Res :=
  writeBack w (fun f _ =>
    let half (base : Nat) : Lanes :=
      lanesOfPairs (fun k => (laneAt f.a.lanes (base + k)).map (fun a => BitVec.ofNat 64 (widenSD a.toNat).1))
    let fl (n : Nat) : Word := flagsOr ((List.range n).map (fun l =>
      match laneAt f.a.lanes l with
      | some a => (widenSD a.toNat).2
      | none => 0))
    { res := built (half 0), res2 := some (built (half 8)), poison := f.poisoned w,
      flags := fl (if w.db = .none then 8 else 16) }) s

/-- CVTDS: pairs of A to lanes 0 to 7, pairs of B to lanes 8 to 15 (R284). -/
def execCvtds (w : Slot) (s : State) : Res :=
  writeBack w (fun f _ =>
    let src (l : Nat) : Option (Nat × Word) :=
      (pairAt (if l < 8 then f.a.lanes else f.b.lanes) (l % 8)).map (fun d => narrowDS (rndOf w.rnd) d.toNat)
    { res := built (lanesOf (fun l => (src l).map (fun r => BitVec.ofNat 32 r.1))), poison := f.poisoned w,
      flags := flagsOr ((List.range 16).map (fun l =>
        match src l with
        | some r => r.2
        | none => 0)) }) s

def execCvtdi (w : Slot) (s : State) : Res :=
  writeBack w (fun f _ => floatOut w f (fun a _ _ =>
    let r := fmtD.toInt (rndOf w.rnd) (-(2 ^ 63)) (2 ^ 63 - 1) a
    (bitsOfInt true r.1, r.2))) s

def execCvtid (w : Slot) (s : State) : Res :=
  writeBack w (fun f _ => floatOut w f (fun a _ _ => fmtD.ofInt (rndOf w.rnd) (intOf true a))) s

/-- FRRED (R286). -/
def execFrred (w : Slot) (s : State) : Res :=
  writeBack w (fun f _ => floatOut w f (fun a _ _ => (fmtOf w.d).rred a)) s

end Sys2Proof.Machine
end

