-- ==== Sys2Proof/Machine/Lane.lean ====
section
/-! DEFINITION. Lane moves, valid masks, reductions and scans (R288 to R292). -/

namespace Sys2Proof.Machine

/-! ## Lane moves (R288) -/

/-- The Out of a move that gives each result lane. -/
def moveOut (w : Slot) (f : Firing) (lane : Nat → Lane) : Out :=
  { res := built (lanesOf lane), poison := f.poisoned w }

/-- A lane that a scalar control chose: invalid where lane 0 of B is. -/
def underB (f : Firing) (x : Nat → Lane) : Lane := match laneAt f.b.lanes 0 with
  | some s => x s.toNat
  | none => none

/-- XOR of two lane numbers. -/
def xorLane (l m : Nat) : Nat := Nat.xor l m % 16

def execLswap (w : Slot) (s : State) : Res :=
  writeBack w (fun f _ => moveOut w f (fun l => laneAt f.a.lanes (xorLane l (2 ^ w.rnd.toNat)))) s

def execLrot (w : Slot) (s : State) : Res :=
  writeBack w (fun f _ => moveOut w f (fun l => underB f (fun n => laneAt f.a.lanes ((l + 16 - n % 16) % 16)))) s

def execLperm (w : Slot) (s : State) : Res :=
  writeBack w (fun f _ => moveOut w f (fun l =>
    match laneAt f.b.lanes l with
    | none => none
    | some i => laneAt (if w.x && i.getLsbD 4 then f.c.lanes else f.a.lanes) (i.toNat % 16))) s

def execLbcast (w : Slot) (s : State) : Res :=
  writeBack w (fun f _ => moveOut w f (fun _ => underB f (fun n => laneAt f.a.lanes (n % 16)))) s

def execLxor (w : Slot) (s : State) : Res :=
  writeBack w (fun f _ => moveOut w f (fun l => underB f (fun n => laneAt f.a.lanes (xorLane l (n % 16))))) s

def execLcomp (w : Slot) (s : State) : Res :=
  writeBack w (fun f _ => moveOut w f (fun l =>
    laneAt (if l < 8 then f.a.lanes else f.b.lanes) (2 * (l % 8) + w.rnd.toNat))) s

def execLexp (w : Slot) (s : State) : Res :=
  writeBack w (fun f _ => moveOut w f (fun l =>
    let k := (if w.x then 8 else 0) + l / 2
    let a := laneAt f.a.lanes k
    if l % 2 = 0 then a
    else match w.rnd.toNat with
      | 0 => a.map (fun x => if x.msb then 0xFFFFFFFF else 0)
      | 1 => a.map (fun _ => 0)
      | 2 => a
      | _ => laneAt f.b.lanes k)) s

/-- LSHUP: a shift above 16 is out of range (R288). -/
def execLshup (w : Slot) (s : State) : Res :=
  writeBack w (fun f _ =>
    { moveOut w f (fun l => underB f (fun n =>
        if n ≤ l then laneAt f.a.lanes (l - n) else laneAt f.c.lanes (l + 16 - n))) with
      fault := match laneAt f.b.lanes 0 with
        | some n => if 16 < n.toNat then some opRange else none
        | none => none }) s

/-! ## Valid masks (R289) -/

def execVmask (w : Slot) (s : State) : Res :=
  writeBack w (fun f _ =>
    { res := built (maskLanes f.a.lanes ((wordAt f.b.lanes 0).setWidth 16)), poison := f.poisoned w }) s

def execVvalid (w : Slot) (s : State) : Res :=
  writeBack w (fun f _ =>
    { res := scalar (if w.rnd = 1 then BitVec.ofNat 32 (validCount f.a.lanes) else (validMask f.a.lanes).setWidth 32),
      poison := f.poisoned w }) s

/-! ## Reductions (R290, R291) -/

/-- The elements of A: its value where valid (R290). -/
def elemsOf (d : Bool) (v : Lanes) : List (Option Nat) :=
  (List.range (elemCount d)).map (fun k => if elemValid d v k then some (elemBits d v k) else none)

/-- The width of an element in bits. -/
def elemWidth (d : Bool) : Nat := if d then 64 else 32

/-- One value in every element, all valid; none where there is no value. -/
def spreadElem (d : Bool) (x : Option Nat) : Lanes := lanesOfElems d (fun _ => x)

/-- The Out of an integer reduction of the valid elements (R290). -/
def reduceOut (w : Slot) (f : Firing) (op : Nat → Nat → Nat) : Out :=
  let r := (elemsOf w.d f.a.lanes).foldl (fun acc x => match acc, x with
    | some a, some b => some (op a b)
    | none, x => x
    | acc, none => acc) (none : Option Nat)
  { res := built (spreadElem w.d r), poison := f.poisoned w }

def execVradd (w : Slot) (s : State) : Res :=
  writeBack w (fun f _ => reduceOut w f (fun a b => (a + b) % 2 ^ elemWidth w.d)) s

/-- The smaller of two elements, signed or unsigned. -/
def lessElem (w : Slot) (a b : Nat) : Bool := if w.rnd = 1 then a < b else intOf w.d a < intOf w.d b

def execVrmin (w : Slot) (s : State) : Res :=
  writeBack w (fun f _ => reduceOut w f (fun a b => if lessElem w b a then b else a)) s

def execVrmax (w : Slot) (s : State) : Res :=
  writeBack w (fun f _ => reduceOut w f (fun a b => if lessElem w a b then b else a)) s

/-- A value on its way through a tree, with the flags so far; absent elements combine to the other (R291). -/
abbrev Node := Option Nat × Word

def combineNode (op : Nat → Nat → Nat × Word) (x y : Node) : Node :=
  match x.1, y.1 with
  | some a, some b =>
    let r := op a b
    (some r.1, x.2 ||| y.2 ||| r.2)
  | some a, none => (some a, x.2 ||| y.2)
  | none, b => (b, x.2 ||| y.2)

/-- One level of the tree: neighbours combine (R291). -/
def treeLevel (op : Nat → Nat → Nat × Word) : List Node → List Node
  | x :: y :: rest => combineNode op x y :: treeLevel op rest
  | l => l

/-- The root after n levels (R291). -/
def treeRoot (op : Nat → Nat → Nat × Word) : Nat → List Node → Node
  | 0, l => l.headD (none, 0)
  | n + 1, l => treeRoot op n (treeLevel op l)

/-- A NaN leaves an arithmetic instruction as the default NaN (R191). -/
def canonical (d : Bool) (b : Nat) : Nat := if ((fmtOf d).unpack b).isNan then (fmtOf d).nan else b

/-- The Out of a float reduction (R291). -/
def treeOut (w : Slot) (f : Firing) (op : Nat → Nat → Nat × Word) : Out :=
  let r := treeRoot op (if w.d then 3 else 4) ((elemsOf w.d f.a.lanes).map (fun x => (x, 0)))
  { res := built (spreadElem w.d (r.1.map (canonical w.d))), poison := f.poisoned w, flags := r.2 }

/-- FADD of two elements in RND (R281). -/
def addElem (w : Slot) (a b : Nat) : Nat × Word :=
  roundExact w (addVal (rndOf w.rnd) ((fmtOf w.d).unpack a) ((fmtOf w.d).unpack b))

def execVrfadd (w : Slot) (s : State) : Res := writeBack w (fun f _ => treeOut w f (addElem w)) s

def execVrfmax (w : Slot) (s : State) : Res := writeBack w (fun f _ => treeOut w f ((fmtOf w.d).minMax true)) s

/-! ## Scans (R292) -/

/-- The carry of a scan: element 0 of C, where it is named and valid (R292). -/
def carryOf (w : Slot) (f : Firing) : Option Nat :=
  if w.sc = .none then none else if elemValid w.d f.c.lanes 0 then some (elemBits w.d f.c.lanes 0) else none

/-- The running sums before and after each element, and the total (R292). -/
def scanSums (m : Nat) : Nat → List (Option Nat) → List (Nat × Nat) × Nat
  | acc, [] => ([], acc)
  | acc, x :: l =>
    let next := (acc + x.getD 0) % m
    let r := scanSums m next l
    ((acc, next) :: r.1, r.2)

/-- The result lanes of a scan: those of A that are valid (R292). -/
def scanLanes (w : Slot) (f : Firing) (v : Nat → Nat) : Lanes :=
  lanesOfElems w.d (fun k => if elemValid w.d f.a.lanes k then some (v k) else none)

def execVscan (w : Slot) (s : State) : Res :=
  writeBack w (fun f _ =>
    let r := scanSums (2 ^ elemWidth w.d) ((carryOf w f).getD 0) (elemsOf w.d f.a.lanes)
    { res := built (scanLanes w f (fun k => let p := nth r.1 k (0, 0); if w.x then p.1 else p.2)),
      res2 := some (built (spreadElem w.d (some r.2))), poison := f.poisoned w }) s

/-- One doubling step at a distance (R292). -/
def doubling (op : Nat → Nat → Nat × Word) (dist : Nat) (l : List Node) : List Node :=
  l.mapIdx (fun e x => if dist ≤ e then
    let r := combineNode op (nth l (e - dist) (none, 0)) (x.1, 0)
    (r.1, r.2 ||| x.2) else x)

def execVfscan (w : Slot) (s : State) : Res :=
  writeBack w (fun f _ =>
    let op := addElem w
    let l := (if w.d then [1, 2, 4] else [1, 2, 4, 8]).foldl (fun (l : List Node) (dist : Nat) => doubling op dist l)
      ((elemsOf w.d f.a.lanes).map (fun x => (x, 0)))
    let c := carryOf w f
    let l := if c.isSome then l.map (fun x => combineNode op (c, 0) x) else l
    let val (x : Option Nat) : Nat := (x.map (canonical w.d)).getD 0
    let at_ (k : Nat) : Nat := val (nth l k (none, 0)).1
    { res := built (scanLanes w f (fun k => if !w.x then at_ k else if k = 0 then val c else at_ (k - 1))),
      res2 := some (built (spreadElem w.d (some (at_ (elemCount w.d - 1))))),
      poison := f.poisoned w, flags := flagsOr (l.map (·.2)) }) s

end Sys2Proof.Machine
end

