-- ==== Sys2Proof/Machine/Exact.lean ====
section
/-! DEFINITION. The exact-window accumulators and their instructions (R207 to R211, R293 to R298). -/

namespace Sys2Proof.Machine

/-! ## Registers (R207, R293) -/

/-- N of a view: 160 bits a lane, 352 a pair (R207). -/
def accN (d : Bool) : Nat := if d then 352 else 160

/-- Register e of the view as an unsigned number of N + 32 bits (R293). -/
def Acc.reg (x : Acc) (d : Bool) (e : Nat) : Nat :=
  let lane (l : Nat) : Nat := (x.regs.toList[l]?.getD 0).toNat
  if d then lane (2 * e) + 2 ^ 192 * lane (2 * e + 1) else lane e

/-- The accumulator with every register of the view given as a number of N + 32 bits. -/
def Acc.setRegs (x : Acc) (d : Bool) (f : Nat → Nat) : Acc :=
  { x with regs := Lanes.ofFn (fun l =>
      if d then BitVec.ofNat 192 (if l.val % 2 = 0 then f (l.val / 2) else f (l.val / 2) / 2 ^ 192)
      else BitVec.ofNat 192 (f l.val)) }

/-- A number read as two's complement of n bits. -/
def toSigned (n v : Nat) : Int := if 2 ^ (n - 1) ≤ v then Int.ofNat v - 2 ^ n else Int.ofNat v

/-- The register with the guard, as two's complement of N + 32 bits (R207). -/
def Acc.full (x : Acc) (d : Bool) (e : Nat) : Int := toSigned (accN d + 32) (x.reg d e)

/-- Whether an integer lies outside N-bit two's complement. -/
def outside (n : Nat) (i : Int) : Bool := i < -(2 ^ (n - 1)) || 2 ^ (n - 1) - 1 < i

/-- OV(e) (R293). -/
def Acc.ov (x : Acc) (d : Bool) (e : Nat) : Bool := x.tov || outside (accN d) (x.full d e)

/-- OV of the accumulator: the OR over the view (R293). -/
def Acc.anyOv (x : Acc) (d : Bool) : Bool := (List.range (elemCount d)).any (x.ov d)

/-- W of a register: its low N bits as two's complement (R207). -/
def Acc.w (x : Acc) (d : Bool) (e : Nat) : Int := toSigned (accN d) (x.reg d e % 2 ^ accN d)

/-! ## Terms (R208) -/

/-- An integer times 2^e as a multiple of 2^we, floored, and whether bits were lost (R208). -/
def floorAt (we : Int) (i : Int) (e : Int) : Int × Bool :=
  if we ≤ e then (i * 2 ^ (e - we).toNat, false)
  else
    let m : Int := 2 ^ (we - e).toNat
    (i / m, i % m ≠ 0)

/-- A term: none where it is NaN or infinite. -/
abbrev Term := Option (Int × Int)

/-- The value of an element as a term. -/
def termOf (int d : Bool) (b : Nat) : Term :=
  if int then some (intOf d b, 0)
  else match (fmtOf d).unpack b with
    | .num n m e => some (if n then -(Int.ofNat m) else Int.ofNat m, e)
    | _ => none

/-- The product of two terms; NaN or infinite where either is (R208). -/
def mulTerm : Term → Term → Term
  | some (a, e), some (b, f) => some (a * b, e + f)
  | _, _ => none

/-- What a register takes from a term, and the LOST and TOV it sets (R208). -/
def takeTerm (n : Nat) (we : Int) (reg : Nat) (t : Term) : Nat × Bool × Bool :=
  match t with
  | none => (reg, false, true)
  | some (i, e) =>
    let (v, lost) := floorAt we i e
    if outside n v then (reg, lost, true)
    else (((Int.ofNat reg + v) % 2 ^ (n + 32)).toNat, lost, false)

/-- The accumulator with a term taken into each register of the view that has one (R295). -/
def Acc.take (x : Acc) (d : Bool) (t : Nat → Option Term) : Acc :=
  let r := (List.range (elemCount d)).map (fun e =>
    match t e with
    | some t => takeTerm (accN d) x.we.toInt (x.reg d e) t
    | none => (x.reg d e, false, false))
  { x.setRegs d (fun e => (nth r e (0, false, false)).1) with
    lost := x.lost || r.any (·.2.1), tov := x.tov || r.any (·.2.2) }

/-! ## Instructions -/

/-- The accumulator that a specifier names. -/
def Element.acc (e : Element) (n : Nat) : Acc := nth e.x n Acc.zero

def accNum : Dst → Nat
  | .x n => n.val
  | _ => 0

/-- The accumulator that a source names, if it names one. -/
def Element.srcAcc (e : Element) (s : Src) : Option Acc :=
  match s with
  | .x n => some (e.acc n.val)
  | _ => none

/-- The accumulator that a firing read at its selection (R235, R242). -/
def Firing.readAcc (f : Firing) : Acc := f.acc.getD Acc.zero

/-- The element with the accumulator of DA changed. -/
def Element.modAcc (e : Element) (w : Slot) (f : Acc → Acc) : Element := { e with x := upd e.x (accNum w.da) f }

def execXclr (w : Slot) (s : State) : Res :=
  writeBack w (fun _ _ => { elem := (·.modAcc w (fun _ => { Acc.zero with we := w.imm.setWidth 12 })) }) s

/-- The effect of XADD and XMAC: a term for each element valid in every named source (R294, R295). -/
def termOut (w : Slot) (f : Firing) (t : Nat → Term) : Out :=
  { elem := (·.modAcc w (fun x => x.take w.d (fun e => if f.validElem w e then some (t e) else none))),
    fault := controlFault (f.poisoned w) }

def execXadd (w : Slot) (s : State) : Res :=
  writeBack w (fun f _ => termOut w f (fun e => termOf w.x w.d (elemBits w.d f.a.lanes e))) s

def execXmac (w : Slot) (s : State) : Res :=
  writeBack w (fun f _ => termOut w f (fun e =>
    mulTerm (termOf w.x w.d (elemBits w.d f.a.lanes e)) (termOf w.x w.d (elemBits w.d f.b.lanes e)))) s

/-- The index j of XSEND and XMERGE; none is out of range (R296, R297). -/
def indexOf (f : Firing) : Option Nat :=
  match laneAt f.b.lanes 0 with
  | some j => if j.toNat < 6 then some j.toNat else none
  | none => none

/-- (j + 1) mod 6 in every lane. -/
def nextIndex (j : Nat) : Word := BitVec.ofNat 32 ((j + 1) % 6)

/-- XMERGE (R297). -/
def execXmerge (w : Slot) (s : State) : Res :=
  writeBack w (fun f _ =>
    let tag := f.a.passTag.toNat
    if f.poisoned w then { fault := controlFault true }
    else match indexOf f with
    | none => { fault := some opRange }
    | some j =>
      if (if j = 0 then 1 ≤ tag && tag ≤ 4 else tag = 0) then
        let add (l : Nat) : Nat := (wordAt f.a.lanes l).toNat * 2 ^ (32 * j)
        { res2 := some (countBack' (nextIndex j)),
          elem := (·.modAcc w (fun x =>
            let y := x.setRegs w.d (fun e =>
              if w.d then (x.reg true e + add (2 * e) + add (2 * e + 1) * 2 ^ 192) % 2 ^ 384
              else (x.reg false e + add e) % 2 ^ 192)
            if j = 0 then { y with lost := y.lost || (tag - 1) % 2 = 1, tov := y.tov || 2 ≤ tag - 1 } else y)) }
      else { fault := some opRange }) s
where
  /-- The index for DB, tagged as a built result. -/
  countBack' (v : Word) : Option Emit := some ⟨Lanes.all v, .built⟩

/-- XSEND (R209, R296). -/
def execXsend (w : Slot) (s : State) : Res :=
  writeBack w (fun f _ =>
    match indexOf f with
    | none => { fault := some opRange }
    | some j =>
      let x := f.readAcc
      let tag : Tag := if j = 0 then BitVec.ofNat 4 (1 + x.lost.toNat + 2 * x.tov.toNat) else 0
      { res := scalar (nextIndex j),
        res2 := some (some ⟨lanesOf (fun l => some (BitVec.ofNat 32 (x.reg false l / 2 ^ (32 * j)))), .given tag⟩),
        poison := f.poisoned w }) s

/-- XLOST and XOV of an XRD or XFLAG (R298). -/
def Acc.stickies (x : Acc) (d : Bool) : Word := flagIf x.lost flagXLOST ||| flagIf (x.anyOv d) flagXOV

/-- A register rounded once (R211). -/
def Acc.rounded (x : Acc) (d : Bool) (mode : Rnd) (e : Nat) : Nat × Word :=
  if x.ov d e then ((fmtOf d).nan, flagNV)
  else
    let v := x.w d e
    (fmtOf d).round mode (v < 0) v.natAbs x.we.toInt false

def execXrd (w : Slot) (s : State) : Res :=
  writeBack w (fun f _ =>
    let x := f.readAcc
    let rs := (List.range (elemCount w.d)).map (x.rounded w.d (rndOf w.rnd))
    { res := built (lanesOfElems w.d (fun k => some (nth rs k (0, 0)).1)),
      flags := flagsOr (rs.map (·.2)) ||| x.stickies w.d }) s

def execXflag (w : Slot) (s : State) : Res :=
  writeBack w (fun f _ =>
    let x := f.readAcc
    { res := built (lanesOfElems w.d (fun k => some (x.lost.toNat + 2 * (x.ov w.d k).toNat + 4 * x.tov.toNat))),
      flags := x.stickies w.d }) s

end Sys2Proof.Machine
end

