-- ==== Sys2Proof/Machine/Matrix.lean ====
section
/-! DEFINITION. The matrix instructions (R324 to R329). SELECTION puts into `extra` what a firing reads there: of
MPLANE the plane number, the exponent latch, the row group, the weights, their exponents and the slice; of MDRAIN the
drain cursor, the inactive bank and its flags; of MSTAT its lanes. -/

namespace Sys2Proof.Machine

/-! ## Banks (R207, R324) -/

/-- N of an accumulator of the element. -/
def accWidth (fp64 : Bool) : Nat := if fp64 then 160 else 64
def Matrix.accBits (m : Matrix) : Nat := accWidth m.fp64

/-- A bank's accumulators: bank 1 where `which` is set. -/
def Matrix.bank (m : Matrix) (which : Bool) : BitVec 196608 := if which then m.bank1 else m.bank0

def Matrix.lost (m : Matrix) (which : Bool) : Bool := if which then m.lost1 else m.lost0
def Matrix.tov (m : Matrix) (which : Bool) : Bool := if which then m.tov1 else m.tov0

def Matrix.setBank (m : Matrix) (which : Bool) (b : BitVec 196608) (lost tov : Bool) : Matrix :=
  if which then { m with bank1 := b, lost1 := lost, tov1 := tov } else { m with bank0 := b, lost0 := lost, tov0 := tov }

/-- The 96-bit accumulator of a row and column. -/
def acc96 (bank row n : Nat) : Nat := bank / 2 ^ (96 * (128 * row + n)) % 2 ^ 96

/-- A register: an accumulator, or in MODE FP64 the pair of rows 2r and 2r + 1, row 2r low. -/
def regAt (fp64 : Bool) (bank r n : Nat) : Nat :=
  if fp64 then acc96 bank (2 * r) n + 2 ^ 96 * acc96 bank (2 * r + 1) n else acc96 bank r n

/-- Rows of registers in a bank. -/
def bankRows (fp64 : Bool) : Nat := if fp64 then 8 else 16

/-- The number of a row of 128 accumulators. -/
def packRow (l : List Nat) : Nat := l.foldr (fun v n => v + 2 ^ 96 * n) 0

/-- The bits of a register row: one row of accumulators, or two in MODE FP64. -/
def packRegs (fp64 : Bool) (l : List Nat) : Nat :=
  if fp64 then packRow (l.map (· % 2 ^ 96)) + 2 ^ 12288 * packRow (l.map (· / 2 ^ 96)) else packRow l

/-- A bank with the register rows from r0 on, count n, replaced. -/
def putRows (fp64 : Bool) (bank r0 : Nat) (rows : List (List Nat)) : Nat :=
  let width := if fp64 then 24576 else 12288
  let lo := bank % 2 ^ (width * r0)
  let hi := bank / 2 ^ (width * (r0 + rows.length))
  let mid := rows.foldr (fun r n => packRegs fp64 r + 2 ^ width * n) 0
  lo + 2 ^ (width * r0) * (mid + 2 ^ (width * rows.length) * hi)

/-- OV of a register (R208). -/
def regOv (n : Nat) (tov : Bool) (reg : Nat) : Bool := tov || outside n (toSigned (n + 32) reg)

/-- OV of a bank: of any of its registers (R329). -/
def Matrix.anyOv (m : Matrix) (which : Bool) : Bool :=
  let b := (m.bank which).toNat
  m.tov which || (List.range (bankRows m.fp64)).any (fun r =>
    (List.range 128).any (fun n => regOv m.accBits false (regAt m.fp64 b r n)))

/-! ## MCFG, MWLOAD, MEXPT (R326 to R328) -/

/-- A matrix instruction's change of the element's matrix state. -/
def Element.modMatrix (e : Element) (f : Matrix → Matrix) : Element := { e with matrix := f e.matrix }

def execMcfg (w : Slot) (s : State) : Res :=
  writeBack w (fun _ _ => { elem := (·.modMatrix (fun m =>
    { m with we := w.imm.extractLsb' 0 12, p := w.imm.toNat / 2 ^ 12 % 64, ebs := w.imm.extractLsb' 18 12, fp64 := w.x,
             plane := 0, drain := 0, active := false, bank0 := 0, bank1 := 0, lost0 := false, tov0 := false,
             lost1 := false, tov1 := false })) }) s

/-- A token's payload put at token place t of an array of tokens. -/
def putToken {n : Nat} (v : BitVec n) (t : Nat) (l : Lanes) : BitVec n :=
  let lo := v.toNat % 2 ^ (512 * t)
  let hi := v.toNat / 2 ^ (512 * (t + 1))
  BitVec.ofNat n (lo + 2 ^ (512 * t) * ((payload l).toNat + 2 ^ 512 * hi))

def execMwload (w : Slot) (s : State) : Res :=
  writeBack w (fun f e =>
    let j := e.matrix.wcursor
    let slice := w.imm.toNat % 8
    if f.poisoned w then { fault := controlFault true }
    else if f.a.passTag ≠ (if j < 16 then tagG1 else 0) || (if e.matrix.fp64 then 4 < slice else slice ≠ 0) then
      { fault := some opRange }
    else
      { elem := (·.modMatrix (fun m =>
          let m := if j = 0 then { m with wready := false, slice } else m
          let m := if j < 16 then { m with wexp := putToken m.wexp j f.a.lanes }
            else { m with weights := putToken m.weights (j - 16) f.a.lanes }
          if j = 207 then { m with wcursor := 0, wready := true } else { m with wcursor := j + 1 })),
        tile := [(5, 2, 1)] }) s

def execMexpt (w : Slot) (s : State) : Res :=
  writeBack w (fun f e =>
    let h := w.imm.toNat % 2
    if f.poisoned w then { fault := controlFault true }
    else if f.a.passTag ≠ tagG1 || (e.matrix.fp64 && h ≠ 0) then { fault := some opRange }
    else { elem := (·.modMatrix (fun m => { m with exps := payload f.a.lanes, rowGroup := h })), tile := [(5, 1, 1)] }) s

/-! ## MPLANE (R328) -/

/-- A byte as a signed number. -/
def signedByte (n : Nat) : Int := toSigned 8 (n % 256)

/-- A weight: signed 12 bits, or unsigned in slices 0 to 3 of MODE FP64 (R205, R328). -/
def weightVal (fp64 : Bool) (slice v : Nat) : Int := if fp64 && slice < 4 then Int.ofNat v else toSigned 12 v

/-- What MPLANE read at selection. -/
structure PlaneRead where
  b : Nat
  exps : Nat
  rowGroup : Nat
  weights : Nat
  wexp : Nat
  slice : Nat
deriving DecidableEq, Repr

def planeRead (l : List Nat) : PlaneRead :=
  ⟨nth l 0 0, nth l 1 0, nth l 2 0, nth l 3 0, nth l 4 0, nth l 5 0⟩

/-- The terms of a row and column of a plane, one for each K block that is not zero (R328). `ws` are the 64 weights of
the column. -/
def planeTerms (m : Matrix) (r : PlaneRead) (bits : Nat) (row n : Nat) (ws : List Int) : List (Int × Int) :=
  (List.range 8).filterMap (fun kb =>
    let da := signedByte (r.exps / 2 ^ (8 * (8 * row + kb)))
    let dw := signedByte (r.wexp / 2 ^ (8 * (128 * kb + n)))
    if da = -128 || dw = -128 then none
    else
      let u := ((ws.drop (8 * kb)).take 8).mapIdx (fun i v =>
        if (bits / 2 ^ (64 * row + 8 * kb + i)) % 2 = 1 then v else 0)
      let u := u.foldl (· + ·) 0
      let u := if r.b + 1 = m.p then -u else u
      some (u, Int.ofNat r.b + da + dw + m.ebs.toInt + 12 * Int.ofNat r.slice))

/-- The register after its terms: value, LOST, TOV and how many terms set LOST (R208). -/
def takeTerms (n : Nat) (we : Int) (reg : Nat) (ts : List (Int × Int)) : Nat × Bool × Bool × Nat :=
  ts.foldl (fun (acc : Nat × Bool × Bool × Nat) t =>
    let x := takeTerm n we acc.1 (some t)
    (x.1, acc.2.1 || x.2.1, acc.2.2.1 || x.2.2, acc.2.2.2 + x.2.1.toNat)) (reg, false, false, 0)

/-- A plane added into the active bank; the answer also counts the terms that set LOST (R328). -/
def Matrix.addPlane (m : Matrix) (r : PlaneRead) (bits : Nat) : Matrix × Nat :=
  let bank := (m.bank m.active).toNat
  let cols := (List.range 128).map (fun n =>
    (List.range 64).map (fun k => weightVal m.fp64 r.slice (r.weights / 2 ^ (12 * (128 * k + n)) % 4096)))
  let rows := (List.range 8).map (fun row => cols.mapIdx (fun n ws =>
    takeTerms m.accBits m.we.toInt (regAt m.fp64 bank (8 * r.rowGroup + row) n) (planeTerms m r bits row n ws)))
  let all := rows.flatten
  let bank := putRows m.fp64 bank (8 * r.rowGroup) (rows.map (·.map (·.1)))
  (m.setBank m.active (BitVec.ofNat 196608 bank) (m.lost m.active || all.any (·.2.1))
    (m.tov m.active || all.any (·.2.2.1)), total (all.map (·.2.2.2)))

def execMplane (w : Slot) (s : State) : Res :=
  writeBack w (fun f e =>
    if f.poisoned w then { fault := controlFault true }
    else if f.a.passTag ≠ 0 then { fault := some opRange }
    else
      let r := e.matrix.addPlane (planeRead f.extra) (payload f.a.lanes).toNat
      { elem := (·.modMatrix (fun _ => r.1)), tile := [(5, 0, 1), (5, 6, r.2)] }) s

/-! ## MDRAIN, MCLR, MSWAP, MSTAT (R329) -/

/-- Row of registers and columns of a drain token. -/
def drainPlace (fp64 : Bool) (t : Nat) : Nat × Nat := if fp64 then (t / 16, 8 * (t % 16)) else (t / 8, 16 * (t % 8))

/-- The bank with the registers of a drain token zeroed (R329). -/
def clearDrained (fp64 : Bool) (bank t : Nat) : Nat :=
  let (r, c) := drainPlace fp64 t
  let n := elemCount fp64
  let row := (List.range 128).map (fun k => if c ≤ k && k < c + n then 0 else regAt fp64 bank r k)
  putRows fp64 bank r [row]

def execMdrain (w : Slot) (s : State) : Res :=
  writeBack w (fun f _ =>
    let t := nth f.extra 0 0
    let bank := nth f.extra 1 0
    let lost := nth f.extra 2 0 = 1
    let tov := nth f.extra 3 0 = 1
    let we := (BitVec.ofNat 12 (nth f.extra 4 0)).toInt
    let fp64 := nth f.extra 5 0 = 1
    let (r, c) := drainPlace fp64 t
    let n := accWidth fp64
    let rs := (List.range (elemCount fp64)).map (fun k =>
      let reg := regAt fp64 bank r (c + k)
      if regOv n tov reg then ((fmtOf fp64).nan, flagNV ||| flagXOV)
      else
        let v := toSigned n (reg % 2 ^ n)
        (fmtOf fp64).round (rndOf w.rnd) (v < 0) v.natAbs we false)
    let clear (m : Matrix) : Matrix :=
      if !w.x then m
      else
        let which := !m.active
        let b := BitVec.ofNat 196608 (clearDrained m.fp64 (m.bank which).toNat t)
        if t = 127 then m.setBank which b false false else m.setBank which b (m.lost which) (m.tov which)
    { res := built (lanesOfElems fp64 (fun k => some (nth rs k (0, 0)).1)),
      first := some (some (Lanes.all (BitVec.ofNat 32 ((t + 1) % 128)))),
      flags := flagsOr (rs.map (·.2)) ||| flagIf lost flagXLOST, elem := (·.modMatrix clear), tile := [(5, 3, 1)] }) s

def execMclr (w : Slot) (s : State) : Res :=
  writeBack w (fun _ _ => { elem := (·.modMatrix (fun m => { (m.setBank (!m.active) 0 false false) with drain := 0 })) }) s

def execMswap (w : Slot) (s : State) : Res :=
  writeBack w (fun _ _ => { elem := (·.modMatrix (fun m => { m with active := !m.active })), tile := [(5, 4, 1)] }) s

/-- Flags of a bank as MSTAT gives them: bit 0 LOST, bit 1 OV, bit 2 TOV. -/
def Matrix.bankFlags (m : Matrix) (which : Bool) : Nat :=
  (m.lost which).toNat + 2 * (m.anyOv which).toNat + 4 * (m.tov which).toNat

/-- The lanes of MSTAT (R329). -/
def Matrix.status (m : Matrix) : List Nat :=
  [m.plane, m.wcursor, m.drain, m.active.toNat, m.bankFlags m.active, m.bankFlags (!m.active),
   (m.we.signExtend 32).toNat, m.p]

def execMstat (w : Slot) (s : State) : Res :=
  writeBack w (fun f _ => { res := built (lanesOfList ((f.extra.take 8).map (BitVec.ofNat 32))) }) s

end Sys2Proof.Machine
end

