-- ==== Sys2Proof/Machine/Special.lean ====
section
/-! DEFINITION. The special functions (R287). The spec bounds a result and says no more: the part's own value
(`Config.special`) is taken where it lies within the bound, and a value near the exact one otherwise (log 6). The
exact value is enclosed by two numbers with 320 bits behind the binary point. -/

namespace Sys2Proof.Machine

/-- One, with 320 bits behind the binary point. -/
def fxOne : Nat := 2 ^ 320

def fxMul (a b : Nat) : Nat := a * b / fxOne

def fxDiv (a b : Nat) : Nat := a * fxOne / b

/-- Σ t / (2k + 1) with t divided by n² at every term, of alternating sign where `alt` is set. -/
def invSeries (n : Nat) (alt : Bool) : Nat → Nat → Nat → Int
  | 0, _, _ => 0
  | fuel + 1, k, t =>
    let rest := invSeries n alt fuel (k + 1) (t / (n * n))
    Int.ofNat (t / (2 * k + 1)) + (if alt then -rest else rest)

/-- π = 16 arctan (1/5) − 4 arctan (1/239). -/
def fxPi : Nat :=
  (16 * invSeries 5 true 72 0 (fxOne / 5) - 4 * invSeries 239 true 22 0 (fxOne / 239)).toNat

/-- ln 2 = 2 artanh (1/3). -/
def fxLn2 : Nat := (2 * invSeries 3 false 104 0 (fxOne / 3)).toNat

/-- Σ z^(2k+1) / (2k + 1), from the term t on. -/
def artanhSeries (zz : Nat) : Nat → Nat → Nat → Nat
  | 0, _, _ => 0
  | fuel + 1, k, t => t / (2 * k + 1) + artanhSeries zz fuel (k + 1) (fxMul t zz)

/-- ln x for x in [1, 2). -/
def fxLn (x : Nat) : Nat :=
  let z := fxDiv (x - fxOne) (x + fxOne)
  2 * artanhSeries (fxMul z z) 104 0 z

/-- Σ x^k / k!, from the term t on. -/
def expSeries (x : Nat) : Nat → Nat → Nat → Nat
  | 0, _, _ => 0
  | fuel + 1, k, t => t + expSeries x fuel (k + 1) (fxMul t x / (k + 1))

/-- e^x for x in [0, 1). -/
def fxExp (x : Nat) : Nat := expSeries x 80 0 fxOne

/-- e^(−x). -/
def fxExpNeg (x : Nat) : Nat := fxDiv fxOne (fxExp (x % fxLn2)) / 2 ^ (x / fxLn2)

/-- Σ ± t^(2k+1) / (2k+1)!, from the term t on. -/
def sinSeries (xx : Nat) : Nat → Nat → Nat → Int
  | 0, _, _ => 0
  | fuel + 1, k, t => Int.ofNat t - sinSeries xx fuel (k + 1) (fxMul t xx / ((2 * k + 2) * (2 * k + 3)))

/-- sin (π x) for x in [0, 1/2]. -/
def fxSinPi (x : Nat) : Nat :=
  let t := fxMul fxPi x
  (sinSeries (fxMul t t) 48 0 t).toNat

/-- The magnitude m × 2^e with 320 bits behind the binary point. -/
def fxOf (m : Nat) (e : Int) : Nat := m * 2 ^ (e + 320).toNat

/-- The functions of R287. -/
inductive SpecialFn where
  | sinpi | cospi | exp2 | log2 | tanh | sigm
deriving DecidableEq, Repr

/-- What R287 says of an input: the result and flags, or the sign of the exact value and two magnitudes that it lies between. -/
inductive SpecialVal where
  | exact (bits : Nat) (flags : Word)
  | near (neg : Bool) (lo hi : Nat)
deriving DecidableEq, Repr

/-- An exact value from one computed with all errors below `err`, known not to pass `top`. -/
def SpecialVal.around (neg : Bool) (y err top : Nat) : SpecialVal := .near neg (min (y - err) top) (min (y + err) top)

/-- More than the sum of the errors of a series here. -/
def fxErr : Nat := 2 ^ 16

def oneS : Nat := 0x3F800000

/-- The half-turn functions of the reduced argument ±x (R286, R287). -/
def halfTurn (cos neg : Bool) (m : Nat) (e : Int) (sign : Nat) : SpecialVal :=
  let x := fxOf m e % (2 * fxOne)
  -- x in [0, 2) half turns of a positive argument
  let y := if cos then (x + fxOne / 2) % (2 * fxOne) else x
  let minus := fxOne ≤ y
  let z := y % fxOne
  let out := minus != (neg && !cos)
  if z = 0 then .exact (if cos then 0 else sign) 0
  else if z = fxOne / 2 then .exact (oneS + fmtS.signBit out) 0
  else .around out (fxSinPi (if fxOne / 2 < z then fxOne - z else z)) fxErr fxOne

/-- e^(−x) with x kept below 2^10, where it is below the last bit anyway. -/
def fxExpNegOf (x : Nat) : Nat := fxExpNeg (min x (1024 * fxOne))

/-- R287 for a finite number that is no zero. -/
def SpecialFn.ofNum (fn : SpecialFn) (neg : Bool) (m : Nat) (e : Int) : SpecialVal :=
  let x := fxOf m (min e 64)
  match fn with
  | .sinpi => halfTurn false neg m e (fmtS.signBit neg)
  | .cospi => halfTurn true neg m e 0
  | .exp2 =>
    let whole := x / fxOne
    let frac := x % fxOne
    if frac = 0 && !neg && whole < 128 then .exact ((127 + whole) * 2 ^ 23) 0
    else if frac = 0 && neg && whole ≤ 149 then .exact (fmtS.round .rne false 1 (-(Int.ofNat whole)) false).1 0
    else if !neg && 128 ≤ whole then .exact (fmtS.inf false) (flagOF ||| flagNX)
    else if !neg then 
      -- an argument of 24 bits below 128 gives no value above the largest finite one
      .around false (fxExp (fxMul frac fxLn2) * 2 ^ whole) (fxErr * 2 ^ whole) (min (fxOne * 2 ^ (whole + 1)) (fxOne * (2 ^ 128 - 2 ^ 104)))
    else .around false (fxExpNegOf (fxMul x fxLn2)) fxErr fxOne
  | .log2 =>
    let k := ilog m e
    if neg then .exact fmtS.nan flagNV
    else
      let man := fxOf m (e - k)
      if man = fxOne then .exact (fmtS.round .rne (k < 0) k.natAbs 0 false).1 0
      else
        let y := k * Int.ofNat fxOne + Int.ofNat (fxDiv (fxLn man) fxLn2)
        .around (y < 0) y.natAbs fxErr (256 * fxOne)
  | .tanh =>
    -- x − x³/3 < tanh x < x
    if x < 2 ^ 290 then .near neg (x - fxMul x (fxMul x x) / 3 - 1) x
    else
      let t := fxExpNegOf (2 * x)
      .around neg (fxDiv (fxOne - t) (fxOne + t)) fxErr fxOne
  | .sigm =>
    let t := fxExpNegOf x
    .around false (if neg then fxDiv t (fxOne + t) else fxDiv fxOne (fxOne + t)) fxErr fxOne

/-- R287 for any input. -/
def SpecialFn.of (fn : SpecialFn) (b : Nat) : SpecialVal :=
  match fmtS.unpack b with
  | .nan s => .exact fmtS.nan (flagIf s flagNV)
  | .inf n =>
    match fn with
    | .sinpi | .cospi => .exact fmtS.nan flagNV
    | .exp2 => .exact (if n then 0 else fmtS.inf false) 0
    | .log2 => if n then .exact fmtS.nan flagNV else .exact (fmtS.inf false) 0
    | .tanh => .exact (oneS + fmtS.signBit n) 0
    | .sigm => .exact (if n then 0 else oneS) 0
  | .num n m e =>
    if m = 0 then
      match fn with
      | .sinpi | .tanh => .exact b 0
      | .cospi | .exp2 => .exact oneS 0
      | .log2 => .exact (fmtS.inf true) flagDZ
      | .sigm => .exact 0x3F000000 0
    else fn.ofNum n m e

/-- Whether R287 allows a result for an exact value between two magnitudes: within the bound in ulp of it, and within the range
that the function keeps to. -/
def SpecialFn.allows (fn : SpecialFn) (neg : Bool) (lo hi : Nat) (b : Nat) : Bool :=
  match fmtS.unpack b with
  | .num n m e =>
    let c := fxOf m e
    let ulp := if lo = 0 then 2 ^ 171 else 2 ^ (max (Nat.log2 lo - 23) 171)
    let bound := match fn with
      | .tanh | .sigm => 2 * ulp
      | _ => ulp
    let diff (y : Nat) : Nat := if n == neg then (if c ≤ y then y - c else c - y) else c + y
    let capped := match fn with
      | .sinpi | .cospi | .tanh => c ≤ fxOne
      | .sigm => c ≤ fxOne && (!n || c = 0)
      | _ => true
    diff lo ≤ bound && diff hi ≤ bound && capped
  | _ => false

/-- A special function: an exact result, or the part's own value within the bound, which sets NX, and UF where it is
tiny (R280, R287). -/
def SpecialFn.result (fn : SpecialFn) (opc : Nat) (a : Nat) : Nat × Word :=
  match fn.of a with
  | .exact b fl => (b, fl)
  | .near neg lo hi =>
    let c := (Config.special opc (BitVec.ofNat 32 a)).toNat
    let r := if fn.allows neg lo hi c then c else (fmtS.round .rne neg lo (-320) true).1
    (r, flagNX ||| flagIf (r / 2 ^ 23 % 2 ^ 8 = 0) flagUF)

def execFsinpi (w : Slot) (s : State) : Res :=
  writeBack w (fun f _ => floatOut w f (fun a _ _ => SpecialFn.sinpi.result 0x088 a)) s

def execFcospi (w : Slot) (s : State) : Res :=
  writeBack w (fun f _ => floatOut w f (fun a _ _ => SpecialFn.cospi.result 0x089 a)) s

def execFexp2 (w : Slot) (s : State) : Res :=
  writeBack w (fun f _ => floatOut w f (fun a _ _ => SpecialFn.exp2.result 0x08B a)) s

def execFlog2 (w : Slot) (s : State) : Res :=
  writeBack w (fun f _ => floatOut w f (fun a _ _ => SpecialFn.log2.result 0x08C a)) s

def execFtanh (w : Slot) (s : State) : Res :=
  writeBack w (fun f _ => floatOut w f (fun a _ _ => SpecialFn.tanh.result 0x08D a)) s

def execFsigm (w : Slot) (s : State) : Res :=
  writeBack w (fun f _ => floatOut w f (fun a _ _ => SpecialFn.sigm.result 0x08E a)) s

end Sys2Proof.Machine
end

