-- ==== Sys2Proof/Machine/Split.lean ====
section
/-! DEFINITION. The SE instructions that reach beyond the tile's banks: FENCES, CPY, RSTS and RATM (R309 to R311). -/

namespace Sys2Proof.Machine

/-- FENCES (R309): the token comes once every earlier access of the SE has performed at SCOPE. -/
def execFences (w : Slot) (s : State) : Res :=
  match s.focus with
  | none => .next s
  | some fo =>
    let s := match fo.firing.entry with
      | some n => s.modElem fo.eid (fun e => { e with fences := e.fences ++ [Fence.mk n (scopeOf w) fo.firing.seq] })
      | none => s
    .next ((s.complete fo w { }).settleFences fo.eid)

/-! ## CPY (R310, R153, R156) -/

/-- A copy's operands: local address, VA and length; none is OPERAND RANGE. -/
def copyOperands (dir : Nat) (a : Lanes) : Option (Nat × Nat × Nat) :=
  let x (l : Nat) : Nat := (wordAt a l).toNat
  let va := x 1 + 2 ^ 32 * x 2
  if !(validAt a 1 && validAt a 2) || va % 64 ≠ 0 then none
  else if dir = 2 then some (0, va, 0)
  else if validAt a 0 && validAt a 3 && x 0 % 64 = 0 && x 3 % 64 = 0 && 64 ≤ x 3 && x 3 ≤ 2 ^ 23 then
    some (sramWrap (x 0), va, x 3)
  else none

/-- The slot that a copy takes: WRIDX, behind the LBPUT.last firings selected before it (R153). -/
def Element.copySlot (e : Element) (n seq : Nat) : Nat :=
  let puts := (e.inflight.filter (fun f =>
    f.opc = 0x109 && f.word.getLsbD 32 && f.word.extractLsb' 27 3 = BitVec.ofNat 3 n && f.seq < seq)).length
  ((e.lap n).wridx + puts) % (e.lapCfg n).nslot

def execCpy (w : Slot) (s : State) : Res :=
  match s.focus with
  | none => .next s
  | some fo =>
    let f := fo.firing
    let e := s.elem fo.eid
    let n := seDesc w
    let dir := w.rnd.toNat
    let c := e.lapCfg n
    if f.a.isPoison then .next (s.complete fo w { fault := controlFault true })
    else if dir = 2 && !c.v then .next (s.complete fo w { fault := some opDescriptor })
    else
      match copyOperands dir f.a.lanes, f.fault with
      | none, _ => .next (s.complete fo w { fault := some opRange })
      | some _, some _ => .next (s.complete fo w { })
      | some (la, va, len), none =>
        let slot := e.copySlot n f.seq
        let (la, len) := if dir = 2 then (lapAddr c slot 0, 64 * (c.slotg + 1)) else (la, len)
        let copy : Copy :=
          { id := f.seq, firing := f, eid := fo.eid, dir, laddr := la, va, len, scope := scopeOf w, entry := f.entry,
            lap := if dir = 2 then some (n, slot) else none, performed := [], acc0 := s.nextId }
        let s := { s with nextId := s.nextId + len / 64 }
        let s := s.modTile (tileOf fo.eid) (fun t => { t with copies := t.copies ++ [copy] })
        let take (p : Lap) : Lap := { p with resv := p.resv + 1, wridx := (p.wridx + 1) % c.nslot }
        .next (s.complete fo w { elem := fun e => if dir = 2 then e.modLap n take else e, tile := [(7, 0, 1)] })

/-! ## Remote SE operations (R311) -/

/-- The target of RSTS and RATM: tile and local address; none where a lane is invalid (R300). -/
def remoteTarget (w : Slot) (f : Firing) : Option (Nat × Nat) :=
  match laneAt f.a.lanes 0, laneAt f.a.lanes 1 with
  | some t, some a => some (t.toNat % 1024, sramWrap (a.toNat + seOff w))
  | _, _ => none

/-- Whether a tile may be the target: it exists, lies in the partition and is not the SE's own. -/
def State.remoteOk (s : State) (eid t : Nat) : Bool :=
  tileOk t && t ≠ tileOf eid && s.partOfCluster (clusterOf t) = s.partOfCluster (clusterOf (tileOf eid))

/-- The write-back of RSTS or RATM: one event at the target bank. -/
def remoteBack (w : Slot) (kind : Firing → AccKind) (result : Nat → OpResult) (s : State) : Res :=
  issueBack w (fun f _ =>
    if f.a.isPoison then ({ fault := controlFault true }, none)
    else
      match remoteTarget w f with
      | none => ({ sink := 0 }, some { port := 4, scope := scopeOf w, poison := f.b.isPoison })
      | some (t, a) =>
        if !(match s.focus with | some fo => s.remoteOk fo.eid t | none => false) then ({ fault := some opRange }, none)
        else if a % 4 ≠ 0 then ({ fault := some (fMEMORY, cALIGN, a) }, none)
        else
          ({ sink := 0 },
           some { port := 4, home := .sram t a, scope := scopeOf w, accs := [(a, kind f)], result := result a,
                  poison := f.b.isPoison })) s

def execRsts (w : Slot) (s : State) : Res :=
  remoteBack w (fun f =>
    .store (((List.range 16).filter (validAt f.b.lanes)).flatMap (fun l =>
      spreadBytes (4 * l) (leBytes 4 (wordAt f.b.lanes l).toNat))) f.b.isPoison)
    (fun a => if w.ack then .ack (BitVec.ofNat 64 a) else .none) s

def execRatm (w : Slot) (s : State) : Res :=
  remoteBack w (fun f =>
    .atomic (atomicCode w) (((List.range 16).filter (validAt f.b.lanes)).map (fun l => (l, 4 * l, wordAt f.b.lanes l)))
      f.b.isPoison) (fun _ => .old) s

end Sys2Proof.Machine
end

