-- ==== Sys2Proof/Machine/System.lean ====
section
/-! DEFINITION. The system instructions (R330 to R346). SELECTION puts into `extra` what a firing reads there: of
TSTAMP the package time, of MELTRD its four lanes. -/

namespace Sys2Proof.Machine

/-- A system operand tagged POISON is a fault (R331). -/
def systemFault (w : Slot) (f : Firing) : Option (Nat × Nat × Nat) := controlFault (f.poisoned w)

/-- TRAP: a fault with the code of IMM (R332). -/
def execTrap (w : Slot) (s : State) : Res :=
  writeBack w (fun f _ => { fault := orFault (systemFault w f) (some (fTRAP, w.imm.toNat % 256, 0)) }) s

/-- BRK: writes back, leaves a BREAK record and holds its instance (R233, R333). -/
def execBrk (w : Slot) (s : State) : Res :=
  match s.focus with
  | none => .next s
  | some fo =>
    let s := s.complete fo w { }
    match (s.elem fo.eid).inst with
    | none => .next s
    | some i =>
      let s := s.produce i (0, fo.eid) fBREAK 1 (some fo.firing.slot) fo.firing.word (s.elem fo.eid).headsWord [] 0
      .next (s.startHold i fo.eid true)

/-! ## Leases (R334 to R336) -/

/-- A request of an element goes to the power controller (R111, R334). -/
def State.askController (s : State) (eid : Nat) (entry : Option Nat) (ask : Word ⊕ (Nat × Nat × Bool)) : State :=
  match (s.elem eid).inst with
  | none => s
  | some i => { s with ctrlQ := s.ctrlQ ++ [⟨i, clusterOf (tileOf eid), eid, entry, ask, s.now⟩] }

/-- LEASE's request from lanes 0 to 2; none is OPERAND RANGE (R334). -/
def leaseAsk (a : Lanes) : Option (Nat × Nat × Bool) :=
  match laneAt a 0, laneAt a 1, laneAt a 2 with
  | some us, some p, some m =>
    if us ≠ 0 && 4 ≤ p.toNat && p.toNat ≤ 7 && m.toNat ≤ 1 then some (us.toNat, p.toNat, m == 1) else none
  | _, _, _ => none

/-- The write-back of LEASE and LEASEEND. -/
def askBack (w : Slot) (ask : Lanes → Option (Word ⊕ (Nat × Nat × Bool))) (s : State) : Res :=
  match s.focus with
  | none => .next s
  | some fo =>
    match systemFault w fo.firing, ask fo.firing.a.lanes with
    | some f, _ => .next (s.complete fo w { fault := some f })
    | none, none => .next (s.complete fo w { fault := some opRange })
    | none, some q => .next ((s.complete fo w { }).askController fo.eid fo.firing.entry q)

def execLease (w : Slot) (s : State) : Res := askBack w (fun a => (leaseAsk a).map Sum.inr) s

def execLeaseend (w : Slot) (s : State) : Res := askBack w (fun a => (laneAt a 0).map Sum.inl) s

def execMeltrd (w : Slot) (s : State) : Res :=
  writeBack w (fun f _ => { res := built (lanesOfList ((f.extra.take 4).map (BitVec.ofNat 32))) }) s

/-! ## Counters (R338) -/

/-- A counter group of an element or its tile. -/
def State.group (s : State) (eid g : Nat) : CounterGroup :=
  if g < 3 then nth (s.elem eid).counters g { } else nth (s.tile (tileOf eid)).counters (g - 3) { }

/-- The 16 lanes of a group's read: C0 to C6, then the package time (R338). -/
def State.groupLanes (s : State) (eid g : Nat) : Lanes :=
  let c := s.group eid g
  lanesOfPairs (fun k => some (BitVec.ofNat 64 (if k = 7 then s.now else nth c.c k 0)))

def execCntrd (w : Slot) (s : State) : Res :=
  match s.focus with
  | none => .next s
  | some fo => .next (s.complete fo w { res := built (s.groupLanes fo.eid (w.imm.toNat % 8)) })

/-- CNTCTL on one group: freeze, run or clear. -/
def CounterGroup.control (g : CounterGroup) (op : Nat) : CounterGroup :=
  match op with
  | 0 => { g with running := false }
  | 1 => { g with running := true }
  | _ => { g with c := [0, 0, 0, 0, 0, 0, 0] }

def execCntctl (w : Slot) (s : State) : Res :=
  match s.focus with
  | none => .next s
  | some fo =>
    let op := w.imm.toNat / 2 ^ 8 % 4
    let on (first : Nat) (l : List CounterGroup) : List CounterGroup :=
      l.mapIdx (fun i g => if w.imm.getLsbD (first + i) then g.control op else g)
    let s := s.complete fo w { elem := fun e => { e with counters := on 0 e.counters } }
    .next (s.modTile (tileOf fo.eid) (fun t => { t with counters := on 3 t.counters }))

/-! ## Time, tracing, completion (R339 to R342) -/

/-- PACE: A with the pacer bit and a fresh log (R340). -/
def execPace (w : Slot) (s : State) : Res :=
  match s.focus with
  | none => .next s
  | some fo => .next (s.complete fo w { res := passed fo.firing.a, log := some ⟨s.now, fo.eid, [], false⟩ })

def execTstamp (w : Slot) (s : State) : Res :=
  match s.focus with
  | none => .next s
  | some fo =>
    let t := nth fo.firing.extra 0 0
    let inst := ((s.instOf fo.eid).map (·.num)).getD 0
    .next (s.complete fo w { res := built (lanesOfList
      [BitVec.ofNat 32 t, BitVec.ofNat 32 (t / 2 ^ 32), BitVec.ofNat 32 fo.eid, BitVec.ofNat 32 inst]) })

/-- Whether R76 takes an index from an instance: issued to it and not yet reported. -/
def Inst.owes (x : Inst) (index : Nat) : Bool := x.held.contains index && !(x.tdones.any (·.index = index))

/-- TDONE (R341): the index waits at the Starter; of a faulted instance nothing is taken (R224). -/
def execTdone (w : Slot) (s : State) : Res :=
  match s.focus with
  | none => .next s
  | some fo =>
    let wrong : Out := { fault := some (fOPERAND, 1, 0) }
    match systemFault w fo.firing, laneAt fo.firing.a.lanes 0, (s.elem fo.eid).inst with
    | some f, _, _ => .next (s.complete fo w { fault := some f })
    | none, none, _ => .next (s.complete fo w wrong)
    | none, some _, none => .next (s.complete fo w { sink := 1 })
    | none, some n, some i =>
      match s.insts.find i with
      | none => .next (s.complete fo w { sink := 1 })
      | some x =>
        if x.faulted then .next (s.complete fo w { sink := 1 })
        else if !x.owes n.toNat then .next (s.complete fo w wrong)
        else .next ((s.complete fo w { sink := 1 }).modInst i (fun x =>
          { x with tdones := x.tdones ++ [⟨fo.eid, n.toNat⟩] }))

/-- YIELD: the residency counts as MINRES, an event of R71; nothing in an instance already past MINRES (R342). -/
def execYield (w : Slot) (s : State) : Res :=
  match s.focus with
  | none => .next s
  | some fo =>
    let s := s.complete fo w { }
    match s.instOf fo.eid, (s.elem fo.eid).inst with
    | some x, some i =>
      if s.pastMinres x then .next s
      else .next ((s.modInst i (fun x => { x with yielded := true })).modPart x.part (fun p => { p with decide_ := true }))
    | _, _ => .next s

/-! ## AMSEND (R343) -/

/-- The operand token of AMSEND: AMOP, OPERAND, CONT, DEST and package; none is OPERAND RANGE. -/
def sendOperands (own : BitVec 8) (a : Lanes) : Option (Nat × Word × DWord × Nat × Nat) :=
  if !((List.range 5).all (validAt a)) then none
  else
    let amop := (wordAt a 0).toNat
    let d := (wordAt a 4).toNat
    let dest := d / 2 ^ 8 % 4
    let pkg := d % 2 ^ 8
    if 256 ≤ amop || 1024 ≤ d || dest = 3 || (dest = 2 && (pkg = own.toNat || 192 ≤ pkg)) then none
    else some (amop, wordAt a 1, wordAt a 3 ++ wordAt a 2, dest, pkg)

/-- Whether an AMOP suits the destination. -/
def sendAmopOk (dest amop : Nat) : Bool :=
  (0x40 ≤ amop && amop ≤ 0x4F) || (dest ≠ 1 && 0x01 ≤ amop && amop ≤ 0x07)

/-- The message goes to its destination: to the host, to the home Starter, or towards another package, where it waits for a port
(R343, R15, R16). -/
def State.deviceSend (s : State) (fo : Focus) (w : Slot) (amop : Nat) (operand : Word) (cont : DWord) (dest pkg : Nat) :
    State :=
  let v := s.vfOf fo.eid
  let seq := (s.vf v).devSeq
  if dest = 2 && s.aqric.all (!·.up) then s.complete fo w { fault := some (fLINK, cAQRIC, 0) }
  else
    let s := s.complete fo w { }
    if dest = 1 && sendAmopOk dest amop then
      s.sendAm v (BitVec.ofNat 8 amop) operand cont (some (fo.eid, fo.firing.entry))
    else
      let s := s.modVf v (fun x => { x with devSeq := x.devSeq + 1 })
      let m : Am := ⟨BitVec.ofNat 8 amop, BitVec.ofNat 9 v, (s.vf v).part, seq, operand, cont, .element fo.eid fo.firing.entry⟩
      if !sendAmopOk dest amop then s.answerSend fo.eid fo.firing.entry nakUNDEFINED seq.toNat
      else if dest = 0 then { s with devAms := s.devAms ++ [m] }
      else
        let (n, s) := s.newId
        { s with podAms := s.podAms ++ [⟨n, fo.eid, pkg, none, m, ((s.elem fo.eid).inst).getD 0, fo.firing⟩] }

/-- A message to another package ends in a link fault, of the port that had accepted it: the element of the AMSEND faults, where it
still runs the instance (R16, R221). -/
def State.failPodAm (s : State) (x : PodAm) (port : Option Nat) : State :=
  let s := { s with podAms := s.podAms.filter (·.id ≠ x.id) }.modElem x.eid (·.freeEntry x.firing.entry)
  let toks := x.firing.entries x.eid 5
  if (s.elem x.eid).inst ≠ some x.inst then s
  else match port with
    | some p => s.takePortFault x.eid p cAQRIC toks
    | none => s.takeFault x.eid fLINK cAQRIC 0 (some x.firing.slot) x.firing.word toks

/-- A message to another package finds its port, or ends in a link fault; one that a port has accepted is answered, in the order in
which its element sent them there (R15, R16, R343, R344). -/
def State.podTurn (s : State) (id : Nat) : State :=
  match s.podAms.find? (·.id = id) with
  | none => s
  | some x =>
    let older := s.podAms.any (fun y => y.id < id && y.pkg = x.pkg && y.eid = x.eid)
    match x.port with
    | none => match s.amPort x.pkg with
      | .waits => s
      | .port p => { s with podAms := s.podAms.map (fun y => if y.id = id then { y with port := some p } else y) }
      | .down => s.failPodAm x none
    | some _ =>
      if older then s
      else
        let (n, s) := { s with podAms := s.podAms.filter (·.id ≠ id) }.takeFresh
        s.answerSend x.eid x.firing.entry (Config.remoteAnswer n).toNat x.am.seq.toNat

def execAmsend (w : Slot) (s : State) : Res :=
  match s.focus with
  | none => .next s
  | some fo =>
    match systemFault w fo.firing, sendOperands s.pkgId fo.firing.a.lanes with
    | some f, _ => .next (s.complete fo w { fault := some f })
    | none, none => .next (s.complete fo w { fault := some opRange })
    | none, some (amop, operand, cont, dest, pkg) => .next (s.deviceSend fo w amop operand cont dest pkg)

/-! ## Flags and policy (R345, R346) -/

def execFlagrd (w : Slot) (s : State) : Res :=
  writeBack w (fun _ e => { res := built (Lanes.all e.flags) }) s

def execFlagclr (w : Slot) (s : State) : Res :=
  writeBack w (fun _ _ => { elem := fun e => { e with flags := e.flags &&& ~~~(w.imm &&& 0xFF) } }) s

/-- POLICYRD: 64 bytes of the active policy, zero where there is none (R346). -/
def execPolicyrd (w : Slot) (s : State) : Res :=
  match s.focus with
  | none => .next s
  | some fo =>
    let p := ((s.instOf fo.eid).map (·.policy)).getD []
    let k := w.imm.toNat % 8
    .next (s.complete fo w { res := built (lanesOf (fun l =>
      some (wordOfBytes ((p.drop (64 * k + 4 * l)).take 4)))) })

end Sys2Proof.Machine
end

