-- ==== Sys2Proof/Machine/Select.lean ====
section
/-! DEFINITION. Selection: eligibility (R142), interlocks (R143), the choice of a slot (R145), the selection effects of
a firing (R146), latencies (R149), and the event SELECTION. -/

namespace Sys2Proof.Machine

/-! ## Latencies (R149 and the instruction tables) -/

/-- Steps from selection to write-back, bank conflicts and extra granules not counted. -/
def baseLatency (opc : Nat) (d : Bool) : Nat :=
  if opc = 0x008 || opc = 0x009 || opc = 0x00A || opc = 0x00B || opc = 0x02D then 4
  else if 0x00C ≤ opc && opc ≤ 0x00F then 18
  else if (0x040 ≤ opc && opc ≤ 0x045) || opc = 0x053 || opc = 0x055 || opc = 0x08A then if d then 6 else 4
  else if opc = 0x04F || opc = 0x051 || opc = 0x052 then if d then 22 else 14
  else if opc = 0x050 then if d then 20 else 12
  else if 0x058 ≤ opc && opc ≤ 0x05A then 3
  else if opc = 0x05C then 6
  else if 0x080 ≤ opc && opc ≤ 0x084 then 4
  else if 0x085 ≤ opc && opc ≤ 0x087 then 6
  else if opc = 0x088 || opc = 0x089 || (0x08B ≤ opc && opc ≤ 0x08E) then 8
  else if opc = 0x09D || opc = 0x09E || opc = 0x0A0 then if d then 8 else 6
  else if 0x09A ≤ opc && opc ≤ 0x09F then 6
  else if 0x100 ≤ opc && opc ≤ 0x103 then 6
  else if 0x104 ≤ opc && opc ≤ 0x108 then 8
  else if opc = 0x109 || opc = 0x10A then 6
  else if opc = 0x143 || opc = 0x144 then 4
  else 2

/-- Steps of a firing with n granule events in its own tile: each one after the first is a step more (R149, R300, R304, R307). -/
def latencyOf (opc : Nat) (w : Slot) (n : Nat) : Nat := baseLatency opc w.d + (n - 1)

/-! ## Interlocks (R143, R324) -/

/-- Registers that an instruction writes: vector registers 0 to 7, a-registers 8 to 11, accumulators 12 and 13, and of
a matrix element the active bank 14, the inactive bank 15, the exponent latch 16 and the weights 17. -/
def writtenRegs (opc : Nat) (w : Slot) : List Nat :=
  dstRegs w.d w.da ++ dstRegs w.d w.db ++
  (match opc with
    | 0x0CA => (List.range (w.imm.toNat % 4 + 1)).map (8 + ·)
    | 0x140 => [14, 15]
    | 0x141 => [17]
    | 0x142 => [16]
    | 0x143 => [14]
    | 0x144 => if w.x then [15] else []
    | 0x145 => [15]
    | 0x146 => [14, 15]
    | _ => [])

/-- Registers that an instruction reads besides those it writes. -/
def readRegs (opc : Nat) (w : Slot) : List Nat :=
  srcRegs w.d w.sa ++ srcRegs w.d w.sb ++ srcRegs w.d w.sc ++
  (match opc with
    | 0x142 => [17]
    | 0x143 => [16, 17]
    | 0x144 => [15]
    | 0x147 => [14, 15]
    | _ => [])

/-- A slot of an element, decoded. -/
structure SlotView where
  n : Nat
  word : BitVec 128
  opc : Nat
  w : Slot

/-- The decoded slot of a word; none where it is empty. -/
def slotView (n : Nat) (word : BitVec 128) : Option SlotView :=
  if !word.getLsbD 127 then none
  else match decodeSlot word with
    | .ok i => (opcodeOf i).map (fun x => ⟨n, word, x.1, x.2⟩)
    | .error _ => none

/-- The registers that firings in flight will write. -/
def Element.busyRegs (e : Element) : List Nat :=
  e.inflight.flatMap (fun f => match slotView f.slot f.word with
    | some v => writtenRegs v.opc v.w
    | none => [])

/-- An eligible slot is blocked by a register that a firing in flight will write (R143). -/
def SlotView.blocked (v : SlotView) (busy : List Nat) : Bool :=
  (readRegs v.opc v.w ++ writtenRegs v.opc v.w).any busy.contains

/-! ## Conditions of an instruction's own -/

/-- Instructions whose answer comes through an answer buffer where DA is an output queue (R301, R331). -/
def splitPhase (opc : Nat) : Bool :=
  [0x10C, 0x10D, 0x10E, 0x10F, 0x110, 0x111, 0x112, 0x113, 0x114, 0x115, 0x117, 0x11A, 0x182, 0x183, 0x18B].contains opc

/-- Places of the answer buffer of an element type. -/
def answerPlaces (ty : ElemType) : Nat :=
  match ty with
  | .ag => 16
  | .se => 8
  | _ => 4

/-- The most flits that the messages of an instruction take (R138). -/
def issueBound (opc : Nat) : Nat :=
  match opc with
  | 0x110 => 2
  | 0x112 => 16
  | 0x111 => 10
  | 0x113 | 0x114 | 0x115 | 0x117 => 32
  | 0x10E | 0x10F => 5
  | _ => 0

/-- Flits in the request side of a tile's egress buffer, with those of messages on their way there. -/
def State.egressLoad (s : State) (t : Nat) : Nat :=
  let flying := total ((tileElems t).map (fun i => match s.elems.find i with
    | some e => total (e.inflight.map (fun f => issueBound f.opc))
    | none => 0))
  let walking := total (s.accs.map (fun a => if tileOf a.2.eid = t && a.2.stage == .walk then a.2.kind.flits else 0))
  s.egressFlits t + flying + walking

/-- The messages of the instruction fit into the tile's egress buffer behind those on their way there (R139, R316). -/
def State.egressRoom (s : State) (eid opc : Nat) : Bool := s.egressLoad (tileOf eid) + issueBound opc ≤ 36

/-- An injection bucket has a token to give, or none limits the instance (R86). -/
def State.bucketOpen (s : State) (eid : Nat) : Bool :=
  let g := clusterOf (tileOf eid)
  !(s.cluster g).injEn || (match s.instOf eid with
    | some x => 0 < x.bucket
    | none => true)

/-- A token enters the instance of an element through its bucket (R86). -/
def State.takeBucket (s : State) (eid : Nat) : State :=
  if !(s.cluster (clusterOf (tileOf eid))).injEn then s
  else match (s.elem eid).inst with
    | some i => s.modInst i (fun x => { x with bucket := x.bucket - 1 })
    | none => s

/-- The KINDs of a stream that an instruction moves tokens from. -/
def movedKinds (opc : Nat) : List Nat :=
  match opc with
  | 0x116 => [0, 6]
  | 0x118 => [2]
  | _ => [3]

/-- The next token of an INGRESS stream: the head frame's first lanes (R323). -/
def Stream.ingressToken (t : Stream) : Option Prefetched :=
  match t.ingress with
  | [] => none
  | (bs, last) :: _ =>
    let lanes := lanesOf (fun l => if 4 * l < bs.length then some (wordOfBytes ((bs.drop (4 * l)).take 4)) else none)
    let tag : Tag := if bs.length ≤ 64 then (if last then tagEnd else 8) else 0
    some { token := ⟨lanes, tag, none⟩, fault := none }

/-- The head token that PATLD, PLANELD or WLD would move. -/
def Stream.head? (t : Stream) : Option Prefetched := if t.cfg.kind = 6 then t.ingressToken else t.buf.head?

/-- Whether every copy place of a tile is taken, CPY firings in flight counted (R156). -/
def State.copiesFull (s : State) (t : Nat) : Bool :=
  8 ≤ (s.tile t).copies.length + total ((tileElems t).map (fun i => match s.elems.find i with
    | some e => (e.inflight.filter (fun f => f.opc = 0x10D)).length
    | none => 0))

/-- The PATSTs of a stream in flight: each may send two frames (R19, R323). -/
def Element.putFlight (e : Element) (k : Nat) : Nat :=
  (e.inflight.filter (fun f => f.opc = 0x117 && (f.word.extractLsb' 28 2).toNat = k)).length

/-- The condition that an instruction's own description adds to R142. -/
def State.ownCondition (s : State) (eid : Nat) (e : Element) (opc : Nat) (w : Slot) : Bool :=
  let n := seDesc w
  let lap := e.lapCfg n
  let t := e.stream (agStream w)
  (!(splitPhase opc && w.da.isOut) || e.ans.length < answerPlaces (elemType eid)) &&
  (match opc with
    | 0x107 =>
      let c := e.hashCfg w
      !c.v || !c.spen || e.freePlaces c.spq (1 + (if w.da = .o (Fin.ofNat 4 c.spq) then 1 else 0) +
        (if w.db = .o (Fin.ofNat 4 c.spq) then 1 else 0))
    | 0x109 => !lap.v || (0 < e.lapFree n && (!w.x || ((e.lap n).resv = 0 && e.lapFlight 0x10D n = 0)))
    | 0x10A => !lap.v || e.lapFlight 0x10A n < (e.lap n).filled
    | 0x10D => !s.copiesFull (tileOf eid) && (w.rnd ≠ 2 || !lap.v || 0 < e.lapFree n)
    | 0x10E | 0x10F | 0x110 | 0x111 | 0x112 | 0x113 => s.egressRoom eid opc
    | 0x114 | 0x115 => t.cfg.fmt ≤ 1 && s.egressRoom eid opc
    | 0x117 =>
      if t.cfg.kind = 5 then s.flowRoom eid (agStream w) (2 * e.putFlight (agStream w) + 2) else s.egressRoom eid opc
    | 0x116 | 0x118 | 0x119 => (t.useFault (movedKinds opc)).isSome || (t.head?.isSome && s.bucketOpen eid)
    | 0x140 | 0x141 => e.matrix.plane = 0
    | 0x142 => e.matrix.plane = 0 && e.matrix.wready
    | 0x143 => 0 < e.matrix.plane
    | 0x146 => e.matrix.plane = 0 && e.matrix.drain = 0
    | _ => true)

/-! ## Eligibility (R142) -/

/-- Whether a predicate is PENDING. -/
def Element.pending (e : Element) (k : Nat) : Bool := nth e.p k .no == .pending

/-- The input test of a trigger (R142). -/
def Element.testOk (e : Element) (t : Option InputTest) : Bool :=
  match t with
  | none => true
  | some t =>
    match e.head? t.q.val with
    | none => false
    | some h => if t.cls then inClass t.code h.tag else h.tag == t.code

/-- The inputs that the slot needs (R142 item 5); MERGE asks for its own (R270). -/
def Element.inputsOk (e : Element) (opc : Nat) (w : Slot) : Bool :=
  let some? (q : Nat) : Bool := (e.head? q).isSome
  let named (s : Src) : Bool := match s.headQueue with
    | some q => some? q.val
    | none => true
  if opc = 0x0C4 then
    if w.rnd = 0 then named w.sa || named w.sb
    else named w.sc && (if condOf (readSource e w.d .int w.imm w.sc) then named w.sa else named w.sb)
  else
    named w.sa && named w.sb && named w.sc && (List.range 4).all (fun q => !w.deq.getLsbD q || some? q)

/-- The output places that the slot needs (R142 item 6). -/
def Element.outputsOk (e : Element) (w : Slot) : Bool :=
  (List.range 4).all (fun q =>
    let n := (if w.da = .o (Fin.ofNat 4 q) then 1 else 0) + (if w.db = .o (Fin.ofNat 4 q) then 1 else 0)
    n = 0 || e.freePlaces q n)

/-- How a slot stands in a selection. -/
structure Standing where
  v : SlotView
  /-- Enable, resolved predicates and the instruction's own condition hold. -/
  base : Bool
  /-- No predicate that it tests or names is PENDING. -/
  settled : Bool
  inputs : Bool
  outputs : Bool

def Standing.eligible (t : Standing) : Bool := t.base && t.settled && t.inputs && t.outputs

/-- The predicates that a slot would make PENDING: PD, or PSET's MASK (R142, R277). -/
def pendingPreds (v : SlotView) : List Nat :=
  (if v.w.pm = .keep then [] else [v.w.pd.val]) ++
  (if v.opc = 0x0CD then (List.range 8).filter (fun k => v.w.imm.getLsbD (8 + k)) else [])

/-- The standing of a slot (R142). -/
def State.standing (s : State) (eid : Nat) (e : Element) (v : SlotView) : Standing :=
  let w := v.w
  let tested (k : Nat) : Bool := w.condT.getLsbD k || w.condF.getLsbD k
  let inputs := e.testOk w.test0 && e.testOk w.test1 && e.inputsOk v.opc w
  { v,
    base := e.en.getLsbD v.n && (List.range 8).all (fun k =>
      e.pending k || ((!w.condT.getLsbD k || nth e.p k .no == .yes) && (!w.condF.getLsbD k || nth e.p k .no == .no))) &&
      s.ownCondition eid e v.opc w,
    settled := (List.range 8).all (fun k => !(tested k && e.pending k)) && (pendingPreds v).all (fun k => !e.pending k),
    inputs, outputs := e.outputsOk w }

/-! ## The choice (R145) -/

/-- The first slot of a PRI level in rotation behind LAST. -/
def rotate (n last : Nat) (l : List SlotView) : Option SlotView :=
  (List.range n).findSome? (fun i => l.find? (fun v => v.n = (last + 1 + i) % n))

/-- best(S) of R145. -/
def Element.best (e : Element) (n : Nat) (l : List SlotView) : Option SlotView :=
  let top := l.foldl (fun m v => max m v.w.pri.toNat) 0
  rotate n (nth e.last top (n - 1)) (l.filter (fun v => v.w.pri.toNat = top))

/-- What a selection decides: the slot, and whether by age override (R145). -/
structure Choice where
  slot : Option SlotView
  override : Bool

def Element.choose (e : Element) (n : Nat) (elig : List SlotView) (busy : List Nat) : Choice :=
  let c := elig.filter (fun v => nth e.age v.n 0 = 64)
  if c.isEmpty then ⟨e.best n (elig.filter (fun v => !v.blocked busy)), false⟩
  else match e.best n c with
    | some v => ⟨if v.blocked busy then none else some v, true⟩
    | none => ⟨none, true⟩

/-- The ages after a selection (R145). -/
def Element.nextAges (e : Element) (n : Nat) (elig : List SlotView) (c : Choice) : List Nat :=
  e.age.mapIdx (fun k a =>
    if n ≤ k then a
    else match c.slot with
      | some w =>
        if w.n = k then 0
        else match elig.find? (fun v => v.n = k) with
          | none => 0
          | some v => if c.override || v.w.pri.toNat < w.w.pri.toNat then min (a + 1) 64 else a
      | none => if elig.any (fun v => v.n = k) then a else 0)

/-! ## The selection effects (R146) -/

/-- The inputs that a firing dequeues (R265 to R273, R278). -/
def dequeueMask (opc : Nat) (w : Slot) (a b c : View) (ca cb : Nat) : BitVec 4 :=
  let ma := headMask w.sa
  let mb := headMask w.sb
  let pick (p q : Bool) : BitVec 4 := (if p then ma else 0) ||| (if q then mb else 0)
  match opc with
  | 0x0C1 => if dupDequeues b then w.deq else 0
  | 0x0C4 =>
    let useA := if w.rnd = 0 then a.tag.isSome else condOf c
    pick useA (!useA) ||| headMask w.sc
  | 0x0C5 =>
    match zipCase w a.passTag b.passTag with
    | .both => pick true true
    | .padA | .dropB => pick false true
    | .padB | .dropA => pick true false
    | .mismatch => 0
  | 0x0C6 | 0x0C7 =>
    let j := joinOf (opc = 0x0C7) a b c ca cb
    pick j.deqA j.deqB
  | 0x0CF => if packDequeues a b then w.deq else 0
  | _ => w.deq

/-- SRDNOW of a cluster (R120). -/
def Cluster.srdNow (c : Cluster) : Nat :=
  if c.srdauto then (if c.hotw ≠ 0 && c.hotw.toNat < c.pwr.toNat then c.srd.toNat else 0) else c.srd.toNat

/-- Places of an input queue freed under a slot-return delay (R121). -/
def Element.freed (e : Element) (srd : Nat) (q : Nat) : Element :=
  if srd = 0 then e else { e with iqHold := upd e.iqHold q (· ++ [srd + 1]) }

/-- The queue of a source, 4 for none. -/
def queueOf (s : Src) : Nat := match s.headQueue with
  | some q => q.val
  | none => 4

/-- What an instruction reads at selection besides its operands. -/
def State.readExtra (s : State) (eid : Nat) (e : Element) (opc : Nat) (w : Slot) (a c : View) : List Nat :=
  match opc with
  | 0x0C4 => [if (if w.rnd = 0 then a.tag.isSome else condOf c) then 1 else 0]
  | 0x0C6 | 0x0C7 => [nth e.cursors (queueOf w.sa) 0, nth e.cursors (queueOf w.sb) 0]
  | 0x107 => if (e.hashCfg w).spen then [(e.hashCfg w).spq + 1] else []
  | 0x109 => [e.putSlot (seDesc w)]
  | 0x10A => [e.getSlot (seDesc w)]
  | 0x10B =>
    let n := seDesc w
    let p := e.lap n
    [p.wridx, p.rdidx, p.filled, p.resv, p.lap, (e.lapCfg n).nslot - p.filled - p.resv]
  | 0x143 => [e.matrix.plane - 1, e.matrix.exps.toNat, e.matrix.rowGroup, e.matrix.weights.toNat, e.matrix.wexp.toNat,
      e.matrix.slice]
  | 0x144 =>
    let m := e.matrix
    [m.drain, (m.bank (!m.active)).toNat, (m.lost (!m.active)).toNat, (m.tov (!m.active)).toNat, m.we.toNat, m.fp64.toNat]
  | 0x147 => e.matrix.status
  | 0x184 => meltLanes (s.cluster (clusterOf (tileOf eid)))
  | 0x188 => [s.now]
  | _ => []
where
  /-- MELT, STATE, OPNOW and LIVE of a cluster (R108, R336). -/
  meltLanes (c : Cluster) : List Nat :=
    let st := match c.msState with
      | .cool => 0
      | .sprint => 1
      | .refreeze => 2
    [c.heat.toNat / 2 ^ 16, st, c.opnow, (c.slots.filter (·.isSome)).length]

/-- A matrix or generator state that changes at selection: the plane counter, the drain cursor, a moved token, discarded
prefetches (R319, R328, R329). -/
def Element.selectState (e : Element) (opc : Nat) (w : Slot) : Element :=
  match opc with
  | 0x142 => e.modMatrix (fun m => { m with plane := m.p })
  | 0x143 => e.modMatrix (fun m => { m with plane := m.plane - 1 })
  | 0x144 => e.modMatrix (fun m => { m with drain := (m.drain + 1) % 128 })
  | 0x11A => { e with streams := e.streams.map Stream.discard }
  | 0x116 | 0x118 | 0x119 => e.modStream (agStream w) Stream.moveHead
  | _ => e

/-- The fault and token that PATLD, PLANELD and WLD carry to their write-back. -/
def Element.movedBy (e : Element) (opc : Nat) (w : Slot) : Option Prefetched × Option (Nat × Nat × Nat) :=
  if opc = 0x116 || opc = 0x118 || opc = 0x119 then
    let t := e.stream (agStream w)
    match t.useFault (movedKinds opc) with
    | some f => (none, some f)
    | none => (t.head?, none)
  else (none, none)

/-- The firing of a slot, and the element after the selection effects; the ended logs are none at selection. -/
def State.fire (s : State) (eid : Nat) (e : Element) (v : SlotView) : State × Nat :=
  let w := v.w
  let a := readSource e w.d (immKind v.opc w.x 0) w.imm w.sa
  let b := readSource e w.d (immKind v.opc w.x 1) w.imm w.sb
  let c := readSource e w.d (immKind v.opc w.x 2) w.imm w.sc
  let ca := nth e.cursors (queueOf w.sa) 0
  let cb := nth e.cursors (queueOf w.sb) 0
  let deq := dequeueMask v.opc w a b c ca cb
  let qs := (List.finRange 4).filter (fun q => deq.getLsbD q.val)
  let deqd := qs.filterMap (fun q => (e.head? q.val).map (fun t => (q, t.depart eid s.now)))
  let extra := s.readExtra eid e v.opc w a c
  let (moved, fault) := e.movedBy v.opc w
  let (seq, s) := s.newId
  let entry := if splitPhase v.opc && w.da.isOut then some seq else none
  let f : Firing :=
    { seq, slot := v.n, word := v.word, a, b, c, deqd, oldPd := nth e.p w.pd.val .no, entry, extra, moved, fault,
      acc := e.srcAcc w.sa, kept := (w.sa.headQueue.filter (fun q => !deq.getLsbD q.val)).bind (fun q => (e.head? q.val).bind (·.pacer)),
      remaining := 0 }
  let f := { f with remaining := latencyOf v.opc w ((s.tile (tileOf eid)).granules e v.opc w f).length - 1 }
  let e0 := e
  let e := e.selectState v.opc w
  let e := { e with iq := e.iq.mapIdx (fun q (l : List Token) => if deq.getLsbD q then l.drop 1 else l) }
  let e := deqd.foldl (fun (e : Element) x => e.freed (s.cluster (clusterOf (tileOf eid))).srdNow x.1.val) e
  let cursors := if v.opc = 0x0C6 || v.opc = 0x0C7 then
      let j := joinOf (v.opc = 0x0C7) a b c ca cb
      upd (upd e.cursors (queueOf w.sa) (fun _ => j.ca)) (queueOf w.sb) (fun _ => j.cb)
    else e.cursors
  let e := { e with
    cursors := cursors.mapIdx (fun q x => if deq.getLsbD q then 0 else x),
    p := (pendingPreds v).foldl (fun (p : List Pred) k => upd p k (fun _ => .pending)) e.p,
    ans := match entry, w.da.outQueue with
      | some n, some q => e.ans ++ [Answer.mk n q w.otag ([0x110, 0x112, 0x114, 0x115].contains v.opc) none]
      | _, _ => e.ans,
    inflight := e.inflight ++ [f] }
  let e := ((e.count 0 0 1).count 0 (1 + w.pri.toNat) 1).count 2 6 deqd.length
  let s := s.setElem eid e
  let s := if v.opc = 0x11A then s.countTile (tileOf eid) 4 6 (total (e0.streams.map Stream.waiting)) else s
  let s := match moved with
    | some p => if p.fault.isNone then s.takeBucket eid else s
    | none => s
  (s, v.n)

/-- One selection of an element (R145): the slot fired, if any. -/
def State.selectOne (s : State) (eid : Nat) : State × Option Nat :=
  let e := s.elem eid
  let n := slotCount (elemType eid)
  let views := (List.range n).filterMap (fun k => slotView k (nth e.bank.slots k 0))
  let st := views.map (s.standing eid e)
  let elig := (st.filter (·.eligible)).map (·.v)
  let busy := e.busyRegs
  let c := e.choose n elig busy
  let blocked := elig.any (fun v => v.blocked busy)
  let only (p : Standing → Bool) : Nat := if st.any p then 1 else 0
  let e1 := { e with age := e.nextAges n elig c, selDone := true }
  let e1 := e1.count 0 6 1
  let e1 := if elig.isEmpty then e1.count 1 0 1 else e1
  let e1 := if blocked then e1.count 1 1 1 else e1
  let e1 := e1.count 1 2 (only (fun t => t.base && t.settled && t.inputs && !t.outputs))
  let e1 := e1.count 1 3 (only (fun t => t.base && t.settled && !t.inputs && t.outputs))
  let e1 := e1.count 1 4 (only (fun t => t.base && !t.settled && t.inputs && t.outputs))
  match c.slot with
  | none => (s.setElem eid e1, none)
  | some v =>
    let e1 := if c.override then e1.count 0 5 1 else { e1 with last := upd e1.last v.w.pri.toNat (fun _ => v.n) }
    let r := s.fire eid e1 v
    let s := match e.inst with
      | some i => r.1.modInst i (fun x => { x with fired := true })
      | none => r.1
    (s, some r.2)

/-- SELECTION (R142 to R146): once a step, in RUN only, and no more once FINISH is at a head (R83). -/
def execSelection (eid : Nat) (s : State) : Res :=
  let e := s.elem eid
  let fin := (List.range 4).any (fun q => (e.head? q).any (fun t => t.tag == tagFinish))
  .next (if e.state == .run && !e.selDone && e.inst.isSome && !fin then (s.selectOne eid).1 else s)

end Sys2Proof.Machine
end

