-- ==== Sys2Proof/Machine/Banks.lean ====
section
/-! DEFINITION. The banks of a tile (R151): one granule event per bank in a step, first the SEs' in rising element id, then
the remote port's in arrival order, then the copy engine's, then the Starter's; a request that has waited 16 steps goes first. -/

namespace Sys2Proof.Machine

/-- Who asks a bank: a firing of an SE; an access at the remote port or a granule of the copy engine, by its name; the Starter. -/
inductive BankBy where
  | se (eid seq : Nat)
  | port (acc : Nat)
  | starter
deriving DecidableEq, Repr

/-- A request at a bank: the steps it has waited, and its place in the order among equals. -/
structure BankReq where
  bank : Nat
  waited : Nat
  rank : Nat
  who : BankBy
deriving DecidableEq, Repr

/-- Whether a request goes ahead of another at its bank. -/
def BankReq.before (x y : BankReq) : Bool :=
  if 16 ≤ x.waited && y.waited < x.waited then true
  else if 16 ≤ y.waited && x.waited < y.waited then false
  else x.rank < y.rank

/-- The first request of each bank. -/
def winners (l : List BankReq) : List BankReq :=
  l.filter (fun x => l.all (fun y => y.bank ≠ x.bank || y == x || x.before y))

/-- The granules that a firing of an element has still to access in its tile. -/
def State.pending (s : State) (eid : Nat) (e : Element) (f : Firing) : List Nat :=
  match slotView f.slot f.word with
  | none => []
  | some v => (s.tile (tileOf eid)).granules e v.opc v.w f

/-- The bank that a firing of an element asks for in this step: the events come one per step, the last in the step of its
write-back (R304). -/
def State.asks (s : State) (eid : Nat) (e : Element) (f : Firing) : Option Nat :=
  let l := s.pending eid e f
  if f.remaining + 1 ≤ l.length then l.head?.map bankOf else none

/-- The requests of an SE: the first of its firings at each bank (R151). -/
def State.seRequests (s : State) (eid : Nat) (e : Element) : List BankReq :=
  let l := e.inflight.filterMap (fun f => (s.asks eid e f).map (fun b => BankReq.mk b f.waited eid (.se eid f.seq)))
  (l.mapIdx (fun i x => (i, x))).filterMap (fun x => if (l.take x.1).any (·.bank = x.2.bank) then none else some x.2)

/-! ## The Starter (R92, R97, R102) -/

/-- The Starter's accesses to the footprint of a tile: 16 granules in each KiB, one in each bank. -/
def Sweep.start (restore : Bool) (footprint : Nat) (sram : List Host.Cell) (poison : List Nat) : Sweep :=
  ⟨restore, if footprint = 0 then [] else (List.range 16).map (fun b => (b, footprint, 0)), sram, poison⟩

/-- The requests of the Starter: one at each bank with granules left. -/
def Sweep.requests (w : Sweep) : List BankReq := w.left.map (fun x => ⟨bankOf x.1, x.2.2, 2 ^ 20 + 2, .starter⟩)

/-- A granule of one SRAM, markers included, laid into another. -/
def layGranule (g : Nat) (from_ onto : List Host.Cell × List Nat) : List Host.Cell × List Nat :=
  let ws := wordsOf (64 * g) 64
  (putBytes onto.1 (64 * g) (bytesAt from_.1 (64 * g) 64), mark (unmark onto.2 ws) (ws.filter from_.2.contains))

/-- A granule of the Starter's is served: read in a save, written in a restore. -/
def Tile.sweepGranule (t : Tile) (w : Sweep) (g : Nat) : Sweep × Tile :=
  if w.restore then
    let m := layGranule g (w.sram, w.poison) (t.sram, t.sramPoison)
    (w, { t with sram := m.1, sramPoison := m.2 })
  else
    let m := layGranule g (t.sram, t.sramPoison) (w.sram, w.poison)
    ({ w with sram := m.1, poison := m.2 }, t)

/-- The Starter after the banks have chosen for a step: where it was chosen the granule is served and its bank goes on to the next;
elsewhere it has waited a step more. -/
def Tile.sweepStep (t : Tile) (won : List Nat) : Tile :=
  match t.sweep with
  | none => t
  | some w =>
    let chosen := w.left.filter (fun x => won.contains (bankOf x.1))
    let r := chosen.foldl (fun (r : Sweep × Tile) x => r.2.sweepGranule r.1 x.1) (w, t)
    let left := w.left.filterMap (fun x => if won.contains (bankOf x.1) then (if x.2.1 ≤ 1 then none else some (x.1 + 16, x.2.1 - 1, 0))
      else some (x.1, x.2.1, x.2.2 + 1))
    let t := r.2.bankEvents chosen.length (if w.restore then 0 else chosen.length) (if w.restore then chosen.length else 0)
    { t with sweep := some { r.1 with left } }

/-- Whether the Starter's accesses to a tile are done. -/
def Tile.swept (t : Tile) : Bool := t.sweep.any (·.left.isEmpty)

/-! ## The choice -/

/-- The tile and copy that a name of an access belongs to. -/
def State.copyOf (s : State) (acc : Nat) : Option (Nat × Copy) :=
  s.tiles.findSome? (fun x => (x.2.copies.find? (fun c => c.acc0 ≤ acc && acc < c.acc0 + c.len / 64)).map (fun c => (x.1, c)))

/-- What still waits at the banks of a tile. -/
def State.bankQueue (s : State) (t : Nat) : List BankWait :=
  (s.tile t).bankWaits.filter (fun w => if w.copy then (s.copyOf w.acc).isSome else (s.accs.find w.acc).isSome)

/-- The requests of the remote port and the copy engine: the first at each bank (R151). -/
def portRequests (l : List BankWait) : List BankReq :=
  (l.mapIdx (fun i w => (i, w))).filterMap (fun x =>
    if (l.take x.1).any (fun y => y.bank = x.2.bank && y.copy = x.2.copy) then none
    else some ⟨x.2.bank, x.2.steps, 2 ^ 20 + x.2.copy.toNat, .port x.2.acc⟩)

/-- A firing after the banks have chosen: a request that was not chosen has waited a step; the firing is due once its last event is
served, with its write-back. -/
def Firing.atBank (f : Firing) (left : Nat) (won asked : Bool) : Firing :=
  let f := { f with waited := if asked && !won then f.waited + 1 else 0 }
  if f.remaining = 0 && won.toNat < left then { f with remaining := 1 } else f

/-- A firing and its tile after the banks have chosen for a step: an event that is not its last performs now (R151, R182). -/
def State.bankTurn (s : State) (eid : Nat) (e : Element) (left : Nat) (won asked : Bool) (f : Firing) : State :=
  match slotView f.slot f.word with
  | none => s
  | some v =>
    let t := tileOf eid
    let r := if won && 1 < left then (s.tile t).serve e v.opc v.w f else (f, s.tile t)
    (s.setTile t r.2).modElem eid (fun e => { e with inflight := e.inflight.map (fun g =>
      if g.seq = f.seq then r.1.atBank left won asked else g) })

/-- The banks of a tile choose for a step: the chosen events of SEs and of the Starter are served, the others of the chosen are kept for
their requests, and whoever asked and was not chosen has waited a step (R149, R151). -/
def State.chooseBanks (s : State) (t : Nat) : State :=
  let es := s.elems.filter (fun x => tileOf x.1 = t && x.2.inst.isSome && elemType x.1 == .se)
  let ses := es.flatMap (fun x => s.seRequests x.1 x.2)
  let queue := s.bankQueue t
  let ports := portRequests queue
  let starter := ((s.tile t).sweep.map (·.requests)).getD []
  let all := ses ++ ports ++ starter
  let won := winners all
  let by_ (l : List BankReq) (who : BankBy) : Bool := l.any (fun r => r.who = who)
  let s' := es.foldl (fun (u : State) x => x.2.inflight.foldl (fun (u : State) f =>
    u.bankTurn x.1 x.2 (s.pending x.1 x.2 f).length (by_ won (.se x.1 f.seq)) (by_ ses (.se x.1 f.seq)) f) u) s
  let tile := (s'.tile t).sweepStep ((won.filter (·.who == .starter)).map (·.bank))
  let tile := { tile with
    bankWaits := (queue.filter (fun (w : BankWait) => !by_ won (.port w.acc))).map (fun (w : BankWait) =>
      if by_ ports (.port w.acc) then { w with steps := w.steps + 1 } else w),
    bankStep := (s.cluster (clusterOf t)).steps + 1,
    banks := won.map (fun (r : BankReq) => (r.bank, match r.who with
      | .port acc => some acc
      | _ => none)) }
  if all.isEmpty && queue.isEmpty then s else s'.setTile t (tile.count 3 1 (all.length - won.length))

/-- The banks of a cluster's tiles choose, before its write-backs. -/
def State.arbitrate (s : State) (g : Nat) : State :=
  (((s.tiles.map (·.1)) ++ (s.elems.map (fun x => tileOf x.1))).dedup.filter (fun t => clusterOf t = g)).foldl State.chooseBanks s

/-- A request of the remote port or the copy engine comes to a bank: the bank takes its event in this step, or it waits
(none). -/
def State.askBank (s : State) (t : Nat) (copy : Bool) (acc granule : Nat) : Bool × State :=
  let tile := s.tile t
  let b := bankOf granule
  let now := (s.cluster (clusterOf t)).steps
  let busy := if tile.bankStep = now then tile.banks else []
  let queue := s.bankQueue t
  let mine := queue.any (fun w => w.acc = acc)
  let first := queue.all (fun w => w.bank ≠ b || w.copy ≠ copy) || (queue.find? (fun w => w.bank = b && w.copy = copy)).any (·.acc = acc)
  let free := match busy.find? (·.1 = b) with
    | none => first
    | some (_, some a) => a = acc
    | some (_, none) => false
  if free then
    (true, s.setTile t { tile with
      bankWaits := queue.filter (fun w => w.acc ≠ acc), bankStep := now,
      banks := (busy.filter (·.1 ≠ b)) ++ [(b, none)] })
  else (false, s.setTile t { tile with bankWaits := if mine then queue else queue ++ [⟨copy, acc, b, 0⟩] })

/-- The accesses that the banks of a tile keep an event for. -/
def Tile.keptFor (t : Tile) : List Nat := t.banks.filterMap (·.2)

end Sys2Proof.Machine
end

