-- ==== Sys2Proof/Machine/Fabric.lean ====
section
/-! DEFINITION. The fabric: queues, routes and far channels (R131 to R137), the track (R138 to R140), and the end of
a step of a cluster (R87, R144, R337). -/

namespace Sys2Proof.Machine

/-! ## Route entries (R132) -/

def routeFar (r : BitVec 32) : Bool := r.getLsbD 30

/-- The element of the tile and the queue that a local entry names. -/
def localDest (tile : Nat) (r : BitVec 32) : Nat × Nat :=
  (eidAt tile (r.extractLsb' 5 3).toNat (r.extractLsb' 2 3).toNat, (r.extractLsb' 0 2).toNat)

/-- The tile and channel that a far entry names, relative to an origin or absolute. -/
def farDestOf (cluster row0 col0 : Nat) (r : BitVec 32) : Nat × Nat :=
  (if r.getLsbD 29 then (r.extractLsb' 0 10).toNat
    else tileAt cluster (row0 + (r.extractLsb' 3 3).toNat) (col0 + (r.extractLsb' 0 3).toNat),
   (r.extractLsb' 16 4).toNat)

/-- The route entry k of an element, where it is valid. -/
def Element.route? (e : Element) (k : Nat) : Option (BitVec 32) :=
  let r := nth e.bank.routes k 0
  if r.getLsbD 31 then some r else none

/-- The endpoint that the far entry k of an element names. -/
def State.farDest (s : State) (eid k : Nat) : Option (Nat × Nat) :=
  match (s.elem eid).route? k, s.instOf eid with
  | some r, some x => if routeFar r then some (farDestOf x.cluster x.row0 x.col0 r) else none
  | _, _ => none

/-- Whether the far entry k leaves the instance: FINISH does not go there (R83). -/
def State.leaves (s : State) (eid k : Nat) : Bool :=
  match s.farDest eid k, s.instOf eid with
  | some d, some x => !x.spans d.1
  | _, _ => false

/-- The element and queue that an endpoint descriptor names, where it is configured (R135). -/
def endpointDest (tile : Nat) (d : BitVec 32) : Option (Nat × Nat) :=
  if d.getLsbD 31 then some (localDest tile d) else none

/-! ## Input queues -/

/-- The live tokens in the input queues, as entries of a FINISH-LIVE record: of place kind 7, with their queue and element, as
R84 says of every case of it (R219). -/
def Element.liveTokens (e : Element) (eid : Nat) : List TokEntry :=
  (List.range 4).flatMap (fun q => ((nth e.iq q []).filter (·.tag ≠ tagFinish)).map (fun t => ⟨t, 7, q, eid, false⟩))

def cFINISHLIVE : Nat := 2

/-- A live token in a queue of a stopped element faults it (R84). -/
def State.checkLive (s : State) (eid : Nat) : State :=
  let e := s.elem eid
  if e.state == .stopping && !(e.liveTokens eid).isEmpty then
    s.takeFault eid fSTREAM cFINISHLIVE 0 none 0 (e.liveTokens eid)
  else s

/-- Whether an input queue shows room for one more token (R121, R125). -/
def Element.inRoom (e : Element) (q : Nat) : Bool := (nth e.iq q []).length + (nth e.iqHold q []).length < 4

/-- An input queue accepts a token (R227, R84). -/
def State.acceptToken (s : State) (eid q : Nat) (t : Token) : State :=
  (s.modElem eid (fun e => { e with iq := upd e.iq q (fun l => l ++ [t.arrive eid s.now]) })).checkLive eid

/-- A token that reaches no configured element, or a full endpoint buffer: its sender faults with the code, with the token as an
entry of kind 7, whose holder is the destination (R84, R137, R219). A FINISH that reaches no configured element, or the token of a
sender that is gone, is only discarded (R84). -/
def State.deadToken (s : State) (sender inst code : Nat) (e : TokEntry) : State :=
  let s := s.endSentLog sender inst e.token 2
  if (e.token.tag = tagFinish && code = cFINISHLIVE) || (s.elem sender).inst ≠ some inst then s
  else s.takeFault sender fSTREAM code 0 none 0 [e]

/-! ## TOKEN_TRANSFER (R134) -/

/-- The route buffer of entry k hands its token on (R134, R139). -/
def State.handOn (s : State) (eid k : Nat) (r : BitVec 32) (t : Token) : State :=
  let tile := tileOf eid
  let srd := (s.cluster (clusterOf tile)).srdNow
  let freed (s : State) : State := s.modElem eid (fun e =>
    { e with rb := upd e.rb k (fun _ => none), rbHold := upd e.rbHold k (fun _ => srd) })
  if routeFar r then
    match s.farDest eid k, (s.elem eid).inst with
    | some d, some i =>
      if s.egressLoad tile + 5 ≤ 36 then (freed s).emitMsg tile d.1 false (.far d.2 ⟨t, eid, k, i⟩) else s
    | _, _ => s
  else
    let d := localDest tile r
    let e := s.elem d.1
    if e.state == .unoccupied then (freed s).deadToken eid ((s.elem eid).inst.getD 0) cFINISHLIVE ⟨t, 7, d.2, d.1, false⟩
    else if e.inRoom d.2 then (freed s).acceptToken d.1 d.2 t
    else s

/-- The destinations of an output queue's head that have their copy or take none (R83, R92). -/
def State.served (s : State) (eid q : Nat) (t : Token) : List Nat :=
  let e := s.elem eid
  (e.bank.routesOf q).filter (fun j =>
    (nth e.taken q 0).getLsbD j || (t.tag == tagFinish && s.leaves eid (4 * q + j)))

/-- The head of an output queue is copied into the route buffer of entry k; the head's place is freed with the last
copy (R134, R136). -/
def State.copyHead (s : State) (eid k : Nat) (t : Token) : State :=
  let q := k / 4
  let j := k % 4
  if (s.served eid q t).contains j then s
  else
    let s := s.modElem eid (fun e =>
      { e with
        rb := upd e.rb k (fun _ => some t), rbFresh := e.rbFresh ||| BitVec.ofNat 16 (2 ^ k),
        credits := if (nth e.bank.routes k 0).getLsbD 30 then upd e.credits k (· - 1) else e.credits,
        taken := upd e.taken q (fun m => m ||| BitVec.ofNat 4 (2 ^ j)) })
    if (s.served eid q t).length = ((s.elem eid).bank.routesOf q).length then
      s.modElem eid (fun e => { e with oq := upd e.oq q (·.drop 1), taken := upd e.taken q (fun _ => 0) })
    else s

/-- Whether a copy of the head may enter the route buffer of entry k: it is empty, and a far entry has a credit. -/
def Element.copyRoom (e : Element) (k : Nat) (r : BitVec 32) : Bool :=
  (nth e.rb k none).isNone && nth e.rbHold k 0 = 0 && (!routeFar r || (0 < nth e.credits k 0 && !e.withdrawn.getLsbD k))

/-- TOKEN_TRANSFER: one move on a route entry, out of its buffer or into it; not while the tile's hops are stopped
(R92). -/
def execTokenTransfer (eid k : Nat) (s : State) : Res :=
  let e := s.elem eid
  .next (if (s.tile (tileOf eid)).hopsStopped then s
    else match e.route? k with
      | none => s
      | some r =>
        match nth e.rb k none, e.rbFresh.getLsbD k, (nth e.oq (k / 4) []).head? with
        | some t, false, _ => s.handOn eid k r t
        | none, _, some t => if e.copyRoom k r then s.copyHead eid k t else s
        | _, _, _ => s)

/-! ## Far channels (R135 to R137) -/

/-- A message leaves the track. -/
def State.dropMsg (s : State) (id : Nat) : State := { s with track := s.track.filter (·.id ≠ id) }

/-- The first message of its source, destination and network: messages arrive in the order of their injection (R140). -/
def State.arriving (s : State) (id : Nat) : Option Msg :=
  match s.track.find? (·.id = id) with
  | none => none
  | some m =>
    let same (x : Msg) : Bool := x.src = m.src && x.dst = m.dst && (match m.body, x.body with
      | .credit _ _ _, .credit _ _ _ => true
      | .credit _ _ _, _ => false
      | _, .credit _ _ _ => false
      | _, _ => true)
    if (s.track.find? same).map (·.id) = some id then some m else none

/-- A credit goes back to the sending entry on the response network (R136). -/
def State.giveCredit (s : State) (tile : Nat) (f : FarTok) : State :=
  s.emitMsg tile (tileOf f.eid) true (.credit f.eid f.entry f.inst)

/-- Whether the endpoint of a channel takes tokens: configured, its element occupied, and its tile in the sender's
partition (R137). -/
def State.endpointLive (s : State) (src tile ch : Nat) : Bool :=
  match endpointDest tile (nth (s.tile tile).endpoints ch 0) with
  | none => false
  | some d =>
    (s.elem d.1).state != .unoccupied && s.partOfCluster (clusterOf src) == s.partOfCluster (clusterOf tile) &&
    (s.tile tile).gate == .powered

/-- FAR_TOKEN_ARRIVAL (R137, R84): buffered, discarded with its credit returned, or FAR-OVERRUN. -/
def execFarTokenArrival (msg : Nat) (s : State) : Res :=
  match s.arriving msg with
  | none => .next s
  | some m =>
    match m.body with
    | .far ch f =>
      let s := s.dropMsg msg
      if !s.endpointLive m.src m.dst ch then
        .next ((s.giveCredit m.dst f).deadToken f.eid f.inst cFINISHLIVE ⟨f.tok, 7, ch, m.dst, true⟩)
      else if 8 ≤ (nth (s.tile m.dst).epBuf ch []).length then
        .next ((s.countTile m.dst 6 5 1).deadToken f.eid f.inst cFARRUN ⟨f.tok, 7, ch, m.dst, true⟩)
      else
        .next ((s.modTile m.dst (fun t => { t with epBuf := upd t.epBuf ch (· ++ [f]) })).countTile m.dst 6 1 1)
    | _ => .next s

/-- ENDPOINT_DELIVERY (R135, R136, R86): the endpoint's oldest token enters its queue and returns a credit; a token
from outside the instance takes one unit of the bucket. -/
def execEndpointDelivery (tile ch : Nat) (s : State) : Res :=
  let t := s.tile tile
  match endpointDest tile (nth t.endpoints ch 0), nth t.epBuf ch [] with
  | some d, f :: _ =>
    let e := s.elem d.1
    let outside : Bool := e.inst ≠ some f.inst
    let room := total (t.egressResp.map s.msgFlits) + 1 ≤ 36
    if t.hopsStopped || t.epFresh.getLsbD ch || e.state == .unoccupied || !e.inRoom d.2 || !room ||
        (outside && !s.bucketOpen d.1) then .next s
    else
      let s := if outside then s.takeBucket d.1 else s
      let s := s.modTile tile (fun t =>
        { t with epBuf := upd t.epBuf ch (·.drop 1), epFresh := t.epFresh ||| BitVec.ofNat 16 (2 ^ ch) })
      .next ((s.giveCredit tile f).acceptToken d.1 d.2 f.tok)
  | _, _ => .next s

/-- CREDIT_RETURN (R136): one credit to the entry, unless its endpoint withdrew the channel's credits (R94). -/
def execCreditReturn (msg : Nat) (s : State) : Res :=
  match s.arriving msg with
  | none => .next s
  | some m =>
    match m.body with
    | .credit eid k i =>
      let s := s.dropMsg msg
      let e := s.elem eid
      .next (if e.inst = some i && !e.withdrawn.getLsbD k then
        s.setElem eid { e with credits := upd e.credits k (fun c => min (c + 1) 8) } else s)
    | _ => .next s

/-! ## The track (R138 to R140) -/

/-- Cluster boundaries between two tiles of the grid of a quarter (R140). -/
def boundaries (a b : Nat) : Nat :=
  let d (x y : Nat) : Nat := if x / 6 = y / 6 then 0 else 1
  d (gridRow a) (gridRow b) + d (gridCol a) (gridCol b)

/-- Whether a message stays in the egress buffer of a tile whose hops are stopped for a save: a far-channel token or a
load request (R92, R139). -/
def State.staysBehind (s : State) (m : Msg) : Bool :=
  match m.body with
  | .far _ _ => true
  | .credit _ _ _ => false
  | .access a => match s.accs.find a with
    | some x => x.kind.want == .load
    | none => false

/-- The messages of a network that lie whole in a tile's egress buffer of 36 flits (R139); those behind them wait at their
sources. -/
def State.buffered (s : State) : Nat → List Msg → List Msg
  | _, [] => []
  | room, m :: l => if s.msgFlits m ≤ room then m :: s.buffered (room - s.msgFlits m) l else []

/-- The next message that a tile injects on a network, of those in its buffer. -/
def State.nextInject (s : State) (tile : Nat) (response : Bool) : Option Msg :=
  let t := s.tile tile
  (s.buffered 36 (if response then t.egressResp else t.egressReq)).find? (fun m => !(t.hopsStopped && s.staysBehind m))

/-- TRACK_INJECT (R139): a whole message leaves the egress buffer; its access has thereby performed at TILE scope where
R176 says so. -/
def execTrackInject (tile : Nat) (response : Bool) (s : State) : Res :=
  match s.nextInject tile response with
  | none => .next s
  | some m =>
    let s := s.countTile tile 6 3 (s.msgFlits m)
    let s := s.modTile tile (fun t =>
      if response then { t with egressResp := t.egressResp.filter (·.id ≠ m.id) }
      else { t with egressReq := t.egressReq.filter (·.id ≠ m.id) })
    let s := { s with track := s.track ++ [m] }
    match m.body with
    | .far _ _ => .next ((s.countTile tile 6 0 1).countTile tile 6 6 (boundaries m.src m.dst))
    | .credit _ _ _ => .next s
    | .access a =>
      match s.accs.find a with
      | some x => .next (({ s with accs := s.accs.put a { x with stage := .track } }).settle x.op x.eid)
      | none => .next s

/-! ## The end of a step -/

/-- What the counters of an element take in a step (R337). -/
def Element.countStep (e : Element) (ty : ElemType) : Element :=
  let occ (l : List (List Token)) : Nat := total (l.map List.length)
  let one (c : Bool) : Nat := if c then 1 else 0
  let e := e.count 1 5 (one (e.state == .held))
  let e := e.count 1 6 (one (e.state == .stopping))
  let e := (e.count 2 0 (occ e.iq)).count 2 1 (occ e.oq)
  let e := e.count 2 2 (one (e.iq.any (fun l => 4 ≤ l.length)))
  let e := e.count 2 3 (one (e.oq.any (fun l => 2 ≤ l.length)))
  e.count 2 4 (one (e.ans.length = answerPlaces ty))

/-- An element at the end of a step: firings come nearer to their write-back, and the step's marks go. -/
def Element.endStep (e : Element) (ty : ElemType) : Element :=
  let e := if e.inst.isSome then e.countStep ty else e
  { e with
    inflight := e.inflight.map (fun f => { f with remaining := f.remaining - 1 }), selDone := false, rbFresh := 0,
    rbHold := e.rbHold.map (· - 1), iqHold := e.iqHold.map (fun l => (l.map (· - 1)).filter (· ≠ 0)) }

/-- Whether an element has a copy of a head that waits only for a credit. -/
def State.waitsCredit (s : State) (eid : Nat) (e : Element) : Bool :=
  (e.oq.mapIdx (fun q l => (q, l))).any (fun x =>
    match x.2 with
    | [] => false
    | t :: _ => (e.bank.routesOf x.1).any (fun j =>
      let k := 4 * x.1 + j
      routeFar (nth e.bank.routes k 0) && (nth e.rb k none).isNone && !(s.served eid x.1 t).contains j &&
        (nth e.credits k 0 = 0 || e.withdrawn.getLsbD k)))

/-- A tile at the end of a step (R337). -/
def State.endTileStep (s : State) (n : Nat) (t : Tile) : Tile :=
  let one (c : Bool) : Nat := if c then 1 else 0
  let live := s.elems.filter (fun x => tileOf x.1 = n && x.2.inst.isSome)
  let t := t.count 4 3 (one (s.accs.any (fun a => tileOf a.2.eid = n && a.2.stage == .walk)))
  let t := t.count 5 5 (live.filter (fun x => elemType x.1 == .me && x.2.matrix.plane = 0)).length
  let t := t.count 6 2 (one (live.any (fun x => s.waitsCredit x.1 x.2)))
  let t := t.count 6 4 (one (!t.egressReq.isEmpty))
  { t with epFresh := 0 }

/-- Whether a stream may prefetch now (R184, R313, R319): from the selection of a FENCEG, which discards what was prefetched, to
the fence's completion it may not. -/
def Element.mayPrefetch (e : Element) (t : Stream) : Bool :=
  (e.state == .run || e.state == .held) && t.mode == .prefetching && t.cfg.v && t.cfg.setupFault.isNone &&
  [0, 2, 3].contains t.cfg.kind && !t.halted && t.buf.length < 32 && e.fences.isEmpty &&
  e.inflight.all (fun f => f.opc ≠ 0x11A) && t.fetch < t.cfg.total

/-- Whether the template of a stream is still to be read (R323). -/
def Element.needsTemplate (e : Element) (t : Stream) : Bool :=
  (e.state == .run || e.state == .held) && t.cfg.v && t.cfg.setupFault.isNone && [5, 6].contains t.cfg.kind && t.tmpl.isNone

/-- Whether an operation of an instance is outstanding, the load of a prefetch among them (R87). -/
def State.busyInst (s : State) (i : Nat) (x : Inst) : Bool :=
  let mine (eid : Nat) : Bool := (s.elem eid).inst == some i
  let far (m : Msg) : Bool := match m.body with
    | .far _ f => f.inst = i
    | _ => false
  s.ops.any (fun o => o.2.inst = i) || s.ctrlQ.any (·.inst = i) || s.podAms.any (·.inst = i) ||
  x.elems.any (fun eid => mine eid && (s.elem eid).streams.any (fun t => (s.elem eid).mayPrefetch t)) ||
  s.track.any far || x.tiles.any (fun t => (s.tile t).copies.any (fun c => mine c.eid) || (s.tile t).egressReq.any far) ||
  (s.cluster x.cluster).slots.any (fun l => match l with
    | some l => l.inst = i && l.begin_.isNone
    | none => false) ||
  (s.devAms ++ s.stalled).any (fun m => match m.sender with
    | .element e _ => mine e
    | _ => false) ||
  (s.vf x.vf).out.any (fun o => match o.sender with
    | some (e, _) => mine e
    | none => false)

/-- The watchdog of an instance at the end of a step (R87). -/
def State.watch (s : State) (i : Nat) (x : Inst) : Inst :=
  let quiet := (x.phase == .run || x.phase == .teardown) && x.stop == .none && !x.faulted
  let owed := x.held.any (fun n => !(x.tdones.any (·.index = n)))
  let count := if !quiet then x.watchdog
    else if owed && !x.fired && !s.busyInst i x then min (x.watchdog + 1) (2 ^ 20) else 0
  { x with watchdog := count, fired := false }

/-- A step of a cluster ends. -/
def State.fabricStep (s : State) (g : Nat) : State :=
  let s0 := s
  { s with
    elems := s.elems.map (fun x =>
      if clusterOf (tileOf x.1) = g then (x.1, x.2.endStep (elemType x.1)) else x),
    tiles := s.tiles.map (fun x => if clusterOf x.1 = g then (x.1, s0.endTileStep x.1 x.2) else x),
    insts := s.insts.map (fun x => if x.2.cluster = g then (x.1, s0.watch x.1 x.2) else x),
    clusters := upd s.clusters g (fun c => { c with steps := c.steps + 1 }) }

end Sys2Proof.Machine
end

