-- ==== Sys2Proof/Machine/MemSys.lean ====
section
/-! DEFINITION. Walks (R161, R165), prefetches (R314, R319, R321), the delivery of answers (R301), the completion of
copies (R153, R156), and soft errors and failures on the way (R12, R16, R173). -/

namespace Sys2Proof.Machine

/-! ## Operations that fail after their firing has written back -/

/-- An operation gives no answer any more: its entry is freed. -/
def State.muteOp (s : State) (id : Nat) : State :=
  match s.ops.find id with
  | none => s
  | some op =>
    let s := s.modElem op.eid (·.freeEntry op.entry)
    { s with ops := s.ops.put id { op with entry := none, result := .none } }

/-- An access leaves the part, with its message. -/
def State.dropAccess (s : State) (a : Access) : State :=
  let here (m : Msg) : Bool := m.body != .access a.id
  let s := { s with accs := s.accs.drop a.id, track := s.track.filter here }
  s.modTile (tileOf a.eid) (fun t => { t with egressReq := t.egressReq.filter here })

/-- An operation ends in a fault of the element that issued it, where that element still runs the instance: the tokens
are withheld (R167), the access and the later ones of the operation are not made, the earlier ones go on (R186). A fault of a port is the port's (R221). -/
def State.failOp (s : State) (a : Access) (f : Nat × Nat × Nat) (port : Option Nat := none) : State :=
  match s.ops.find a.op with
  | none => s.dropAccess a
  | some op =>
    let later := (s.opAccs a.op).filter (fun x => a.id ≤ x.id && (x.stage == .walk || x.id = a.id))
    let s := later.foldl State.dropAccess (s.muteOp a.op)
    let kind := if elemType a.eid == .ag && withheld f.1 f.2.1 then 6 else 5
    let toks := op.firing.entries a.eid kind
    let s := if (s.elem a.eid).inst ≠ some op.inst then s
      else match port with
        | some p => s.takePortFault a.eid p f.2.1 toks
        | none => s.takeFault a.eid f.1 f.2.1 f.2.2 (some op.firing.slot) op.firing.word toks
    s.settle a.op a.eid

/-! ## WALK_DONE (R161, R165) -/

/-- The oldest access of a port that waits for a walk. -/
def State.oldestWalk (s : State) (a : Access) : Bool :=
  !(s.accs.any (fun x => x.2.eid = a.eid && x.2.port = a.port && x.2.stage == .walk && x.1 < a.id))

/-- WALK_DONE: the walk of an access ends; its stream's entry is refilled and it enters the egress buffer, or the
element faults. -/
def execWalkDone (acc : Nat) (s : State) : Res :=
  match s.accs.find acc with
  | none => .next s
  | some a =>
    match s.ops.find a.op with
    | none => .next (s.dropAccess a)
    | some op =>
      if a.stage != .walk || !s.oldestWalk a || s.tableWaits (s.vfOf a.eid) a.va then .next s
      else
        match s.resolve op a.va a.kind with
        | (.error f, s) => .next (s.failOp a f)
        | (.ok h, s) =>
          let s := { s.noteHome a.op h with accs := s.accs.put acc { a with home := h, stage := .egress } }
          .next (s.emitMsg (tileOf a.eid) h.dst false (.access acc))

/-! ## PREFETCH (R314, R319, R321) -/

/-- The codes of elements read: payloads, scale bytes for each 8 positions, the band scale, and poison. -/
structure Codes where
  elems : List Nat := []
  scales : List Nat := []
  band : Nat := 0
  poison : Bool := false
deriving DecidableEq, Repr

/-- Read spans one after another. -/
def State.readSpans (s : State) (eid k : Nat) (l : List (Nat × Nat)) :
    Except ReadStop (List (List Byte) × Bool) × State :=
  l.foldl (fun (acc : Except ReadStop (List (List Byte) × Bool) × State) x =>
    match acc.1 with
    | .error e => (.error e, acc.2)
    | .ok (bs, bad) =>
      match acc.2.readSpan eid k x.1 x.2 with
      | (.error e, s) => (.error e, s)
      | (.ok r, s) => (.ok (bs ++ [r.1], bad || r.2), s)) (.ok ([], false), s)

/-- Parts of n bytes of a byte list. -/
def fieldOf (bs : List Byte) (off n : Nat) : Nat := leNat ((bs.drop off).take n)

/-- Numbers of n bytes each. -/
def chunks (n : Nat) (count : Nat) (bs : List Byte) : List Nat := (List.range count).map (fun i => leNat ((bs.drop (n * i)).take n))

/-- Where the elements of a token lie: the spans to read. -/
def StreamCfg.spans (c : StreamCfg) (t : PatTok) : List (Nat × Nat) :=
  let size := fmtBytes c.fmt
  if isBlock c.fmt then
    (c.nibAddr (c.off t 0), (t.n + 1) / 2) ::
    (List.range ((t.n + 7) / 8)).map (fun j => (c.scaleAddr (c.off t 0 + 8 * Int.ofNat j), 1)) ++ [(c.bandAddr t.ix, 2)]
  else if nth c.stride 0 0 = 1 then [(vaAt c.base (c.off t 0) size, t.n * size)]
  else (List.range t.n).map (fun k => (vaAt c.base (c.off t k) size, size))

/-- The codes of a token from what its spans hold. -/
def StreamCfg.codes (c : StreamCfg) (t : PatTok) (l : List (List Byte)) (poison : Bool) : Codes :=
  if isBlock c.fmt then
    let bs := (l.headD []).map BitVec.toNat
    { elems := (List.range t.n).map (fun i => nth bs (i / 2) 0 / 16 ^ (i % 2) % 16),
      scales := ((l.drop 1).dropLast).map leNat, band := leNat (l.getLastD []), poison }
  else { elems := chunks (fmtBytes c.fmt) t.n l.flatten, poison }

/-- The elements of a token of a stream, after the checks of R157 and R314. -/
def State.readToken (s : State) (eid k : Nat) (c : StreamCfg) (t : PatTok) : Except ReadStop Codes × State :=
  match addrFault (c.checked t) with
  | some f => (.error (.fault f), s)
  | none =>
    match s.readSpans eid k (c.spans t) with
    | (.error e, s) => (.error e, s)
    | (.ok (l, bad), s) => (.ok (c.codes t l bad), s)

/-- Position i of a token of a block format widened (R196). -/
def Codes.widen (x : Codes) (f i : Nat) : Widened := widenBlock f (nth x.elems i 0) (nth x.scales (i / 8) 0) x.band

/-- The token of a LOAD stream's position (R192 to R196, R314). -/
def loadToken (c : StreamCfg) (t : PatTok) (x : Codes) : Prefetched :=
  let tag := if x.poison then tagPoison else c.tagOf t
  if isBlock c.fmt then
    let w := (List.range t.n).map (x.widen c.fmt)
    { token := ⟨lanesOf (fun l => (w[l]?).map (·.lane)), tag, none⟩, fault := none,
      stats := w.foldl (fun a b => a.add b.counts) { }, flags := flagsOr (w.map (·.flags)) }
  else if c.fmt = 3 then
    { token := ⟨lanesOfPairs (fun p => (x.elems[p]?).map (BitVec.ofNat 64)), tag, none⟩, fault := none }
  else { token := ⟨lanesOf (fun l => (x.elems[l]?).map (widenElem c.fmt)), tag, none⟩, fault := none }

/-- The exact values of a row of a plane or weight operand (R202). -/
def rowValues (f : Nat) (x : Codes) : List Elem :=
  (List.range x.elems.length).map (fun i =>
    let b := nth x.elems i 0
    if isBlock f then elemOf (fmtS.unpack (x.widen f i).lane.toNat)
    else match f with
      | 2 => elemOf (fmtS.unpack b)
      | 3 => elemOf (fmtD.unpack b)
      | 8 | 9 | 10 =>
        let v := if f = 9 then Int.ofNat b else (widenElem f b).toInt
        some (decide (v < 0), v.natAbs, 0)
      | _ => elemOf (unpackNarrow f b))

/-- What the block formats count in a row, and their flags. -/
def rowCounts (f : Nat) (x : Codes) : Counts × Word :=
  if isBlock f then
    let w := (List.range x.elems.length).map (x.widen f)
    (w.foldl (fun a b => a.add b.counts) { }, flagsOr (w.map (·.flags)))
  else ({ }, 0)

/-- The end token behind a run (R321). -/
def StreamCfg.endToken (c : StreamCfg) (line : Nat) : Prefetched :=
  let ix := c.lineIx line
  let last (j : Nat) : Nat := if j = 0 then c.groups else c.e (j + 1)
  let n := ((List.range 4).takeWhile (fun j => nth ix j 0 + 1 = last j)).length
  { token := ⟨Lanes.empty, BitVec.ofNat 4 (8 + n), none⟩, fault := none }

/-- Rows of a group or block read, one after another; a row beyond the extent is empty. -/
def State.readRows (s : State) (eid k : Nat) (c : StreamCfg) (line g0 : Nat) : Except ReadStop (List Codes) × State :=
  let ix := c.lineIx line
  (List.range c.groupRows).foldl (fun (acc : Except ReadStop (List Codes) × State) r =>
    match acc.1 with
    | .error e => (.error e, acc.2)
    | .ok l =>
      let i1 := nth ix 0 0 * c.groupRows + r
      if c.e 1 ≤ i1 then (.ok (l ++ [{ }]), acc.2)
      else
        match acc.2.readToken eid k c ⟨64 * g0, min 64 (c.e 0 - 64 * g0), i1 :: ix.drop 1⟩ with
        | (.error e, s) => (.error e, s)
        | (.ok x, s) => (.ok (l ++ [x]), s)) (.ok [], s)

/-- The tokens of a group or block from its rows, the counts on the first of them; or the code of the fault that holds
the whole of it back (R202 to R205). -/
def StreamCfg.groupTokens (c : StreamCfg) (rows : List Codes) : Except Nat (List Prefetched) :=
  let p := if c.kind = 2 then c.planes else if c.fmt = 3 then 60 else 12
  let zero : Elem := some (false, 0, 0)
  let al := rows.map (fun x =>
    let v := rowValues c.fmt x
    let v := v ++ List.replicate (64 - v.length) zero
    (List.range 8).map (fun b => alignBlock p c.eb (blockOf v b)))
  match al.flatten.findSome? (·.fault) with
  | some code => .error code
  | none =>
    let counts := (rows.map (fun x => (rowCounts c.fmt x).1) ++ al.flatten.map (·.counts)).foldl Counts.add { }
    let flags := flagsOr (rows.map (fun x => (rowCounts c.fmt x).2)) ||| counts.flags
    let toks := if c.kind = 2 then planeTokens p al
      else if c.fmt = 3 then (List.range 5).flatMap (fun i => weightTokens al (12 * i))
      else weightTokens al 0
    let bad := rows.any (·.poison)
    .ok (toks.mapIdx (fun i t =>
      { token := if bad then { t with tag := tagPoison } else t, fault := none,
        stats := if i = 0 then counts else { }, flags := if i = 0 then flags else 0 }))

/-- The tokens from a position on that one prefetch gives; an error withholds the next token. -/
def State.fetchTokens (s : State) (eid k : Nat) (t : Stream) : Except ReadStop (List Prefetched) × State :=
  let c := t.cfg
  if c.kind = 0 then
    let tok := c.tok t.fetch
    match s.readToken eid k c tok with
    | (.error e, s) => (.error e, s)
    | (.ok x, s) => (.ok [loadToken c tok x], s)
  else
    let (line, at_) := c.place t.fetch
    if at_ + 1 = c.lineToks then (.ok [c.endToken line], s)
    else
      match s.readRows eid k c line (at_ / c.groupToks) with
      | (.error e, s) => (.error e, s)
      | (.ok rows, s) =>
        match c.groupTokens rows with
        | .error code => (.error (.fault (fSTREAM, code, 0)), s)
        | .ok l => (.ok (l.drop (at_ % c.groupToks)), s)

/-- PREFETCH: the next token of the pattern enters the buffer; a failure is a withheld token behind which the prefetch
stops (R319). A stream of frames reads its template so (R323; log 114). -/
def execPrefetch (eid k : Nat) (s : State) : Res :=
  let e := s.elem eid
  let t := e.stream k
  let push (s : State) (p : Prefetched) (ahead : List Prefetched) : State := s.modElem eid (·.modStream k (fun t =>
    { t with buf := t.buf ++ [p], ahead, fetch := t.fetch + 1 }))
  if e.needsTemplate t then
    match s.readNow eid k t.cfg.scaleVa 64 with
    | (.ok x, s) => .next (s.modElem eid (·.modStream k (fun t => { t with tmpl := some x.1 })))
    | (.error _, s) => .next s
  else if !e.mayPrefetch t then .next s
  else
    match t.ahead with
    | p :: rest => .next (push s p rest)
    | [] =>
      match s.fetchTokens eid k t with
      | (.error .wait, s) => .next s
      | (.error (.fault f), s) =>
        .next (s.modElem eid (·.modStream k (fun t =>
          { t with buf := t.buf ++ [{ token := ⟨Lanes.empty, 0, none⟩, fault := some f }], halted := true })))
      | (.ok [], s) => .next s
      | (.ok (p :: rest), s) => .next (push s p rest)

/-! ## ANSWER_DELIVERY (R301, R331) -/

/-- The oldest entry that may be delivered: the first of its output queue, arrived, with a free place, and a unit in
the bucket where it brings data from memory (R86). -/
def State.deliverable (s : State) (eid : Nat) : Option (Answer × Token) :=
  let e := s.elem eid
  e.ans.findSome? (fun a =>
    match a.token with
    | some t =>
      if (e.ans.find? (fun b => b.q = a.q)).map (·.id) = some a.id && e.freePlaces a.q.val 1 &&
          (!a.bucket || s.bucketOpen eid) then some (a, t)
      else none
    | none => none)

/-- ANSWER_DELIVERY: an answer enters its output queue. -/
def execAnswerDelivery (eid : Nat) (s : State) : Res :=
  match s.deliverable eid with
  | none => .next s
  | some (a, t) =>
    let s := s.modElem eid (fun e => (e.freeEntry (some a.id)).enqueue a.q.val t)
    .next (if a.bucket then s.takeBucket eid else s)

/-! ## COPY_COMPLETE (R153, R156) -/

/-- Whether every granule of a copy has performed. -/
def Copy.done (c : Copy) : Bool := c.performed.length = c.len / 64

/-- Whether every slot before a copy's has been counted filled. -/
def State.slotTurn (s : State) (t : Tile) (c : Copy) (n : Nat) : Bool :=
  !(t.copies.any (fun d => d.eid = c.eid && d.id < c.id && d.lap.map (·.1) = some n)) &&
  (s.elem c.eid).inflight.all (fun f =>
    c.id ≤ f.seq || f.opc ≠ 0x109 || !f.word.getLsbD 32 || f.word.extractLsb' 27 3 ≠ BitVec.ofNat 3 n)

/-- COPY_COMPLETE: the slot is counted filled, and the acknowledgement comes; its address is the destination's. -/
def execCopyComplete (tile op : Nat) (s : State) : Res :=
  let t := s.tile tile
  match t.copies.find? (fun c => c.id = op) with
  | none => .next s
  | some c =>
    let turn := match c.lap with
      | some (n, _) => s.slotTurn t c n
      | none => true
    if !(c.done && turn) then .next s
    else
      let s := s.modTile tile (fun t => { t with copies := t.copies.filter (fun d => d.id ≠ op) })
      let s := match c.lap with
        | some (n, _) => s.modElem c.eid (·.modLap n (fun p => { p with resv := p.resv - 1, filled := p.filled + 1 }))
        | none => s
      match c.entry with
      | some n => .next (s.modElem c.eid (·.answer n (fun tag =>
          ⟨ackLanes (some (if c.dir = 1 then c.va else c.laddr)), tag, none⟩)))
      | none => .next s

/-! ## SCRUB_DONE (R163) -/

/-- SCRUB_DONE: the unit reads zero and its waiting accesses may perform. -/
def execScrubDone (s : State) : Res :=
  let u := s.subject.1
  .next (if (s.unit u).scrub then
      { s with
        hbm := clearRange s.hbm (u * 2 ^ 30) (2 ^ 30),
        hbmPoison := s.hbmPoison.filter (fun w => w * 8 / 2 ^ 30 ≠ u),
        units := s.units.put u { (s.unit u) with scrub := false } }.unpark
    else s)

/-! ## TRACK_LINK_FAULT (R173) -/

/-- TRACK_LINK_FAULT: the message is lost and its source element faults. -/
def execTrackLinkFault (msg : Nat) (s : State) : Res :=
  match s.track.find? (·.id = msg) with
  | none => .next s
  | some m =>
    let s := s.dropMsg msg
    let raise (eid i : Nat) (toks : List TokEntry) : State :=
      if (s.elem eid).inst = some i then s.takeFault eid fLINK 1 0 none 0 toks else s
    match m.body with
    | .far ch f => .next (raise f.eid f.inst [⟨f.tok, 7, ch, m.dst, true⟩])
    | .credit eid _ i => .next (raise eid i [])
    | .access a =>
      match s.accs.find a with
      | some x => .next (s.failOp x (fLINK, 1, 0))
      | none => .next s

end Sys2Proof.Machine
end

