-- ==== Sys2Proof/Machine/Crypto.lean ====
section
/-! DEFINITION. SHA-256 and the verification of ECDSA P-256 signatures, which R44 to R47, R58 and R252 name. -/

namespace Sys2Proof.Machine

/-! ## SHA-256 -/

/-- The greatest number of k bits above r whose power of the degree stays within the bound, found bit by bit. -/
def rootBits (degree bound : Nat) : Nat → Nat → Nat
  | 0, r => r
  | k + 1, r => rootBits degree bound k (if (r + 2 ^ k) ^ degree ≤ bound then r + 2 ^ k else r)

/-- The first 32 bits of the fraction of a root of n. -/
def rootFraction (degree n : Nat) : Word := BitVec.ofNat 32 (rootBits degree (n <<< (32 * degree)) 35 0)

/-- The primes up to 311, which are the first 64. -/
def shaPrimes : List Nat :=
  ((List.range 312).drop 2).filter (fun n => ((List.range 18).drop 2).all (fun d => n ≤ d || n % d != 0))

/-- A word's copies turned right by the given counts, summed without carries. -/
def turns (counts : List Nat) (w : Word) : Word := counts.foldl (fun sum c => sum ^^^ w.rotateRight c) 0

/-- A big-endian word of four bytes. -/
def beWord (bs : List Byte) : Word := BitVec.ofNat 32 (leNat bs.reverse)

/-- The bytes of a word, most significant first. -/
def beBytes (w : Word) : List Byte := (leBytes 4 w.toNat).reverse

/-- The message schedule: n more words before the newest of those already there. -/
def shaExtend (n : Nat) (newestFirst : List Word) : List Word :=
  n.fold (fun _ _ l =>
    let older (k : Nat) : Word := nth l k 0
    (older 15 + older 6 + (turns [7, 18] (older 14) ^^^ older 14 >>> 3)
      + (turns [17, 19] (older 1) ^^^ older 1 >>> 10)) :: l) newestFirst

/-- The hash state as two sequences, of each the four newest words, the newest first. -/
structure ShaState where
  upper : List Word
  lower : List Word
deriving DecidableEq, Repr

/-- The state before the first block: the fractions of the square roots of the first eight primes. -/
def ShaState.initial : ShaState :=
  let h := (shaPrimes.take 8).map (rootFraction 2)
  ⟨h.take 4, h.drop 4⟩

/-- Both sequences one word further. -/
def ShaState.advance (s : ShaState) (input : Word) : ShaState :=
  let u (i : Nat) : Word := nth s.upper i 0
  let l (i : Nat) : Word := nth s.lower i 0
  let chosen := l 2 ^^^ (l 0 &&& (l 1 ^^^ l 2))
  let both := input + l 3 + chosen + turns [6, 11, 25] (l 0)
  ⟨(both + turns [2, 13, 22] (u 0) + ((u 0 &&& u 1) ||| (u 2 &&& (u 0 ||| u 1)))) :: s.upper.take 3,
   (both + u 3) :: s.lower.take 3⟩

/-- The state after one block of 64 bytes. -/
def ShaState.block (s : ShaState) (block : List Byte) : ShaState :=
  let words := ((List.range 16).map (fun i => beWord ((block.drop (4 * i)).take 4))).reverse
  let inputs := List.zipWith (fun p w => rootFraction 3 p + w) shaPrimes (shaExtend 48 words).reverse
  let r := inputs.foldl ShaState.advance s
  ⟨List.zipWith (· + ·) s.upper r.upper, List.zipWith (· + ·) s.lower r.lower⟩

/-- The message with its padding. -/
def shaPad (bs : List Byte) : List Byte :=
  let n := bs.length
  bs ++ [0x80] ++ List.replicate ((119 - n % 64) % 64) 0 ++ (leBytes 8 (8 * n)).reverse

/-- SHA-256 of bytes, as its 32 bytes. -/
def sha256 (bs : List Byte) : List Byte :=
  let p := shaPad bs
  let blocks := (List.range (p.length / 64)).map (fun i => (p.drop (64 * i)).take 64)
  let r := blocks.foldl ShaState.block ShaState.initial
  (r.upper ++ r.lower).flatMap beBytes

/-- A digest as the number that its 32 bytes hold little-endian. -/
def digestOf (bs : List Byte) : BitVec 256 := BitVec.ofNat 256 (leNat bs)

/-! ## P-256 -/

def p256p : Nat := 0xffffffff00000001000000000000000000000000ffffffffffffffffffffffff
def p256n : Nat := 0xffffffff00000000ffffffffffffffffbce6faada7179e84f3b9cac2fc632551
def p256b : Nat := 0x5ac635d8aa3a93e7b3ebbd55769886bc651d06b0cc53b0f63bce3c3e27d2604b
def p256gx : Nat := 0x6b17d1f2e12c4247f8bce6e563a440f277037d812deb33a0f4a13945d898c296
def p256gy : Nat := 0x4fe342e2fe1a7f9b8ee7eb4a7c0f9e162bce33576b315ececbb6406837bf51f5

/-- a^e modulo m over the low k bits of e. -/
def powMod (m a : Nat) : Nat → Nat → Nat
  | 0, _ => 1 % m
  | k + 1, e =>
    let h := powMod m (a * a % m) k (e / 2)
    if e % 2 = 1 then a * h % m else h

/-- The inverse modulo a prime. -/
def invMod (m a : Nat) : Nat := powMod m a 256 (m - 2)

/-- A point in Jacobian coordinates: x = X / Z², y = Y / Z³; the point at infinity where Z is 0. -/
structure Point where
  x : Nat
  y : Nat
  z : Nat
deriving DecidableEq, Repr

def Point.infinity : Point := ⟨1, 1, 0⟩

/-- Arithmetic modulo p. -/
def mulP (a b : Nat) : Nat := a * b % p256p
def subP (a b : Nat) : Nat := (a + p256p - b) % p256p

/-- Twice a point; the curve has a = −3. -/
def doublePoint (p : Point) : Point :=
  if p.z = 0 || p.y = 0 then .infinity
  else
    let zz := mulP p.z p.z
    let yy := mulP p.y p.y
    let s := mulP (4 * p.x) yy
    let m := mulP (3 * subP p.x zz) (p.x + zz)
    let x := subP (mulP m m) (2 * s % p256p)
    ⟨x, subP (mulP m (subP s x)) (mulP (8 * yy) yy), mulP (2 * p.y) p.z⟩

/-- The sum of two points. -/
def addPoint (p q : Point) : Point :=
  if p.z = 0 then q
  else if q.z = 0 then p
  else
    let pz := mulP p.z p.z
    let qz := mulP q.z q.z
    let u := mulP p.x qz
    let h := subP (mulP q.x pz) u
    let s := mulP (mulP p.y q.z) qz
    let r := subP (mulP (mulP q.y p.z) pz) s
    if h = 0 then (if r = 0 then doublePoint p else .infinity)
    else
      let hh := mulP h h
      let v := mulP u hh
      let x := subP (subP (mulP r r) (mulP h hh)) (2 * v % p256p)
      ⟨x, subP (mulP r (subP v x)) (mulP s (mulP h hh)), mulP h (mulP p.z q.z)⟩

/-- k × p over the low n bits of k. -/
def mulPoint : Nat → Nat → Point → Point
  | 0, _, _ => .infinity
  | n + 1, k, p =>
    let h := mulPoint n (k / 2) (doublePoint p)
    if k % 2 = 1 then addPoint p h else h

/-- Whether (x, y) is a point of the curve. -/
def onCurve (x y : Nat) : Bool :=
  x < p256p && y < p256p && y * y % p256p = (x * x * x + (p256p - 3) * x + p256b) % p256p

/-- Whether the signature (r, s) of a digest verifies under the public key (x, y). -/
def ecdsaVerify (x y r s : Nat) (digest : List Byte) : Bool :=
  let z := digest.foldl (fun n b => n * 256 + b.toNat) 0
  if !(onCurve x y && 1 ≤ r && r < p256n && 1 ≤ s && s < p256n) then false
  else
    let w := invMod p256n s
    let q := addPoint (mulPoint 256 (z * w % p256n) ⟨p256gx, p256gy, 1⟩) (mulPoint 256 (r * w % p256n) ⟨x, y, 1⟩)
    let i := invMod p256p q.z
    q.z ≠ 0 && mulP q.x (mulP i i) % p256n = r

end Sys2Proof.Machine
end

