-- ==== Sys2Proof/Machine/Policy.lean ====
section
/-! DEFINITION. Scheduler events, accesses on behalf of a VF (R28, R164), the checks that every
active message passes (R30, R31), and POLICY (R58 to R60). -/

namespace Sys2Proof.Machine

/-! ## Scheduler events (R49, class 16) -/

/-- What a scheduler event tells (R49 class 16; the spec gives its record no layout). -/
inductive SchedEvent where
  | bind | preempt | relay | commit | retire | substituted
deriving DecidableEq, Repr

def SchedEvent.code : SchedEvent → Nat
  | .bind => 1
  | .preempt => 2
  | .relay => 3
  | .commit => 4
  | .retire => 5
  | .substituted => 6

/-- A scheduler event record of a partition: of the event's type, with TASK_ID, generation, instance and tile. -/
def State.sched (s : State) (part : Nat) (k : SchedEvent) (taskId gen inst tile : Nat) : State :=
  s.operate part 16 (s.part part).active k.code [.taskId taskId, .gen gen, .plain inst, .tile tile]

/-- The scheduler event of an instance. -/
def State.schedInst (s : State) (k : SchedEvent) (x : Inst) : State :=
  let ids := s.instIds x
  s.sched x.part k ids.2.1 ids.1 ids.2.2 (tileAt x.cluster x.row0 x.col0)

/-! ## Accesses on behalf of a VF (R28, R164) -/

/-- Bytes read for a VF: none where a part of them is not reachable or poisoned. -/
def State.readFor (s : State) (v va n : Nat) : Option (List Byte) :=
  (granulesOf va n).foldl (fun (acc : Option (List Byte)) g =>
    match acc, s.hostHome v g.1 .load with
    | some bs, some h => match s.getAt h g.2 with
      | .ok (b, false) => some (bs ++ b)
      | _ => none
    | _, _ => none) (some [])

/-- Bytes written for a VF, all or none. -/
def State.writeFor (s : State) (v va : Nat) (bs : List Byte) : Option State :=
  (granulesOf va bs.length).foldl (fun (acc : Option State) g =>
    match acc with
    | none => none
    | some t => (t.hostHome v g.1 .store).bind (fun h => t.putAt h (spreadBytes 0 ((bs.drop (g.1 - va)).take g.2)))) (some s)

/-! ## The checks of an active message (R30, R31) -/

/-- Which VFs may send an AMOP (R25, R32). -/
inductive Sender where
  | tenant | any | admin
deriving DecidableEq, Repr

/-- Whether the firmware runs. -/
def State.running (s : State) : Bool := match s.boot with
  | .running _ => true
  | _ => false

/-- VF enabled, SEQ, readiness and permission, in the order of R30; the messages of AMSEND and of other packages take no
part in the SEQ check (R343). An error holds the state after the refusal. -/
def State.amCheck (s : State) (m : Am) (who : Sender) (boot : Bool) : Except State State :=
  let v := m.vf.toNat
  let host : Bool := m.sender == .host
  if !(s.vf v).en then .error (s.nak m nakVFOFF)
  else if host && m.seq ≠ (s.vf v).expSeq then
    .error (s.refuse m nakSEQUENCE (BitVec.ofNat 64 (s.vf v).expSeq.toNat))
  else
    let s := if host then s.modVf v (fun x => { x with expSeq := x.expSeq + 1 }) else s
    if !s.running && !boot then .error (s.nak m nakNOTREADY)
    else match who with
      | .tenant => if v = 511 then .error (s.nak m nakADMIN) else .ok s
      | .admin => if v ≠ 511 then .error (s.nak m nakADMIN) else .ok s
      | .any => .ok s

/-- R31: CONT is a virtual address in a page that the VF may read, and not of device MMIO (log 153); a tenant VF without page tables has
no such page (R164). -/
def State.contOk (s : State) (m : Am) : Bool :=
  (m.vf = 511 || (s.vf m.vf.toNat).root ≠ 0) &&
  match s.hostHome m.vf.toNat m.cont.toNat .load with
  | some (.mmio _) => false
  | some _ => true
  | none => false

/-- The partition of a message's VF. -/
def State.amPart (s : State) (m : Am) : Nat := (s.vf m.vf.toNat).part.toNat

/-- A message whose read waits is tried again, before the VF's later ones (R16, R42, R163). -/
def State.stall (s : State) (m : Am) (a : Reach) : State :=
  let s := s.ask (.message m) a
  { s with stalled := m :: s.stalled }

/-- The first of the reads of a message that waits. -/
def State.firstStop (s : State) (l : List Reach) : Option Reach := l.find? s.askStops

/-- What a message does, unless a read of it waits. -/
def State.orStall (s : State) (m : Am) (l : List Reach) (r : Res) : Res :=
  match s.firstStop l with
  | some a => .next (s.stall m a)
  | none => r

/-- The page of CONT (R31). -/
def contAsk (m : Am) : Reach := { v := m.vf.toNat, va := m.cont.toNat, n := 1, host := true, read := false }

/-! ## POLICY (R58 to R60) -/

/-- TKEY as its 64 bytes. -/
def Partition.tkeyBytes (p : Partition) : List Byte := leBytes 64 p.tkey.toNat

/-- A policy block's reserved bits are zero (R47, R48). -/
def policyReserved (b : List Byte) : Bool :=
  let e (c : Nat) : Nat := leNat ((b.drop (0x30 + 8 * c)).take 8)
  bitsOf (leNat ((b.drop 5).take 1)) 4 4 = 0 && bitsOf (leNat ((b.drop 6).take 2)) 2 14 = 0 &&
  (List.range 20).all (fun c => e c / 2 ^ 29 = 0) && (List.range 4).all (fun c => e (20 + c) = 0) &&
  leNat ((b.drop 0xF0).take 208) = 0

/-- Every LOC and ADDR is in range. -/
def policyRange (b : List Byte) : Bool :=
  (List.range 24).all (fun c =>
    let e := policyEntry b c
    e.loc ≤ 4 && (e.addr ≤ 48 || e.addr = 0x3F))

/-- The first failing check of R58. -/
def policyFault (b : List Byte) (target : Nat) (p : Partition) : Option Nat :=
  let field (off n : Nat) : Nat := leNat ((b.drop off).take n)
  let key := p.tkey.toNat
  if field 0 4 ≠ 0x31425044 then some 0x20
  else if field 4 1 ≠ 1 then some 0x21
  else if field 5 1 % 16 ≠ target then some 0x22
  else if key = 0 then some 0x23
  else if (b.drop 0x10).take 32 ≠ sha256 p.tkeyBytes then some 0x24
  else if !policyReserved b then some 0x25
  else if !policyRange b then some 0x26
  else if field 8 8 ≤ policySeq p.active then some 0x27
  else if !ecdsaVerify (key % 2 ^ 256) (key / 2 ^ 256) (field 0x1C0 32) (field 0x1E0 32) (sha256 (b.take 0x1C0)) then
    some 0x28
  else none

/-- Whether a message of a VF, named below `name`, still waits to take effect: a user message in a handler's queue, a policy not yet
active in every region, a launch whose walk has not ended, or a write or a notice that waits for one (R42, R43). -/
def State.amWaits (s : State) (v name : Nat) : Bool :=
  !s.writesDone || !s.closings.isEmpty ||
  s.parts.any (fun p => p.handlers.any (fun h => h.queue.any (fun q => q.am.vf.toNat = v && q.name < name)) ||
    p.pendingPolicies.any (fun q => q.vf = v && q.name < name)) ||
  s.launches.any (fun l => l.2.vf = v && !l.2.walked && l.2.seq < name)

/-- The messages ORDER of a VF whose earlier messages have all taken effect are answered, oldest first (R42). -/
def State.settleOrders (s : State) (v : Nat) : State :=
  let due := (s.vf v).orders.takeWhile (fun q => !s.amWaits v q.name)
  if due.isEmpty then s
  else
    let s := s.modVf v (fun x => { x with orders := x.orders.drop due.length })
    due.foldl (fun (s : State) q => (s.accept q.am).sendAm v amCOMPLETE 0 q.am.cont none) s

/-- Once every region of a partition runs under its active policy, the accepted policies are answered in order (R59,
R60). -/
def State.policySettle (s : State) (p : Nat) : State :=
  let x := s.part p
  if s.insts.all (fun i => i.2.part ≠ p || i.2.policy = x.active) then
    let s := s.modPart p (fun y => { y with pendingPolicies := [] })
    x.pendingPolicies.foldl (fun (s : State) q => (s.sendAm q.vf amCOMPLETE 0 q.addr none).settleOrders q.vf) s
  else s

/-- A region switches to the active policy at a tile-task boundary (R59). -/
def State.switchPolicy (s : State) (i : Nat) : State :=
  match s.insts.find i with
  | none => s
  | some x => (s.modInst i (fun y => { y with policy := (s.part x.part).active })).policySettle x.part

def execPolicy (m : Am) (s : State) : Res :=
  match s.amCheck m .any false with
  | .error s => .next s
  | .ok t =>
    let v := m.vf.toNat
    if m.operand ≠ 0 then .next (t.nak m nakOPERAND)
    else s.orStall m [contAsk m, { v, va := m.cont.toNat, n := 512, host := true }] <|
    let (name, s) := t.newId
    if m.cont.toNat % 64 ≠ 0 || !s.contOk m then .next (s.nak m nakBADADDR)
    else
      match s.readFor v m.cont.toNat 512 with
      | none => .next (s.nak m nakBADADDR)
      | some b =>
        let target := if v = 511 then (leNat ((b.drop 5).take 1)) % 16 else s.amPart m
        match policyFault b target (s.part target) with
        | some r => .next (s.nak m r)
        | none =>
          let s := s.modPart target (fun p =>
            { p with active := b, pendingPolicies := p.pendingPolicies ++ [⟨name, v, m.sender, m.cont⟩] })
          .next ((s.accept m).policySettle target)

/-- The physical-layer statistics of every port, and the frames that an Ethernet port discarded before any stream was to take them:
they concern no partition and are not filtered (R20, R52). -/
def State.portStats (s : State) : State :=
  let layer (port : Nat) : List Nat := (List.range 3).map (fun kind => Config.portCount kind port (s.now / 10 ^ 9))
  { s with operLog := s.operLog ++
      s.aqric.mapIdx (fun k a => ⟨13, none, k, s.now, layer k ++ [a.replays], false⟩) ++
      s.eth.mapIdx (fun k e => ⟨13, none, 36 + k, s.now, layer (36 + k) ++ [e.discarded], false⟩) }

/-- The counts of a partition's flows go to the operator as of class 13, and start afresh (R51, R52); with partition 0 also the ports'
own counts. -/
def State.linkStats (s : State) (p : Nat) : State :=
  let l := (s.part p).flowCounts
  let s := (if p = 0 then s.portStats else s).modPart p (fun x => { x with flowCounts := [] })
  l.foldl (fun (s : State) c => s.operate p 13 (s.part p).active 0
    [.elem c.eid, .plain c.strm, .count c.txFrames, .count c.txBytes, .count c.rxFrames, .count c.rxBytes, .count c.discarded]) s

/-- RATE_CAP_SECOND: a new second of package time restarts the cap; the link statistics, and the leases granted and refused in the
last one, are reported (R51, R55, R57). -/
def execRateCapSecond (part : Nat) (s : State) : Res :=
  if s.now % 10 ^ 9 ≠ 0 then .next s
  else
  let s := (s.modPart part (fun p => { p with rate := List.replicate 24 0 })).linkStats part
  .next ((s.clustersOf part).foldl (fun (s : State) g =>
    let c := s.cluster g
    (s.floorRecord part 15 0 s.now [g, c.granted, c.refusedN]).modCluster g (fun c => { c with granted := 0, refusedN := 0 })) s)

end Sys2Proof.Machine
end

