-- ==== Sys2Proof/Machine/Tasks.lean ====
section
/-! DEFINITION. The Starter's accounting of tasks: indices (R75, R76, R224), completion objects and statistics records
(R37 to R40, R214, R215), the chain of records (R225), readiness and aging (R67, R68), final status and the notices
(R40, R41, R77). -/

namespace Sys2Proof.Machine

/-! ## Indices (R75, R76) -/

/-- The next index to issue to an instance number: with REPLICATE each number has its own. -/
def Task.nextFor (t : Task) (num : Nat) : Nat := if t.gw.replicate then (t.replNext.find num).getD 0 else t.nextIdx

/-- How many indices remain to issue to an instance number. -/
def Task.unissued (t : Task) (num : Nat) : Nat := if t.stopped then 0 else t.gw.ttCount - t.nextFor num

/-- An index is issued to an instance number. -/
def Task.issue (t : Task) (num : Nat) : Task :=
  if t.gw.replicate then { t with replNext := t.replNext.put num (t.nextFor num + 1) } else { t with nextIdx := t.nextIdx + 1 }

/-- n more indices are counted failed, none below `first`. -/
def Task.addFailed (t : Task) (n first : Nat) : Task :=
  if n = 0 then t else { t with failedN := t.failedN + n, firstFailed := min t.firstFailed first, dirty := true }

/-- An index is counted failed; with REPLICATE once, whichever instance it fails in (R75). -/
def Task.failIndex (t : Task) (i : Nat) : Task :=
  if !t.gw.replicate then t.addFailed 1 i
  else if t.replFailed.contains i || t.replLost ≤ i then t
  else { t.addFailed 1 i with replFailed := i :: t.replFailed, repl := t.repl.drop i }

/-- Every index not yet issued is counted failed; with REPLICATE every index that some instance was not issued. -/
def Task.failUnissued (t : Task) : Task :=
  if t.gw.replicate then
    let low := ((List.range t.gw.instances).map t.nextFor).foldl min t.gw.ttCount
    let top := min t.replLost t.gw.ttCount
    let again := (t.replFailed.filter (fun i => low ≤ i && i < top)).length
    { t.addFailed (top - low - again) low with
      replLost := min t.replLost low, repl := t.repl.filter (fun x => x.1 < low),
      replNext := (List.range t.gw.instances).map (fun n => (n, t.gw.ttCount)) }
  else { t.addFailed (t.gw.ttCount - t.nextIdx) t.nextIdx with nextIdx := t.gw.ttCount }

/-- An index is reported done by an instance; with REPLICATE it is counted when every instance has reported it. -/
def Task.doneIndex (t : Task) (i : Nat) : Task :=
  if !t.gw.replicate then { t with doneN := t.doneN + 1, dirty := true }
  else if t.replFailed.contains i || t.replLost ≤ i then t
  else
    let n := (t.repl.find i).getD 0 + 1
    if n = t.gw.instances then { t with doneN := t.doneN + 1, repl := t.repl.drop i, dirty := true }
    else { t with repl := t.repl.put i n }

/-- Whether every index is counted (R40). -/
def Task.accounted (t : Task) : Bool := t.doneN + t.failedN = t.gw.ttCount

/-- A handler node (R66). -/
def Task.isHandler (t : Task) : Bool := t.gw.predN = 255

/-- The bound instances of a task. -/
def State.instsOf (s : State) (l k : Nat) : List (Nat × Inst) := s.insts.filter (fun x => x.2.launch = l && x.2.task = k)

/-- Whether a launch is live: some task is not final, or a run of a handler is due (R34, R66). -/
def Launch.live (x : Launch) : Bool := !x.walked || x.tasks.any (fun t => !t.final || t.runs ≠ 0)

/-- The quarter whose Starter is the home of a launch's partition (R64). -/
def State.starterOf (s : State) (l : Nat) : Nat := s.homeOf (((s.launches.find l).map (·.part)).getD 0)

/-! ## Where the Starter writes (R39) -/

/-- The home of a granule that a VF may store to. -/
def State.storeHome (s : State) (v va : Nat) : Option Home := (s.starterHome v va .store).toOption

/-- A number for the place of a completion object, wherever it lies. -/
def Home.place : Home → Nat
  | .remote pkg _ pa _ => (pkg + 1) * 2 ^ 44 + pa
  | .hbm pa | .mmio pa => pa
  | _ => 0

/-- STATUS as R37 codes it. -/
def Status.code : Status → Nat
  | .idle => 0
  | .running => 1
  | .done => 2
  | .faulted => 3
  | .cancelled => 4
  | .preempted => 5

/-- The bytes of a completion object, SIGVAL left out (R37, R38). -/
def Task.objectBytes (t : Task) : List (Nat × Byte) :=
  let low := leBytes 1 t.status.code ++ leBytes 1 t.reason ++ leBytes 2 t.gen ++ leBytes 4 t.gw.ttCount ++ leBytes 4 t.doneN ++
    leBytes 4 t.failedN ++ leBytes 4 t.firstFailed
  let high := leBytes 8 t.fchain ++ leBytes 8 t.srcSeq ++ leBytes 8 t.start ++ leBytes 8 t.end_ ++ leBytes 8 0
  spreadBytes 0 low ++ spreadBytes 0x18 high

/-! ## Records of a task (R217, R224, R225) -/

/-- Whether a record of a family and code counts tile-tasks failed (R220). -/
def countsFailed (family code : Nat) : Bool :=
  family ≠ fLEASE && family ≠ fBREAK && !(family = fSYSTEM && (code = 3 || code = 4))

/-- Whether a record of a family causes FAULTNOTE (R225). -/
def notifies (family : Nat) : Bool := family ≠ fLEASE && family ≠ fBREAK

/-- The Starter takes a record of a task, which counts in the second of this moment (log 159): it is written or dropped, joins the chain, causes the notice where it is the
first to, and the operator's floor hears its family (R57, R217, R225). The answer says whether FCHAIN changed. -/
def State.linkRecord (s : State) (l k : Nat) (f : FaultEvent) (ids : Nat × Nat × Nat) : Bool × State :=
  match s.launches.find l, s.task? l k with
  | some x, some t =>
    let buf := (s.part x.part).buf false
    let (va, s) := s.writeRecord x.part false (f.bytes ids)
    let s := s.operateFault x.part f ids
    let t := if notifies f.family && t.note.isNone then { t with note := some (f.family, f.code) } else t
    match va with
    | none => (false, s.modTask l k (fun _ => t))
    | some va =>
      let s := if t.lastRec = 0 then s
        else (s.starterWriteAll buf.vf.toNat (t.lastRec + 0x38) (leBytes 8 va)).getD s
      (t.fchain = 0, s.modTask l k (fun _ => { t with lastRec := va, fchain := if t.fchain = 0 then va else t.fchain }))
  | _, _ => (false, s)

/-- A record that the Starter of a launch's home produces for a task (R221). -/
def State.starterRecord (s : State) (l : Nat) (family code addr : Nat) : FaultEvent × State :=
  let q := s.starterOf l
  let (n, s) := s.takeSeq 1 q (((s.launches.find l).map (·.part)).getD 0)
  ({ kind := 1, src := q, family, code, slot := none, word := 0, heads := 0, tokens := [], addr, time := s.now, seq := n,
     ttidx := 0xFFFFFFFF, policy := (s.part (((s.launches.find l).map (·.part)).getD 0)).active }, s)

/-- GEN, TASK_ID and INST of a record that concerns a task and no instance. -/
def Task.ids (t : Task) : Nat × Nat × Nat := (t.gen, t.gw.taskId, 0xFF)

/-- A write of the task failed: one record of class 12, once (R39, R215). -/
def State.writeFault (s : State) (l k code addr : Nat) : Bool × State :=
  match s.task? l k with
  | none => (false, s)
  | some t =>
    let (f, s) := s.starterRecord l fSYSTEM code addr
    s.linkRecord l k f t.ids

/-! ## The completion object and the statistics record -/

/-- A Starter write of a completion object, one event (R38, R39): SRCSEQ is the object's, whichever launch writes it (R37). -/
def State.writeObject (s : State) (l k : Nat) : State :=
  match s.launches.find l, s.task? l k with
  | some x, some t =>
    let place := ((s.storeHome x.vf t.gw.completionVa).map Home.place).getD 0
    let n := (s.srcSeqs.find place).getD 0 + 1
    let t := { t with srcSeq := n, dirty := false, wrote := s.now }
    match s.starterWrite x.vf t.gw.completionVa t.objectBytes with
    | some s => { s with srcSeqs := s.srcSeqs.put place n }.modTask l k (fun _ => t)
    | none =>
      let s := s.modTask l k (fun t => { t with dirty := false, wrote := s.now })
      if t.compFault then s
      else (s.modTask l k (fun t => { t with compFault := true })).writeFault l k 4 t.gw.completionVa |>.2
  | _, _ => s

/-- The Starter takes a record; a completion object whose FCHAIN it sets is written (R43, R225). -/
def State.takeRecord (s : State) (l k : Nat) (f : FaultEvent) (ids : Nat × Nat × Nat) : State :=
  match s.linkRecord l k f ids with
  | (true, s) => s.writeObject l k
  | (false, s) => s

/-- One write of a statistics record, or the STATS-WRITE record (R214, R215). -/
def State.putStats (s : State) (l k : Nat) (back : Home → Option State) : State :=
  match s.launches.find l, s.task? l k with
  | some x, some t =>
    match (s.storeHome x.vf (t.gw.completionVa + 0x40)).bind back with
    | some s => s
    | none =>
      if t.statFault then s
      else
        match (s.modTask l k (fun t => { t with statFault := true })).writeFault l k 3 (t.gw.completionVa + 0x40) with
        | (true, s) => s.writeObject l k
        | (false, s) => s
  | _, _ => s

/-- The statistics record is read and written back. -/
def State.writeStats (s : State) (l k : Nat) (f : List Byte → List Byte) : State :=
  s.putStats l k (fun h => match s.getAt h 64 with
    | .ok (b, _) => s.putAt h (spreadBytes 0 (f b))
    | .error _ => none)

/-- The statistics record is cleared. -/
def State.clearStats (s : State) (l k : Nat) : State := s.putStats l k (fun h => s.putAt h (spreadBytes 0 (List.replicate 64 0)))

/-- The read of a task's statistics record by the Starter. -/
def State.statsReach (s : State) (x : Inst) : Reach :=
  { v := x.vf, va := ((s.task? x.launch x.task).map (·.gw.completionVa)).getD 0 + 0x40, n := 64, want := .store }

/-- The statistics record after a report: counts saturate, flags are ORed (R214). -/
def statsAdd (c : Counts) (flags now : Nat) (bs : List Byte) : List Byte :=
  let old (i : Nat) : Nat := leNat ((bs.drop (4 * i)).take 4)
  let sat (i n : Nat) : List Byte := leBytes 4 (min (old i + n) 0xFFFFFFFF)
  sat 0 c.sat ++ sat 1 c.nann ++ sat 2 c.under ++ sat 3 c.stoch ++ sat 4 c.alignx ++ sat 5 c.hovf ++
  leBytes 4 (old 6 ||| flags) ++ sat 7 1 ++ leBytes 8 now ++ List.replicate 24 0

/-- The report of an instance: its tiles' sums and flags, and the state with the counts cleared (R215). -/
def State.report (s : State) (x : Inst) : Counts × Nat × State :=
  let es := x.elems.map s.elem
  let c := es.foldl (fun (a : Counts) e => a.add e.counts) { }
  let fl := es.foldl (fun (a : Word) e => a ||| e.flags) 0
  (c, fl.toNat, x.elems.foldl (fun (s : State) i =>
    if (s.elem i).counts = { } then s else s.modElem i (fun e => { e with counts := { } })) s)

/-! ## Readiness (R66 to R68) -/

/-- A scheduling event of a partition (R71). -/
def State.decide (s : State) (p : Nat) : State := s.modPart p (fun x => { x with decide_ := true })

/-- The priority at which a task of a launch runs (R33). -/
def Launch.priority (x : Launch) (t : Task) : Nat :=
  match x.override with
  | some p => p
  | none => if t.gw.pri = 7 && !x.urgentOk then 6 else t.gw.pri

/-- Non-retired rectangles of a shape in a partition (R70): the origins, in scan order (R71). -/
def State.rects (s : State) (p w h : Nat) : List (Nat × Nat × Nat) :=
  ((s.clustersOf p).filter (fun g => (s.cluster g).old.isNone)).flatMap (fun g =>
    ((List.range (7 - h)).flatMap (fun r => (List.range (7 - w)).map (fun c => (g, r, c)))).filter (fun o =>
      (List.range h).all (fun i => (List.range w).all (fun j =>
        !(s.cluster g).retired.getLsbD (6 * (o.2.1 + i) + o.2.2 + j)))))

/-- The reservation of a task lapses: a scheduling event (R71, R72). -/
def State.lapse (s : State) (l k : Nat) : State :=
  match s.launches.find l, s.task? l k with
  | some x, some t => if t.reserved.isEmpty then s else (s.modTask l k (fun t => { t with reserved := [] })).decide x.part
  | _, _ => s

/-- A task ends without running, every index counted failed (R67, R70, R106). -/
def State.failTask (s : State) (l k reason : Nat) (cancelled : Bool) : State :=
  (s.modTask l k (fun t => { t.failUnissued with
    reason := if t.reason = 0 then reason else t.reason, cancelled := t.cancelled || cancelled, stopped := true,
    ready := false })).lapse l k

/-- A task enters the ready list, or ends SHAPE_UNAVAILABLE where no region of its shape exists (R68, R70). -/
def State.makeReady (s : State) (l k : Nat) : State :=
  match s.launches.find l, s.task? l k with
  | some x, some t =>
    if t.gw.ttCount ≠ 0 && (s.rects x.part t.gw.w t.gw.h).isEmpty then s.failTask l k 2 false
    else
      let n := s.readyN
      ({ s with readyN := n + 1 }.modTask l k (fun t =>
        { t with ready := true, level := x.priority t, readySeq := n, levelSince := s.now })).decide x.part
  | _, _ => s

/-- A pre-empted task is ready again at its former priority and place (R68). -/
def State.readyAgain (s : State) (l k : Nat) : State :=
  match s.launches.find l with
  | some x => (s.modTask l k (fun t => if t.ready then t else { t with ready := true, levelSince := s.now })).decide x.part
  | none => s

/-- A run of a handler node begins, with its counts afresh; the RUNNING write that starts it comes with the bind, or here
where no region is bound (R66, R76). -/
def State.startRun (s : State) (l k : Nat) : State :=
  let s := s.modTask l k (fun t =>
    { va := t.va, gw := t.gw, succ := t.succ, params := t.params, gen := t.gen, srcSeq := t.srcSeq, fchain := t.fchain,
      lastRec := t.lastRec, note := t.note, noted := t.noted, compFault := t.compFault, statFault := t.statFault,
      runs := t.runs - 1 })
  let s := if (s.task? l k).any (fun t => t.gw.ttCount = 0) then
      (s.modTask l k (fun t => { t with status := .running })).writeObject l k
    else s
  s.makeReady l k

/-- Whether a task has stood in the ready list at one level for 10 ms; the tasks of a stopped launch stand in none (R34, R68). -/
def State.ages (s : State) (l : Nat) (t : Task) : Bool :=
  t.ready && t.level < 6 && t.levelSince + 10000000 ≤ s.now && !(s.launches.find l).any (·.stopped)

/-- AGING (R68): 10 ms in the ready list at one level, never into 7. It is no event of R71. -/
def execAging (s : State) : Res :=
  let (l, k) := s.subject
  match s.task? l k with
  | some t => .next (if s.ages l t then s.modTask l k (fun t => { t with level := t.level + 1, levelSince := s.now }) else s)
  | none => .next s

/-! ## The end of a task and of a launch (R40, R41, R66, R67, R77) -/

/-- A context leaves the pool (R98). -/
def State.freeContext (s : State) (c : Nat) : State :=
  match s.contexts.find c with
  | none => s
  | some x =>
    { s with contexts := s.contexts.drop c }.modPart x.inst.part (fun p =>
      { p with poolRuns := p.poolRuns.filter (fun r => r.1 ≠ x.unit0) })

/-- What the end of a task does to one successor: a DONE counts one edge, another end fails it (R67). -/
def State.tellSucc (s : State) (l : Nat) (status : Status) (k : Nat) : State :=
  match s.task? l k with
  | none => s
  | some t =>
    if t.isHandler || t.final then s
    else match status with
      | .done =>
        let s := s.modTask l k (fun t => { t with pending := t.pending - 1 })
        if t.pending = 1 && !t.stopped then s.makeReady l k else s
      | .cancelled => s.failTask l k 4 true
      | _ => s.failTask l k 1 false

/-- Whether a task may take its final status: every index counted, every instance gone, and it ran, was due to, or was
stopped. -/
def State.canEnd (s : State) (l k : Nat) (t : Task) : Bool :=
  !t.final && t.accounted && t.pre.isEmpty && (s.instsOf l k).isEmpty && (t.gw.ttCount ≠ 0 || t.ready || t.stopped)

/-- The final write of a task has performed: its successors hear its status, and a further run of a handler begins (R66, R67, R77). -/
def State.tellAll (s : State) (l k : Nat) : State :=
  match s.task? l k with
  | none => s
  | some t =>
    let s := s.modTask l k (fun t => { t with telling := false })
    let s := t.succ.foldl (fun (s : State) j => s.tellSucc l t.status j) s
    if t.isHandler && t.runs ≠ 0 then s.startRun l k else s

/-- TASK_FINAL: the final status, its completion write, and once that has performed the successors (R77). -/
def execTaskFinal (s : State) : Res :=
  let (l, k) := s.subject
  match s.launches.find l, s.task? l k with
  | some x, some t =>
    if t.telling then .next (if s.writesDone then s.tellAll l k else s)
    else if !x.walked || !s.canEnd l k t then .next s
    else
      let status : Status := if t.failedN = 0 && t.reason = 0 then .done else if t.cancelled then .cancelled else .faulted
      let reason := match status with
        | .done => 0
        | .cancelled => 4
        | _ => if t.reason = 0 then 1 else t.reason
      let s := s.modTask l k (fun t =>
        { t with status, reason, end_ := s.now, final := true, ready := false, stopped := true, bound := false })
      let s := (s.writeObject l k).lapse l k
      .next (if s.writesDone then s.tellAll l k else s.modTask l k (fun t => { t with telling := true }))
  | _, _ => .next s

/-- COMPLETION_PROGRESS_WRITE (R76): the counts changed since the last write. -/
def execCompletionProgressWrite (s : State) : Res :=
  let (l, k) := s.subject
  match s.task? l k with
  | some t => .next (if t.dirty && !t.final && t.status ≠ .idle then s.writeObject l k else s)
  | none => .next s

/-- The copy of a FAULTNOTE that goes to VF 511 (R41, R55, R57): the family in any case, the code and TASK_ID as the policy allows
and the cap of the class lets them through; CONT whole (log 158). -/
def State.noteCopy (s : State) (part taskId : Nat) (n : Nat × Nat) (cont : DWord) : State :=
  let p := (s.part part).active
  let cls := faultClass n.1
  let e := policyEntry p cls
  let (pass, s) := if e.level = 0 then (true, s) else s.rateCap part cls e
  let code := if pass && 2 ≤ e.level then n.2 else 0
  let id := if pass && keepsTaskId p then taskId else 0xFFFF
  s.sendAm 511 amFAULTNOTE (BitVec.ofNat 32 (n.1 + code * 2 ^ 8 + id * 2 ^ 16)) cont none

/-- A FAULTNOTE to the VF of a launch and its copy (R41). -/
def State.sendNote (s : State) (x : Launch) (t : Task) (n : Nat × Nat) : State :=
  let cont := BitVec.ofNat 64 t.gw.completionVa
  (s.sendAm x.vf amFAULTNOTE (BitVec.ofNat 32 (n.1 + n.2 * 2 ^ 8 + t.gw.taskId * 2 ^ 16)) cont none).noteCopy
    x.part t.gw.taskId n cont

/-- What waits for writes is said (R43, R45, R65, R231). -/
def State.close (s : State) (c : Closing) : State :=
  match c with
  | .graph x t note operand =>
    ((s.sendNote x t note).sendAm x.vf amCOMPLETE operand (BitVec.ofNat 64 t.gw.completionVa) none).settleOrders x.vf
  | .complete vf cont => s.sendAm vf amCOMPLETE 0 cont none

/-- It is said now, or once the writes before it have performed. -/
def State.whenWritten (s : State) (c : Closing) : State :=
  if s.writesDone && s.closings.isEmpty then s.close c else { s with closings := s.closings ++ [c] }

/-- Once every write has performed, what waits for it is said, and the messages ORDER that it held up are answered (R42, R43). -/
def State.closeAll (s : State) : State :=
  if !s.writesDone then s
  else
    let s := s.closings.foldl State.close { s with closings := [] }
    ((s.vfs.filter (fun v => !v.2.orders.isEmpty)).map (·.1)).foldl State.settleOrders s

/-- FAULTNOTE (R41, R225): once a task, for the first record that causes it. -/
def execFaultnote (s : State) : Res :=
  let (l, k) := s.subject
  match s.launches.find l, s.task? l k with
  | some x, some t =>
    match t.note with
    | some n => .next (if t.noted || !s.writesDone then s else (s.modTask l k (fun t => { t with noted := true })).sendNote x t n)
    | none => .next s
  | _, _ => .next s

/-- COMPLETE of a launch: the final status of its tasks and how many are not DONE (R41, R66). -/
def State.sendComplete (s : State) (x : Launch) (tasks : List Task) : State :=
  let st : Status := if tasks.any (·.status == .faulted) then .faulted
    else if tasks.any (·.status == .cancelled) then .cancelled else .done
  let n := (tasks.filter (fun t => !t.isHandler && t.status != .done)).length
  let cont := ((tasks.head?).map (·.gw.completionVa)).getD 0
  s.sendAm x.vf amCOMPLETE (BitVec.ofNat 32 (st.code + min n 0xFFFF * 2 ^ 16)) (BitVec.ofNat 64 cont) none

/-- COMPLETE (R41, R43): every task is final, every FAULTNOTE is sent and no write waits for a scrub; the launch's entries are
free. -/
def execComplete (s : State) : Res :=
  let l := s.subject.1
  match s.launches.find l with
  | none => .next s
  | some x =>
    .next (if x.live || x.tasks.any (fun t => t.note.isSome && !t.noted) || !s.writesDone then s
      else { s with launches := s.launches.drop l }.sendComplete x x.tasks)

end Sys2Proof.Machine
end

