-- ==== Sys2Proof/Machine/Lease.lean ====
section
/-! DEFINITION. The rail of a cluster (R107), the decision on a lease request (R111, R112), and how a lease ends
(R110, R113, R115, R116, R334, R335). -/

namespace Sys2Proof.Machine

/-! ## The rail (R107) -/

/-- The voltage of an operating point, in units of 20 µV (R4). -/
def railOf (op : Nat) : Nat := nth [500, 540, 580, 620, 670, 710, 750, 800] op 620 * 50

/-- The voltage now: the ramp moves one unit per ns. -/
def Cluster.rail (c : Cluster) (now : Nat) : Nat :=
  let v := railOf c.opnow
  let left := c.rampEnd - now
  if c.volt ≤ v then v - left else v + left

/-- The point in force: the highest of BASEOP and the points of the live leases (R107, R113). -/
def Cluster.point (c : Cluster) : Nat :=
  c.slots.foldl (fun m l => match l with
    | some l => max m l.point
    | none => m) c.baseop.toNat

/-- The point in force follows a grant, an end or a write of BASEOP, and the rail begins its ramp (R107). -/
def Cluster.setPoint (c : Cluster) (now : Nat) : Cluster :=
  let p := c.point
  if p = c.opnow then c
  else
    let v := c.rail now
    let d := if v ≤ railOf p then railOf p - v else v - railOf p
    { c with opnow := p, volt := v, rampEnd := now + d }

/-- MELT and STATE (R108). -/
def Cluster.melt16 (c : Cluster) : Nat := c.heat.toNat / 2 ^ 16

def Melt.code : Melt → Nat
  | .cool => 0
  | .sprint => 1
  | .refreeze => 2

/-! ## Leases (R111 to R116) -/

/-- Lease end reasons (R115). -/
def endLEASEEND : Nat := 1
def endEXPIRY : Nat := 2
def endPREEMPT : Nat := 3
def endFAULT : Nat := 4
def endCEILING : Nat := 5
def endBUDGET : Nat := 6
def endTEARDOWN : Nat := 7

/-- Live leases of the package that meet a test. -/
def State.leasesWith (s : State) (p : Lease → Bool) : Nat :=
  total (s.clusters.map (fun c => (c.slots.filter (fun l => match l with
    | some l => p l
    | none => false)).length))

/-- The answer of a LEASE (R334). -/
def leaseToken (status us : Nat) (handle : Word) (t : Tag) : Token :=
  ⟨lanesOfList [BitVec.ofNat 32 status, BitVec.ofNat 32 us, handle], t, none⟩

def State.answerLease (s : State) (eid : Nat) (entry : Option Nat) (status us : Nat) (handle : Word) : State :=
  match entry with
  | none => s
  | some n => s.giveAnswer eid n (leaseToken status us handle)

/-- The lease end token (R116). -/
def leaseEndToken (l : Lease) (reason now melt state : Nat) : Token :=
  let elapsed := match l.begin_ with
    | some b => min ((now - b) / 1000) 0xFFFFFFFF
    | none => 0
  ⟨lanesOfList [BitVec.ofNat 32 reason, l.handle, BitVec.ofNat 32 l.us, BitVec.ofNat 32 elapsed, BitVec.ofNat 32 melt,
    BitVec.ofNat 32 state], 7, none⟩

/-- Whether the end of a lease is followed by a trap (R117). -/
def Lease.traps (l : Lease) (reason : Nat) : Bool :=
  l.hard && (reason = endCEILING || reason = endBUDGET || reason = endEXPIRY)

/-- A lease ends (R115): its slot is free, the state and the rail follow, the instance remembers the reason and gets its
end token, and LEASENOTE is sent where R117 says so. The trap of a HARD lease is the caller's. -/
def State.endLease (s : State) (g slot reason : Nat) : State :=
  let c := s.cluster g
  match nth c.slots slot none with
  | none => s
  | some l =>
    let c := { c with slots := upd c.slots slot (fun _ => none) }
    let last := c.slots.all (·.isNone)
    let c := { c with melt := if c.melt == Melt.sprint && last then
      (if c.hyst && c.rearm.toNat ≤ c.melt16 then .refreeze else .cool) else c.melt }
    let c := c.setPoint s.now
    let s := { s with clusters := upd s.clusters g (fun _ => c) }
    let s := if l.begin_.isNone then s.answerLease l.eid l.entry 0 l.us l.handle else s
    let s := s.modInst l.inst (fun x => { x with
      ended := ((l.handle, reason) :: x.ended).take 8,
      leaseBuf := if reason ≠ endTEARDOWN && x.leasePort.isSome
        then x.leaseBuf ++ [leaseEndToken l reason s.now c.melt16 c.melt.code] else x.leaseBuf })
    if reason = endCEILING || l.traps reason then
      match s.task? l.launch l.task with
      | some t => s.sendAm l.vf amLEASENOTE (BitVec.ofNat 32 (reason + g * 2 ^ 8 + t.gw.taskId * 2 ^ 16))
          (BitVec.ofNat 64 t.gw.completionVa) none
      | none => s
    else s

/-- A lease that the controller is asked to end for a reason. -/
def Lease.ask (l : Lease) (reason : Nat) : Lease := { l with asked := reason :: l.asked }

/-- Every live lease of an instance is to end with a reason, when the turn of its cluster comes in this ns (R111, R115). -/
def State.endLeases (s : State) (i reason : Nat) : State :=
  match s.insts.find i with
  | none => s
  | some x => s.modCluster x.cluster (fun c => { c with
      slots := c.slots.map (·.map (fun l => if l.inst = i then l.ask reason else l)) })

/-- The live leases of a cluster whose end for a reason is asked. -/
def Cluster.askedFor (c : Cluster) (reason : Nat) : List Nat :=
  (List.range 16).filter (fun k => (nth c.slots k none).any (·.asked.contains reason))

/-- The leases of a cluster whose instances were pre-empted, faulted or got FINISH end, in this order (R115). -/
def State.takeAsked (s : State) (g : Nat) : State :=
  [endPREEMPT, endFAULT, endTEARDOWN].foldl (fun (s : State) reason =>
    ((s.cluster g).askedFor reason).foldl (fun (s : State) k => s.endLease g k reason) s) s

/-! ## The order of the controller (R111) -/

/-- Whether the ms update of a cluster is due and not yet taken (R109). -/
def State.updateDue (s : State) (g : Nat) : Bool :=
  let ms := s.now / 1000000
  g < s.clusters.length && (match (s.cluster g).lastMs with
    | none => s.startTime / 1000000 < ms
    | some m => m < ms)

/-- When a lease ends by EXPIRY. -/
def Lease.expiry (l : Lease) : Option Nat := l.begin_.map (· + l.us * 1000)

/-- The keys of the controller's waiting events: time, cluster, class (1 LEASEEND, 2 expiry, 3 request), element or slot. -/
def CtrlReq.key (r : CtrlReq) : List Nat :=
  match r.ask with
  | .inl _ => [r.time, r.cluster, 1, 0]
  | .inr _ => [r.time, r.cluster, 3, r.eid]

/-- The expiries that are due, as keys. -/
def State.expiries (s : State) : List (List Nat) :=
  (List.range 16).flatMap (fun g => ((s.cluster g).slots.mapIdx (fun k l => (k, l))).filterMap (fun x =>
    match x.2 with
    | some l => match l.expiry with
      | some t => if t ≤ s.now then some [t, g, 2, x.1] else none
      | none => none
    | none => none))

/-- Lexicographic order. -/
def keyLt : List Nat → List Nat → Bool
  | a :: l, b :: m => a < b || (a = b && keyLt l m)
  | _, _ => false

/-- Whether an event of the controller with this key is the next to take: the update of its cluster and those of the clusters before it
come first, and a request before the first update is passed over (R109, R111). -/
def State.ctrlTurn (s : State) (key : List Nat) : Bool :=
  (List.range (nth key 1 0 + 1)).all (fun g => !s.updateDue g) && s.expiries.all (fun k => !keyLt k key) &&
  s.ctrlQ.all (fun r => !keyLt r.key key || (r.ask.isRight && s.lastMs.isNone))

/-- The first event of an instance in the controller's queue that is LEASEEND or a request. -/
def State.ctrlOf (s : State) (i : Nat) (request : Bool) : Option CtrlReq :=
  (s.ctrlQ.filter (fun r => r.inst = i && r.ask.isRight == request)).foldl (fun (m : Option CtrlReq) r =>
    match m with
    | some b => if keyLt r.key b.key then some r else some b
    | none => some r) none

def State.dropCtrl (s : State) (r : CtrlReq) : State := { s with ctrlQ := s.ctrlQ.erase r }

/-! ## The decision on a request (R111) -/

/-- Status codes of R111. -/
def stGRANTED : Nat := 0
def stREFREEZE : Nat := 1
def stBUDGET : Nat := 2
def stCLAMP : Nat := 3
def stNOTASK : Nat := 4
def stMELT : Nat := 5

/-- A power of a cluster projected to a point, as numerator and denominator (R108, R111). -/
def State.projected (s : State) (c : Cluster) (n : Nat) : Nat × Nat :=
  let f (k : Nat) : Nat := (nth s.factors k 0).toNat
  if f c.opnow = 0 then (Config.projection c.pwr.toNat (f n), 1) else (c.pwr.toNat * f n, f c.opnow)

/-- SATCNT rises and stops at 0xFFFF (R118). -/
def Vf.saturate (v : Vf) : Vf := { v with satcnt := if v.satcnt = BitVec.allOnes 16 then v.satcnt else v.satcnt + 1 }

/-- A request or its instance that R334 refuses with NOTASK. -/
def Inst.leaseOff (x : Inst) : Bool :=
  x.phase != .run || x.stop != .none || x.boundary || x.faulted || x.finInjected

/-- How a request is decided (R111): the status, the µs granted, the point, and the state with SATCNT counted. -/
def State.decideLease (s : State) (x : Inst) (i us point : Nat) (hard : Bool) : Nat × Nat × Nat × State :=
  let g := x.cluster
  let c := s.cluster g
  let v := s.vf x.vf
  let gw := ((s.task? x.launch x.task).map (·.gw)).getD { }
  if x.leaseOff || !gw.leaseOk || (hard && !gw.hardOk) then (stNOTASK, 0, 0, s)
  else if v.maxop.toNat = 3 || v.maxn.toNat ≤ s.leasesWith (·.vf = x.vf) || 4 ≤ s.leasesWith (·.inst = i) + x.leaseBuf.length ||
      c.slots.all (·.isSome) then (stCLAMP, 0, 0, s)
  else if c.melt == .refreeze then (stREFREEZE, 0, 0, s)
  else
    let s := if v.maxop.toNat < point then s.modVf x.vf Vf.saturate else s
    let k := min point v.maxop.toNat
    let s := if v.maxus.toNat < us then s.modVf x.vf Vf.saturate else s
    let d := min us v.maxus.toNat
    let n := max k c.opnow
    let (num, den) := s.projected c n
    let others := total ((List.range 16).map (fun h => if h = g then 0 else
      (let y := s.projected (s.cluster h) (s.cluster h).opnow
       y.1 / y.2)))
    if s.sprintw.toNat * den < others * den + num then (stBUDGET, 0, 0, s)
    else
      let cool := c.cshare.toNat * den
      if num ≤ cool then (stGRANTED, d, k, s)
      else
        let a := (c.ceiling.toNat - c.melt16) * 2400 * 1000000 * den
        let b := 65536 * (num - cool)
        if a < 100 * b then (stMELT, 0, 0, s) else (stGRANTED, min d (a / b), k, s)

/-- A lease handle (R112). -/
def leaseHandle (serial : BitVec 16) (g slot point : Nat) : Word :=
  BitVec.ofNat 32 (serial.toNat * 2 ^ 16 + g * 2 ^ 12 + slot * 2 ^ 8 + point)

/-- LEASE_REQUEST (R111, R112): the controller decides the first waiting request of the instance, once it is its turn. -/
def execLeaseRequest (s : State) : Res :=
  let i := s.subject.1
  match s.ctrlOf i true, s.insts.find i with
  | some r, some x =>
    match r.ask with
    | .inl _ => .next s
    | .inr (us, point, hard) =>
      if s.lastMs.isNone || !s.ctrlTurn r.key then .next s
      else
        let s := s.dropCtrl r
        let (status, d, k, s) := s.decideLease x i us point hard
        if status ≠ stGRANTED then
          .next ((s.answerLease r.eid r.entry status 0 0).modCluster r.cluster (fun c => { c with refusedN := c.refusedN + 1 }))
        else
          let c := s.cluster r.cluster
          let slot := c.slots.findIdx (·.isNone)
          let h := leaseHandle c.serial r.cluster slot k
          let l : Lease := ⟨h, i, x.launch, x.task, x.vf, r.eid, k, hard, d, none, r.entry, s.grants, []⟩
          let c := { c with
            slots := upd c.slots slot (fun _ => some l), serial := c.serial + 1, granted := c.granted + 1,
            melt := if c.melt == Melt.cool then .sprint else c.melt }
          .next { s with clusters := upd s.clusters r.cluster (fun _ => c.setPoint s.now), grants := s.grants + 1 }
  | _, _ => .next s

/-- RAIL_REACHED (R107, R111): the ramp has ended; the grant counts from now and its answer is enqueued. -/
def execRailReached (s : State) : Res :=
  let (g, slot) := s.subject
  let c := s.cluster g
  match nth c.slots slot none with
  | some l =>
    if l.begin_.isSome || s.now < c.rampEnd then .next s
    else
      let s := s.modCluster g (fun c => { c with slots := upd c.slots slot (fun _ => some { l with begin_ := some s.now }) })
      .next (s.answerLease l.eid l.entry stGRANTED l.us l.handle)
  | none => .next s

/-- The slot of a live lease of an instance by its handle. -/
def Cluster.slotOf (c : Cluster) (i : Nat) (h : Word) : Option Nat :=
  (List.range 16).find? (fun k => match nth c.slots k none with
    | some l => l.handle == h && l.inst = i
    | none => false)

/-- A LEASEEND is taken: its lease ends, and the answer holds the reason that the named lease ended with (R335). -/
def State.takeLeaseend (s : State) (r : CtrlReq) (h : Word) : State :=
  let s := s.dropCtrl r
  let s := match (s.cluster r.cluster).slotOf r.inst h with
    | some k => s.endLease r.cluster k endLEASEEND
    | none => s
  let reason := ((s.insts.find r.inst).bind (fun x => (x.ended.find? (fun e => e.1 == h)).map (·.2))).getD 0
  match r.entry with
  | some n => s.giveAnswer r.eid n (fun t => ⟨lanesOfList [BitVec.ofNat 32 reason], t, none⟩)
  | none => s

/-- LEASEEND_REQUEST (R335): the lease ends, and the answer holds the reason it ended with, 0 for an unknown handle. -/
def execLeaseendRequest (s : State) : Res :=
  let i := s.subject.1
  match s.ctrlOf i false with
  | none => .next s
  | some r =>
    match r.ask with
    | .inr _ => .next s
    | .inl h =>
      .next (if s.ctrlTurn r.key then s.takeLeaseend r h else s)

/-- LEASE_BUFFER_ENQUEUE (R116): the oldest end token enters the lease port as soon as the queue has room. -/
def execLeaseBufferEnqueue (s : State) : Res :=
  let i := s.subject.1
  match s.insts.find i with
  | none => .next s
  | some x =>
    match x.leaseBuf, x.leasePort with
    | t :: rest, some (eid, q) =>
      let e := s.elem eid
      if e.inst ≠ some i || !e.inRoom q.val || (s.tile (tileOf eid)).hopsStopped then .next s
      else .next ((s.modInst i (fun x => { x with leaseBuf := rest })).acceptToken eid q.val t)
    | _, _ => .next s

end Sys2Proof.Machine
end

