-- ==== Sys2Proof/Machine/Teardown.lean ====
section
/-! DEFINITION. Teardown behind a FINISH front (R77, R83, R84, R89), and how a region's tiles are left. -/

namespace Sys2Proof.Machine

/-! ## Feeders (R131, R83) -/

/-- The input queues of an element that local routes and in-instance far channels feed: with the feeding element. -/
def State.feeders (s : State) (x : Inst) : List ((Nat × Nat) × Nat) :=
  x.elems.flatMap (fun eid =>
    let e := s.elem eid
    (List.range 16).filterMap (fun k =>
      match e.route? k with
      | none => none
      | some r =>
        if routeFar r then
          let d := farDestOf x.cluster x.row0 x.col0 r
          if x.spans d.1 then (endpointDest d.1 (nth (s.tile d.1).endpoints d.2 0)).map (fun q => (q, eid)) else none
        else some (localDest (tileOf eid) r, eid)))

/-- The handler entries of a partition that serve a task have their port among the baton element's inputs (R36). -/
def State.handlerPorts (s : State) (x : Inst) : List (Nat × Nat) :=
  let id := ((s.task? x.launch x.task).map (·.gw.taskId)).getD 0x10000
  match x.baton with
  | none => []
  | some b => ((s.part x.part).handlers.filter (fun h => h.hen && h.task.toNat = id)).map (fun h => (b.1, h.port.toNat))

/-- The inputs fed from outside the fabric or the instance: baton port, lease port, handler ports and endpoints (R131). -/
def State.outerFed (s : State) (x : Inst) : List (Nat × Nat) :=
  let port (p : Option (Nat × Fin 4)) : List (Nat × Nat) := (p.map (fun p => (p.1, p.2.val))).toList
  port x.baton ++ port x.leasePort ++ s.handlerPorts x ++
  x.tiles.flatMap (fun t => (s.tile t).endpoints.filterMap (endpointDest t))

/-- The input queue that FINISH is injected into: the lowest with room, else the lowest. -/
def Element.finishPort (e : Element) (qs : List Nat) : Option Nat :=
  let l := (List.range 4).filter qs.contains
  match l.find? (fun q => e.inRoom q) with
  | some q => some q
  | none => l.head?

/-- A set of queues as a mask. -/
def queueMask (l : List Nat) : BitVec 4 := BitVec.ofNat 4 (total ((List.range 4).map (fun q => if l.contains q then 2 ^ q else 0)))

def finishToken : Token := ⟨Lanes.empty, tagFinish, none⟩

/-- FINISH reaches one element at the injection (R83, R254): into the baton port and one input of an element that no other
element feeds; an element without configured inputs stops; one without a section leaves the region. -/
def State.finishElem (s : State) (x : Inst) (feeders : List ((Nat × Nat) × Nat)) (outer : List (Nat × Nat)) (eid : Nat) : State :=
  let e := s.elem eid
  if !e.bank.hasSection then
    s.setElem eid { Element.resetOf (elemType eid) with staged := .retained x.hash Bank.empty }
  else
    let mine := feeders.filter (fun f => f.1.1 = eid)
    let inner := mine.map (·.1.2)
    let fedByOther := mine.any (fun f => f.2 ≠ eid)
    let outerQ := (outer.filter (fun q => q.1 = eid)).map (·.2)
    let baton := match x.baton with
      | some b => if b.1 = eid then [b.2.val] else []
      | none => []
    let inject := if !baton.isEmpty then baton
      else if fedByOther then []
      else (e.finishPort (inner ++ outerQ)).toList
    let now := inject.filter (fun q => e.inRoom q)
    let e := { e with
      iq := e.iq.mapIdx (fun q (l : List Token) => if now.contains q then l ++ [finishToken] else l),
      finWait := queueMask (inject.filter (fun q => !e.inRoom q)),
      finNeed := queueMask (inner ++ inject), finDeq := 0, finSent := 0,
      state := if inner.isEmpty && outerQ.isEmpty && e.state == .run then .stopping else e.state }
    s.setElem eid e

/-! ## A tile that a FINISH front has freed -/

/-- Whether every element of a tile retains the image of a hash. -/
def State.wholeImage (s : State) (t : Nat) (hash : BitVec 256) : Bool :=
  (tileElems t).all (fun e => match (s.elem e).staged with
    | .retained h _ => h == hash
    | _ => false)

/-- The tile is unoccupied: its endpoints are not configured any more, and tokens left in them are discarded as R84 says. It
retains an image where all of its elements do (R73). -/
def State.leaveTile (s : State) (t : Nat) (retained : Option Retained) : State :=
  let x := s.tile t
  let left := (x.epBuf.mapIdx (fun ch l => l.map (fun f => (ch, f)))).flatten
  let c := s.cluster (clusterOf t)
  let gone := c.retired.getLsbD (tileBit t) ||
    (c.greq.getLsbD (tileBit t) && (s.insts.filter (fun x => x.2.hasTile t)).length ≤ 1)
  let s := s.modTile t (fun x => { x with
    endpoints := List.replicate 16 0, epBuf := List.replicate 16 [], copies := [], unoccSince := s.now,
    retained := (retained.filter (fun r => s.wholeImage t r.hash)).map (fun r => { r with endpoints := x.endpoints }),
    hopsStopped := false, gate := if gone then .closing else x.gate })
  left.foldl (fun (s : State) y => (s.giveCredit t y.2).deadToken y.2.eid y.2.inst cFINISHLIVE ⟨y.2.tok, 7, y.1, t, true⟩) s

/-- The staged bank of an element. -/
def Staged.bank : Staged → Bank
  | .none => Bank.empty
  | .relay _ b => b
  | .retained _ b => b

/-- What a tile retains after a teardown: its place in the image and the image's ports (R73). -/
def Inst.retain (x : Inst) (t : Nat) : Option Retained :=
  let rea (eid : Nat) : Nat :=
    let t := tileOf eid
    (trow t - x.row0) * 512 + (tcol t - x.col0) * 64 + eid % 64
  let port (p : Option (Nat × Fin 4)) : Option (Nat × Fin 4) := p.map (fun p => (rea p.1, p.2))
  some ⟨x.hash, trow t - x.row0, tcol t - x.col0, [], port x.baton, port x.leasePort⟩

/-- Whether a bank of an instance has a far channel whose endpoint lies outside it (R102). -/
def Bank.farOut (b : Bank) (x : Inst) : Bool :=
  b.routes.any (fun r => r.getLsbD 31 && routeFar r && !x.spans (farDestOf x.cluster x.row0 x.col0 r).1)

/-- The tiles of an instance that hold no element of it any more are left, one by one, each as its last element is freed: what a new
instance then puts into them stays (R79, R81). -/
def State.freeTiles (s : State) (i : Nat) : State :=
  match s.insts.find i with
  | none => s
  | some x =>
    let free := (List.range (x.w * x.h)).filter (fun k =>
      !x.gone.contains k && (tileElems (x.tileNo k)).all (fun e => (s.elem e).inst != some i))
    free.foldl (fun (s : State) k =>
      (s.leaveTile (x.tileNo k) (x.retain (x.tileNo k))).modInst i (fun y => { y with gone := y.gone ++ [k] })) s

/-! ## FINISH is injected (R77, R83) -/

/-- FINISH_INJECT (R83, R115): the instance goes to teardown, and its leases end with TEARDOWN; its tiles count as free from
now on, a scheduling event (R70, R71). -/
def State.injectFinish (s : State) (i : Nat) : State :=
  match s.insts.find i with
  | none => s
  | some x =>
    let feeders := s.feeders x
    let outer := s.outerFed x
    let s := s.endLeases i endTEARDOWN
    let farOut := x.elems.any (fun e => (s.elem e).bank.farOut x)
    let s := s.modInst i (fun x => { x with finInjected := true, phase := .teardown, farOut })
    let s := x.elems.foldl (fun (s : State) eid => s.finishElem x feeders outer eid) s
    ((x.elems.foldl State.checkLive s).freeTiles i).decide x.part

/-- FINISH goes into every running instance of a task that has no index outstanding and none to come (R77, R89). -/
def State.sweep (s : State) (l k : Nat) : State :=
  match s.task? l k with
  | none => s
  | some t =>
    (s.instsOf l k).foldl (fun (s : State) y =>
      match s.insts.find y.1 with
      | none => s
      | some x =>
        if x.phase == .run && x.stop == .none && !x.faulted && !x.finInjected && x.held.isEmpty && x.tdones.isEmpty &&
            (x.boundary || t.unissued x.num = 0) then s.injectFinish y.1 else s) s

/-! ## FINISH in an element (R83) -/

/-- An injected FINISH that waits enters its input once that has a free place (R83, R125). -/
def State.enterFinish (s : State) (eid q : Nat) : State :=
  let e := s.elem eid
  if e.finWait.getLsbD q && e.inRoom q then
    s.setElem eid { e with
      iq := upd e.iq q (· ++ [finishToken]), finWait := e.finWait &&& ~~~(BitVec.ofNat 4 (2 ^ q)) }
  else s

/-- FINISH_ARRIVAL: FINISH is at the head of an input; the element stops and dequeues it. An injected FINISH that waits
for a place comes in first. -/
def execFinishArrival (eid q : Nat) (s : State) : Res :=
  let e := s.elem eid
  match e.head? q with
  | none => .next (s.enterFinish eid q)
  | some t =>
    if t.tag ≠ tagFinish then .next (s.enterFinish eid q)
    else if !(e.state == .run || e.state == .stopping) then .next s
    else
      let e := { e with
        state := .stopping, iq := upd e.iq q (·.drop 1), finDeq := e.finDeq ||| BitVec.ofNat 4 (2 ^ q) }
      let s := s.setElem eid (e.freed (s.cluster (clusterOf (tileOf eid))).srdNow q)
      .next (s.checkLive eid)

/-- The output queues that FINISH has yet to enter, and those whose destinations all lie outside the instance. -/
def State.finishOut (s : State) (eid : Nat) (e : Element) : List Nat × List Nat :=
  let open_ := (List.range 4).filter (fun q => !(e.bank.routesOf q).isEmpty && !e.finSent.getLsbD q)
  open_.partition (fun q => (e.bank.routesOf q).any (fun j => !s.leaves eid (4 * q + j)))

/-- FINISH_FORWARD: no firing is in flight and every answer is enqueued; FINISH enters the output queues with room. -/
def execFinishForward (eid : Nat) (s : State) : Res :=
  let e := s.elem eid
  if e.state != .stopping || !e.inflight.isEmpty || !e.ans.isEmpty then .next s
  else
    let (go, skip) := s.finishOut eid e
    let go := go.filter (fun q => (nth e.oq q []).length < 2)
    .next (s.setElem eid { e with
      oq := e.oq.mapIdx (fun q (l : List Token) => if go.contains q then l ++ [finishToken] else l),
      finSent := e.finSent ||| queueMask (go ++ skip) })

/-! ## What is outstanding of an element -/

/-- An operation of an element is outstanding: memory, copies, leases, AMSEND (R83, R226). -/
def State.elemBusy (s : State) (eid : Nat) : Bool :=
  s.ops.any (fun o => o.2.eid = eid) || s.accs.any (fun a => a.2.eid = eid) || s.podAms.any (fun m => m.eid = eid) ||
  (s.tile (tileOf eid)).copies.any (fun c => c.eid = eid) || s.ctrlQ.any (fun r => r.eid = eid) ||
  (s.cluster (clusterOf (tileOf eid))).slots.any (fun l => match l with
    | some l => l.eid = eid && l.begin_.isNone && l.entry.isSome
    | none => false) ||
  s.links.any (fun r => match r.owner with
    | .stream _ e _ _ => e = eid && r.answer.isNone
    | _ => false) ||
  (s.devAms ++ s.stalled).any (fun m => match m.sender with
    | .element e _ => e = eid
    | _ => false) ||
  s.vfs.any (fun v => v.2.out.any (fun o => match o.sender with
    | some (e, _) => e = eid
    | none => false))

/-! ## Gating (R123) -/

/-- The instances bound to a tile. -/
def State.holders (s : State) (t : Nat) : List (Nat × Inst) := s.insts.filter (fun x => x.2.hasTile t)

/-- Whether a tile is unoccupied and no instance is bound to it. -/
def State.tileIdle (s : State) (t : Nat) : Bool :=
  (s.holders t).isEmpty && (tileElems t).all (fun e => (s.elem e).state == .unoccupied)

/-- The tile begins to gate: its ingress closes (R123). -/
def State.closeTile (s : State) (t : Nat) : State :=
  if (s.tile t).gate == .powered && s.tileIdle t then s.modTile t (fun x => { x with gate := .closing }) else s

/-- The tiles of a cluster. -/
def clusterTiles (g : Nat) : List Nat := (List.range 36).map (fun k => tileAt g (k / 6) (k % 6))

/-- No image is retained in a tile. -/
def State.forgetTile (s : State) (t : Nat) : State :=
  let s := s.modTile t (fun x => { x with retained := none })
  (tileElems t).foldl (fun (s : State) eid =>
    match (s.elem eid).staged with
    | .retained _ _ => s.modElem eid (fun e => { e with staged := .none })
    | _ => s) s

/-- A cluster joins its new partition once no instance of the former one stands in it (R104, R106). -/
def State.joinPartition (s : State) (g : Nat) : State :=
  if (s.cluster g).old.isNone || s.insts.any (fun x => x.2.cluster = g) then s
  else
    let s := (clusterTiles g).foldl State.forgetTile (s.modCluster g (fun c => { c with old := none }))
    match s.partOfCluster g with
    | some p => s.decide p
    | none => s

/-- An instance is no more bound: a scheduling event (R71), and its policy may have been the last of an older one (R60). -/
def State.dropInst (s : State) (i : Nat) (x : Inst) : State :=
  ((({ s with insts := s.insts.drop i }).decide x.part).policySettle x.part).joinPartition x.cluster

/-- An instance leaves the tiles that it holds, and none retains an image. -/
def State.leaveRegion (s : State) (i : Nat) (x : Inst) : State :=
  (x.tiles.foldl (fun (s : State) t => s.leaveTile t none) s).dropInst i x

/-- A task has pre-empted instances: PREEMPTED is its status until the last is bound again (R88). -/
def State.showPreempted (s : State) (l k : Nat) : State :=
  match s.task? l k with
  | some t => if t.status == .preempted then s
      else (s.modTask l k (fun t => { t with status := .preempted })).writeObject l k
  | none => s

/-- Every index that a list holds is counted failed. -/
def State.failHeld (s : State) (l k : Nat) (held : List Nat) : State :=
  s.modTask l k (fun t => held.foldl Task.failIndex t)

/-- A task whose shape fits nowhere any more: its held and unissued indices are counted failed (R106). -/
def State.failShape (s : State) (l k : Nat) : State :=
  match s.launches.find l, s.task? l k with
  | some x, some t =>
    if t.gw.ttCount = 0 || !(s.rects x.part t.gw.w t.gw.h).isEmpty || t.final then s
    else
      let s := t.pre.foldl (fun (s : State) p => (s.failHeld l k p.held).freeContext p.ctx) s
      (s.modTask l k (fun t => { t with pre := [] })).failTask l k 2 false
  | _, _ => s

/-- A task keeps a pre-empted instance: it shows PREEMPTED and is ready again, unless no region of its shape is left (R88, R102,
R106). -/
def State.keepInstance (s : State) (l k : Nat) (p : Preempted) : State :=
  let s := s.modTask l k (fun t => { t with pre := t.pre ++ [p] })
  ((s.showPreempted l k).readyAgain l k).failShape l k

/-- The end of a BOUNDARY pre-emption: the task keeps its progress record, and is ready again where an index remains (R89,
R102). `farOut`: the instance has a far channel whose endpoint lies outside it. -/
def State.endBoundary (s : State) (i : Nat) (x : Inst) (farOut : Bool) : State :=
  if (s.task? x.launch x.task).all (fun t => t.unissued x.num = 0) then s
  else s.keepInstance x.launch x.task ⟨i, x.num, [], 0, x.cluster, x.row0, x.col0, farOut, []⟩

/-- A BOUNDARY instance that no index remains for is not bound again. -/
def Task.prune (t : Task) : Task := { t with pre := t.pre.filter (fun p => p.ctx ≠ 0 || t.unissued p.num ≠ 0) }

def State.pruneTask (s : State) (l k : Nat) : State := s.modTask l k Task.prune

/-- The last element of a region is free: its tiles have all been left (R79, R83). -/
def State.endTeardown (s : State) (i : Nat) : State :=
  match s.insts.find i with
  | none => s
  | some x =>
    if !x.tiles.isEmpty then s
    else
      let s := (s.dropInst i x).schedInst .retire x
      if x.boundary then s.endBoundary i x x.farOut else s

/-- ELEMENT_FREED (R83): FINISH has come on every input fed from within, the queues and route buffers are empty and nothing
is outstanding; the active bank is retained. -/
def execElementFreed (eid : Nat) (s : State) : Res :=
  let e := s.elem eid
  match e.inst with
  | none => .next s
  | some i =>
    let hash := ((s.insts.find i).map (·.hash)).getD 0
    let sent := (List.range 4).all (fun q => (e.bank.routesOf q).isEmpty || e.finSent.getLsbD q)
    if e.state != .stopping || e.finNeed &&& ~~~e.finDeq ≠ 0 || !sent || !e.inflight.isEmpty || !e.ans.isEmpty ||
        e.iq.any (!·.isEmpty) || e.oq.any (!·.isEmpty) || e.rb.any (·.isSome) || s.elemBusy eid then .next s
    else
      let s := s.setElem eid { Element.resetOf (elemType eid) with staged := .retained hash e.bank }
      .next ((s.freeTiles i).endTeardown i)

end Sys2Proof.Machine
end

