-- ==== Sys2Proof/Machine/Preempt.lean ====
section
/-! DEFINITION. Pre-emption: BOUNDARY and CUT (R88 to R90), the hold wave (R91), the save of a context (R92 to R99), the
ORDERED rule (R100), lost tiles (R105, R106), and the end of a hold (R230). -/

namespace Sys2Proof.Machine

/-! ## Far credits at a cut (R94, R98, R102) -/

/-- The far route entries of an element. -/
def Element.farEntries (e : Element) : List Nat :=
  (List.range 16).filter (fun k => match e.route? k with
    | some r => routeFar r
    | none => false)

/-- The far entries of occupied elements that send to a configured endpoint. -/
def State.senders (s : State) (tile ch : Nat) : List (Nat × Nat) :=
  if !(nth (s.tile tile).endpoints ch 0).getLsbD 31 then []
  else s.elems.flatMap (fun x =>
    if x.2.inst.isNone then []
    else (x.2.farEntries.filter (fun k => s.farDest x.1 k == some (tile, ch))).map (fun k => (x.1, k)))

/-- The endpoints of a tile that feed an element. -/
def State.endpointsOf (s : State) (eid : Nat) : List Nat :=
  let t := tileOf eid
  (List.range 16).filter (fun ch => (endpointDest t (nth (s.tile t).endpoints ch 0)).map (·.1) == some eid)

/-- The credits of an entry are withdrawn. -/
def Element.withdraw (e : Element) (k : Nat) : Element := { e with withdrawn := e.withdrawn ||| BitVec.ofNat 16 (2 ^ k) }

/-- A saved sender outside a tile loses its credits for a channel of it (R94). -/
def Context.withdraw (c : Context) (tile ch : Nat) : Context :=
  let x := c.inst
  let far (e : Element) (k : Nat) : Bool := (e.route? k).any (fun r => routeFar r && farDestOf x.cluster x.row0 x.col0 r = (tile, ch))
  if x.spans tile then c
  else { c with elements := c.elements.map (fun e => ((List.range 16).filter (far e)).foldl Element.withdraw e) }

/-- The endpoints withdraw every credit that their senders hold, those of saved contexts among them (R94). -/
def State.withdraw (s : State) (eid : Nat) : State :=
  let t := tileOf eid
  (s.endpointsOf eid).foldl (fun (s : State) ch =>
    (s.senders t ch).foldl (fun (s : State) x => s.modElem x.1 (fun e => e.withdraw x.2))
      { s with contexts := s.contexts.map (fun c => (c.1, c.2.withdraw t ch)) }) s

/-- Whether a far token was sent by an entry. -/
def FarTok.fromEntry (f : FarTok) (eid k inst : Nat) : Bool := f.eid = eid && f.entry = k && f.inst = inst

/-- What an entry has sent to an endpoint and what has not come back: tokens in its route buffer, the egress buffer, the
track and the endpoint buffer, and credits on their way. -/
def State.sentBy (s : State) (eid k : Nat) (d : Nat × Nat) : Nat :=
  let e := s.elem eid
  let i := e.inst.getD 0
  let msg (m : Msg) : Bool := match m.body with
    | .far _ f => f.fromEntry eid k i
    | .credit a b c => a = eid && b = k && c = i
    | .access _ => false
  (if (nth e.rb k none).isSome then 1 else 0) + ((s.tile (tileOf eid)).egressReq.filter msg).length +
  (s.track.filter msg).length + ((s.tile d.1).egressResp.filter msg).length +
  ((nth (s.tile d.1).epBuf d.2 []).filter (fun f => f.fromEntry eid k i)).length

/-- Whether an endpoint takes credits: its element is occupied, and no cut of its instance is under way. -/
def State.endpointOpen (s : State) (d : Nat × Nat) : Bool :=
  match endpointDest d.1 (nth (s.tile d.1).endpoints d.2 0) with
  | none => false
  | some q => (s.elem q.1).state != .unoccupied && (s.elem q.1).state != .cut

/-- An entry is granted 8 credits less what it has sent (R102). -/
def State.regrant (s : State) (eid k : Nat) : State :=
  match s.farDest eid k with
  | none => s
  | some d =>
    if !s.endpointOpen d then s
    else
      let n := s.sentBy eid k d
      s.modElem eid (fun e => { e with
        credits := upd e.credits k (fun _ => 8 - n), withdrawn := e.withdrawn &&& ~~~(BitVec.ofNat 16 (2 ^ k)) })

/-- Every endpoint of an instance grants credits again, and every far entry of it is granted them. -/
def State.regrantAll (s : State) (x : Inst) : State :=
  let s := x.tiles.foldl (fun (s : State) t => (List.range 16).foldl (fun (s : State) ch =>
    (s.senders t ch).foldl (fun (s : State) y => s.regrant y.1 y.2) s) s) s
  x.elems.foldl (fun (s : State) e => (s.elem e).farEntries.foldl (fun (s : State) k => s.regrant e k) s) s

/-! ## Loads at a cut (R93) -/

/-- The loads of an element are discarded and kept for re-issue; a load of device MMIO goes on. -/
def State.dropLoads (s : State) (eid : Nat) (keep : Bool) : State :=
  let isLoad (o : MemOp) : Bool := o.eid = eid && !o.mmio && (match o.result with
    | .data _ _ => true
    | _ => false)
  let loads := (s.ops.filter (fun o => isLoad o.2)).map (·.2)
  loads.foldl (fun (s : State) o =>
    let s := (s.opAccs o.id).foldl State.dropAccess s
    let s := { s with ops := s.ops.drop o.id }
    if keep then s.modElem eid (fun e => { e with reissue := e.reissue ++ [{ o with data := [], poison := false }] }) else s) s

/-- The saved loads of an element are issued again; a fault that their translation meets is taken (R102, R167). -/
def State.reissueLoads (s : State) (eid : Nat) : State :=
  let l := (s.elem eid).reissue
  let s := s.modElem eid (fun e => { e with reissue := [] })
  l.foldl (fun (s : State) o =>
    let o := { o with eid }
    let s := { s with ops := s.ops.put o.id o }
    match s.issueAll o o.all with
    | (none, s) => s
    | (some f, s) =>
      let s := s.muteOp o.id
      (s.takeFault eid f.1 f.2.1 f.2.2 (some o.firing.slot) o.firing.word (o.firing.entries eid 6)).settle o.id eid) s

/-! ## The context record (R97, R98) -/

/-- An entry of the token area: the token, its place kind, holder, index and position, and TAKEN (R97). -/
structure Placed where
  token : Token
  kind : Nat
  holder : Nat
  idx : Nat
  pos : Nat
  taken : Nat := 0
deriving DecidableEq, Repr

/-- Its 80 bytes (R97). -/
def Placed.bytes (p : Placed) : List Byte :=
  payloadBytes p.token.lanes ++ leBytes 2 (validMask p.token.lanes).toNat ++
  leBytes 1 (p.token.tag.toNat + (if p.token.pacer.isSome then 16 else 0)) ++ leBytes 1 p.kind ++ leBytes 2 p.holder ++
  leBytes 1 p.idx ++ leBytes 1 p.pos ++ leBytes 1 p.taken ++ List.replicate 7 0

/-- Entries for the tokens of a list, from the head on. -/
def placedList (kind holder idx : Nat) (l : List Token) : List Placed := l.mapIdx (fun i t => ⟨t, kind, holder, idx, i, 0⟩)

/-- The entry of a saved load request: the VA, the stream and the lanes requested (R93, R97). -/
def MemOp.requestBytes (o : MemOp) (eid idx : Nat) : List Byte :=
  let mask : Nat := match o.result with
    | .data _ l => total (((l.map (·.1)).dedup).map (2 ^ ·))
    | _ => 0
  leBytes 8 ((o.all.head?.map (·.1)).getD 0) ++ leBytes 4 (o.port % 4) ++ List.replicate 52 0 ++ leBytes 2 mask ++ leBytes 1 0 ++
  leBytes 1 7 ++ leBytes 2 eid ++ leBytes 1 idx ++ List.replicate 9 0

/-- The tokens of an element's queues, route buffers and answer buffer as entries, kind by kind (R97). -/
def Element.tokenArea (e : Element) (eid : Nat) : List Placed :=
  (e.iq.mapIdx (fun q l => placedList 0 eid q l)).flatten ++
  (e.oq.mapIdx (fun q l => (placedList 1 eid q l).map (fun p => if p.pos = 0 then { p with taken := (nth e.taken q 0).toNat } else p))).flatten ++
  (e.rb.mapIdx (fun k t => placedList 2 eid k t.toList)).flatten ++
  (e.ans.mapIdx (fun i a => placedList 5 eid i a.token.toList)).flatten

/-- The far tokens of a list of messages. -/
def farTokens (l : List Msg) : List FarTok := l.filterMap (fun m => match m.body with
  | .far _ f => some f
  | _ => none)

/-- The tokens of a tile's endpoint buffers and egress buffer as entries (R97). -/
def Tile.tokenArea (t : Tile) (n : Nat) : List Placed :=
  (t.epBuf.mapIdx (fun ch l => placedList 3 n ch (l.map (·.tok)))).flatten ++
  (farTokens t.egressReq).mapIdx (fun i f => ⟨f.tok, 4, n, i, 0, 0⟩)

/-- The lease buffer of an instance as entries of its tile (R116). -/
def Inst.leaseArea (x : Inst) (t : Nat) : List Placed := match x.leasePort with
  | some p => if tileOf p.1 = t then placedList 6 t 0 x.leaseBuf else []
  | none => []

/-- The elements of a tile in the order of the record's blocks: AG, PE, SE, ME (R97). -/
def blockElems (t : Nat) : List Nat :=
  let of (ty : ElemType) : List Nat := (tileElems t).filter (fun e => elemType e == ty)
  of .ag ++ of .pe ++ of .se ++ of .me

/-- A far token that a credit was used for and that is still to come to a tile: on the track, or where hops have not stopped in an
egress buffer or a route buffer (R94). -/
def State.onCredit (s : State) (t : Nat) : Nat :=
  let comes (m : Msg) : Bool := m.dst = t && (match m.body with
    | .far _ _ => true
    | _ => false)
  (s.track.filter comes).length +
  total ((s.tiles.filter (fun y => !y.2.hopsStopped)).map (fun y => (y.2.egressReq.filter comes).length)) +
  total ((List.range 16).map (fun ch => ((s.senders t ch).filter (fun y =>
    (nth (s.elem y.1).rb y.2 none).isSome && !(s.tile (tileOf y.1)).hopsStopped)).length))

/-- Whether an entry may have its answer by the end of a save: that of a load that is made again at the resume will not (R93). -/
def Element.mayFill (e : Element) (a : Answer) : Bool := a.token.isNone && !e.reissue.any (fun o => o.entry = some a.id)

/-- T of a tile: the entries that its record has, or, with what is `owed`, may have: each answer still to come, of memory, a fence, a
copy, the controller or a message, brings a token; and the save accepts every token sent on a credit (R93, R94, R97; log 151). -/
def State.tokenCount (s : State) (x : Inst) (t : Nat) (owed : Bool) : Nat :=
  let ofElem (eid : Nat) : Nat :=
    let e := s.elem eid
    (e.tokenArea eid).length + e.reissue.length + if owed then (e.ans.filter e.mayFill).length else 0
  total ((tileElems t).map ofElem) + ((s.tile t).tokenArea t).length + (x.leaseArea t).length + s.onCredit t

/-- The length of a context record (R97). -/
def State.recordLength (s : State) (x : Inst) (footprint : Nat) (owed : Bool) : Nat :=
  64 + total (x.region.map (fun t => 647168 + (if x.hasTile t then 80 * s.tokenCount x t owed else 0) + 1024 * footprint))

/-- The lowest free run of a pool that fits (R98). -/
def freeRun (runs : List (Nat × Nat)) (size need : Nat) : Option Nat :=
  let free (c : Nat) : Bool := c + need ≤ size && runs.all (fun r => c + need ≤ r.1 || r.1 + r.2 ≤ c)
  let l := (0 :: runs.map (fun r => r.1 + r.2)).filter free
  match l with
  | [] => none
  | c :: rest => some (rest.foldl min c)

def footprintOf (s : State) (x : Inst) : Nat := ((s.task? x.launch x.task).map (·.gw.footprint)).getD 0

/-! ## The end of a hold (R230) -/

/-- The elements of a held or cut instance return to the state they had (R98, R230). -/
def State.wakeElems (s : State) (x : Inst) : State :=
  x.elems.foldl (fun (s : State) eid =>
    let e := s.elem eid
    if e.state == .held || e.state == .cut then s.setElem eid { e with state := e.before } else s) s

/-- A hold ends: the instance returns to RUN. -/
def State.wake (s : State) (i : Nat) : State :=
  match s.insts.find i with
  | none => s
  | some x => (s.wakeElems x).modInst i (fun x => { x with stop := .none, holdDone := false, waveLeft := [] })

/-! ## Pre-emption of one instance (R79, R88 to R90) -/

/-- Every staged bank of a region goes, retained images among them (R73, R79, R80). -/
def State.dropStaged (s : State) (x : Inst) : State :=
  let s := x.elems.foldl (fun (s : State) eid =>
    match (s.elem eid).staged with
    | .none => s
    | _ => s.modElem eid (fun e => { e with staged := .none })) s
  x.tiles.foldl (fun (s : State) t => s.modTile t (fun y => { y with retained := none, sweep := none })) s

/-- A region in RELAY or STAGED is given up (R79): its task keeps the instance among its pre-empted ones, or, where the
context is discarded, counts its indices failed (R34). -/
def State.unbind (s : State) (i : Nat) (x : Inst) (discard : Bool) : State :=
  let s := s.dropStaged x
  let s := (({ s with insts := s.insts.drop i }.decide x.part).policySettle x.part).joinPartition x.cluster
  match s.task? x.launch x.task with
  | none => s
  | some t =>
    let ctx := x.ctx.getD 0
    if discard then (s.failHeld x.launch x.task x.held).freeContext ctx
    else if ctx = 0 && t.unissued x.num = 0 then s
    else
      s.keepInstance x.launch x.task ⟨i, x.num, x.held, ctx, x.cluster, x.row0, x.col0, x.pinned, x.feed⟩

/-- The stronger of two pre-emptions that wait. -/
def Ask.join : Ask → Ask → Ask
  | .boundary, a => a
  | a, .boundary => a
  | .cut d l, .cut e m => .cut (d || e) (l || m)

/-- A BOUNDARY stop begins: no more batons, and the leases end (R89, R115). -/
def State.startBoundary (s : State) (i : Nat) (x : Inst) : State :=
  let s := (s.endLeases i endPREEMPT).modInst i (fun x => { x with boundary := true })
  (s.schedInst .preempt x).sweep x.launch x.task

/-- A CUT begins: the leases end and the hold wave starts at the origin (R91, R115). -/
def State.startCut (s : State) (i : Nat) (x : Inst) (discard lost : Bool) : State :=
  let s := (s.endLeases i endPREEMPT).modInst i (fun x =>
    { x with stop := .cut discard lost, waveLeft := x.elems, boundary := false })
  s.schedInst .preempt x

/-- The pre-emption of one instance in the phase it is in. -/
def State.preemptOne (s : State) (i : Nat) (ask : Ask) : State :=
  match s.insts.find i with
  | none => s
  | some x =>
    let later (s : State) : State := s.modInst i (fun x => { x with waiting := some ((x.waiting.map (·.join ask)).getD ask) })
    if x.faulted then s
    else match x.phase with
      | .relay | .staged => s.unbind i x (match ask with
        | .cut d _ => d
        | .boundary => false)
      | .commit => later s
      | _ =>
        match x.stop, ask with
        | .none, .boundary => if x.finInjected || x.boundary then s else s.startBoundary i x
        | .none, .cut d l => s.startCut i x d l
        | .cut a b, .cut d l => s.modInst i (fun x => { x with stop := .cut (a || d) (b || l) })
        | .cut _ _, .boundary => s
        | .hold _ _, .cut d true => (s.wake i).startCut i x d true
        | .hold _ _, _ => later s

/-- The set of R100: the instances that an ORDERED task loses with one of them. -/
def orderedSet (l : List (Nat × Inst)) (i : Nat) : List Nat :=
  let grow (S : List Nat) : List Nat :=
    match (l.filter (fun x => S.contains x.1)).flatMap (·.2.held) with
    | [] => S
    | h :: t =>
      let m := t.foldl min h
      S ++ (l.filter (fun x => !S.contains x.1 && x.2.held.any (m < ·))).map (·.1)
  (List.range 16).foldl (fun S _ => grow S) [i]

/-- Whether a CUT of an instance takes hold now: it runs, or it is held and its tiles are lost (R90, R106). -/
def Inst.cutsNow (x : Inst) (lost : Bool) : Bool :=
  (x.phase == .run || x.phase == .teardown) && !x.faulted && (x.stop == .none || (lost && (x.stop matches .hold _ _)))

/-- A pre-emption, with the instances that the ORDERED rule draws in (R100). -/
def State.preempt (s : State) (i : Nat) (ask : Ask) : State :=
  match s.insts.find i with
  | none => s
  | some x =>
    let ordered := ((s.task? x.launch x.task).map (·.gw.ordered)).getD false
    let also := match ask with
      | .cut _ lost => if ordered && x.cutsNow lost then (orderedSet (s.instsOf x.launch x.task) i).filter (· ≠ i) else []
      | .boundary => []
    also.foldl (fun (s : State) j => s.preemptOne j (.cut false false)) (s.preemptOne i ask)

/-- A pre-emption that waited is taken (R79, R90). -/
def State.takeWaiting (s : State) (i : Nat) : State :=
  match (s.insts.find i).bind (·.waiting) with
  | none => s
  | some a => (s.modInst i (fun x => { x with waiting := none })).preempt i a

/-! ## Lost tiles (R105, R106) -/

/-- Every task of a partition that waits for a region is checked for its shape. -/
def State.checkShapes (s : State) (p : Nat) : State :=
  s.launches.foldl (fun (s : State) x =>
    if x.2.part ≠ p then s
    else (List.range x.2.tasks.length).foldl (fun (s : State) k =>
      if ((s.task? x.1 k).map (fun t => t.ready || !t.pre.isEmpty)).getD false then s.failShape x.1 k else s) s) s

/-- Tiles are lost to a partition: every instance on one is cut, released or given up (R106). -/
def State.loseTiles (s : State) (p : Nat) (tiles : List Nat) : State :=
  let hit := s.insts.filter (fun x => x.2.part = p && tiles.any x.2.hasTile)
  let s := hit.foldl (fun (s : State) y =>
    if y.2.faulted then s.modInst y.1 (fun x => { x with releaseAsked := true })
    else s.preempt y.1 (.cut false true)) s
  s.checkShapes p

/-- A tile is retired (R105): its bit is set, its instance is cut, a scheduler event records it, which concerns no partition where its
cluster is in none (R52), and it is gated for good once it is unoccupied. -/
def State.retireTile (s : State) (t : Nat) : State :=
  let g := clusterOf t
  if (s.cluster g).retired.getLsbD (tileBit t) then s
  else
    let s := s.modCluster g (fun c => { c with retired := c.retired ||| BitVec.ofNat 36 (2 ^ tileBit t) })
    let s := s.modTile t (fun x => if x.gate == .gated then x else
      if (tileElems t).any (fun e => (s.elem e).state != .unoccupied) then x else { x with gate := .closing })
    match s.partOfCluster g with
    | none => s.handOver ⟨16, none, SchedEvent.retire.code, s.now, [0xFFFF, 0, 0xFF, t], false⟩
    | some p => (s.sched p .retire 0xFFFF 0 0xFF t).loseTiles p [t]

/-- One more uncorrectable error of a tile: the second retires it (R105). -/
def State.countUe (s : State) (t : Nat) : State :=
  let s := s.modTile t (fun x => { x with ueCount := x.ueCount + 1 })
  if (s.tile t).ueCount = 2 then s.retireTile t else s

/-! ## HOLD_WAVE_ARRIVAL (R91, R230) -/

/-- Where an element stands in its cluster. -/
def elemCol (eid : Nat) : Nat := 8 * tcol (tileOf eid) + xOf eid
def elemRow (eid : Nat) : Nat := 8 * trow (tileOf eid) + yOf eid

/-- One hop apart. -/
def nextTo (a b : Nat) : Bool :=
  (elemCol a = elemCol b && (elemRow a + 1 = elemRow b || elemRow b + 1 = elemRow a)) ||
  (elemRow a = elemRow b && (elemCol a + 1 = elemCol b || elemCol b + 1 = elemCol a))

/-- The element where the wave of an instance starts (R91, R333). -/
def Inst.waveStart (x : Inst) : Nat :=
  match x.stop with
  | .hold eid true => eid
  | _ => eidAt (tileAt x.cluster x.row0 x.col0) 0 0

/-- Whether the wave may reach an element: it is the start, or a neighbour in the region is reached or freed. -/
def Inst.waveNext (x : Inst) (eid : Nat) : Bool :=
  x.waveLeft.contains eid && (eid = x.waveStart || (x.region.flatMap tileElems).any (fun n => nextTo eid n && !x.waveLeft.contains n))

/-- HOLD_WAVE_ARRIVAL: the element stops selecting and stays frozen; at a CUT the endpoints that feed it withdraw their
credits (R94). -/
def execHoldWaveArrival (eid : Nat) (s : State) : Res :=
  match s.insts.find? (fun i => i.2.waveLeft.contains eid) with
  | none => .next s
  | some (i, x) =>
    if x.stop == .none || !x.waveNext eid then .next s
    else
      let cut := match x.stop with
        | .cut _ _ => true
        | _ => false
      let s := s.modInst i (fun x => { x with waveLeft := x.waveLeft.erase eid })
      let e := s.elem eid
      let runs : Bool := e.inst == some i && (e.state == .run || e.state == .stopping)
      let s := if runs then s.setElem eid { e with before := e.state, state := if cut then .cut else .held } else s
      .next (if cut then s.withdraw eid else s)

/-! ## SAVE_START (R92, R93, R98) -/

/-- Whether the wave has reached every element and no firing is in flight. -/
def State.frozen (s : State) (x : Inst) : Bool := x.waveLeft.isEmpty && x.elems.all (fun e => (s.elem e).inflight.isEmpty)

/-- An instance of an ORDERED task no longer waits for another: the next one may bind (DEDUCED: R101; log 109). -/
def State.decideNext (s : State) (x : Inst) : State :=
  if (s.task? x.launch x.task).any (·.gw.ordered) then s.decide x.part else s

/-- The pre-emption goes on as BOUNDARY: the wave is undone (R98). -/
def State.fallBack (s : State) (i : Nat) (x : Inst) : State :=
  let s := x.tiles.foldl (fun (s : State) t => s.modTile t (fun t => { t with hopsStopped := false })) (s.wakeElems x)
  let s := s.modInst i (fun x => { x with stop := .none, boundary := true, phase := if x.finInjected then .teardown else .run })
  let s := x.elems.foldl State.reissueLoads (s.regrantAll x)
  (s.sweep x.launch x.task).decideNext x

/-- SAVE_START: the route hops stop, the loads are kept for re-issue, and a record is allocated; without room the
pre-emption is performed as BOUNDARY, or, for lost tiles, without a save, and a scheduler event records either
substitution (DEDUCED: R98's last sentence; log 107). -/
def execSaveStart (s : State) : Res :=
  let i := s.subject.1
  match s.insts.find i with
  | none => .next s
  | some x =>
    match x.stop with
    | .cut discard lost =>
      if !(x.phase == .run || x.phase == .teardown) || !s.frozen x then .next s
      else
        let s := x.tiles.foldl (fun (s : State) t => s.modTile t (fun t => { t with hopsStopped := true })) s
        let s := x.elems.foldl (fun (s : State) e => s.dropLoads e true) s
        let saving (s : State) (a : Option (Nat × Nat)) : State := s.modInst i (fun x => { x with phase := .saving, alloc := a })
        let p := s.part x.part
        let units := (s.recordLength x (footprintOf s x) true + 65535) / 65536
        if discard then .next (saving s none)
        else match freeRun p.poolRuns p.poolSize.toNat units with
          | some u => .next (saving (s.modPart x.part (fun p => { p with poolRuns := p.poolRuns ++ [(u, units)] })) (some (u, units)))
          | none => .next ((if lost then saving s none else s.fallBack i x).schedInst .substituted x)
    | _ => .next s

/-! ## SAVE_END (R92 to R98) -/

/-- Whether the drains of a save are done (R93, R94). -/
def State.drained (s : State) (i : Nat) (x : Inst) : Bool :=
  !(s.ops.any (fun o => o.2.inst = i)) && !(s.accs.any (fun a => x.hasTile (tileOf a.2.eid))) && !(s.ctrlQ.any (fun r => r.inst = i)) &&
  x.tdones.isEmpty && x.faults.isEmpty && x.tiles.all (fun t => s.onCredit t = 0)

/-- A token of the record: a pacer token's log ends with END 3, and after the resume it starts a fresh log (R92, R227). -/
def Token.cutLog (t : Token) (eid : Nat) : Token :=
  match t.pacer with
  | none => t
  | some _ => { t with pacer := some ⟨0, eid, [], false⟩ }

/-- The logs of the tokens that an element holds end, and its tokens as they are saved. -/
def State.saveElem (s : State) (eid : Nat) : Element × State :=
  let e := s.elem eid
  let held := e.iq.flatten ++ e.oq.flatten ++ e.rb.filterMap id
  let c (t : Token) : Token := t.cutLog eid
  ({ e with
      iq := e.iq.map (·.map c), oq := e.oq.map (·.map c), rb := e.rb.map (·.map c),
      streams := e.streams.map (fun t => { t.discard with page := none }) }, s.endLogs eid held 3)

/-- The far tokens of the egress buffer. -/
def farOnly (l : List Msg) : List Msg := l.filter (fun m => match m.body with
  | .far _ _ => true
  | _ => false)

/-- The element where the log of a token in an endpoint buffer ends: the one that the endpoint feeds. -/
def State.endpointSink (s : State) (t ch : Nat) (f : FarTok) : Nat :=
  ((endpointDest t (nth (s.tile t).endpoints ch 0)).map (·.1)).getD f.eid

/-- The logs of the far tokens that a tile holds for an instance end there: in its endpoint buffers and its egress buffer (R92,
R227). -/
def State.endFarLogs (s : State) (x : Inst) (t endCode : Nat) : State :=
  let y := s.tile t
  let s := ((y.epBuf.mapIdx (fun ch l => l.map (fun f => (s.endpointSink t ch f, f.tok)))).flatten).foldl
    (fun (s : State) f => s.endLogOf x t f.1 f.2 endCode) s
  (farTokens y.egressReq).foldl (fun (s : State) f => s.endLogOf x t f.eid f.tok endCode) s

/-- A tile as it is saved: its far tokens and copies, and its footprint as the Starter read it. -/
def State.saveTile (s : State) (x : Inst) (t : Nat) : Tile × State :=
  let y := s.tile t
  let w := y.sweep.getD ⟨false, [], [], []⟩
  let cut (f : FarTok) : FarTok := { f with tok := f.tok.cutLog f.eid }
  ({ y with
      sram := w.sram, sramPoison := w.poison, sweep := none,
      epBuf := y.epBuf.map (·.map cut), egressResp := [],
      egressReq := (farOnly y.egressReq).map (fun m => match m.body with
        | .far ch f => { m with body := .far ch (cut f) }
        | _ => m) }, s.endFarLogs x t 3)

/-- The elements of a saved region become unoccupied and its tiles hold nothing of it; no image is retained (R73). -/
def State.clearRegion (s : State) (i : Nat) (x : Inst) : State :=
  let s := x.elems.foldl State.releaseElem s
  let s := x.tiles.foldl (fun (s : State) t => s.modTile t (fun y => { y with
    epBuf := List.replicate 16 [], copies := [], sweep := none, egressReq := y.egressReq.filter (fun m => !(farOnly [m] == [m])) })) s
  s.leaveRegion i x

/-- Whether the instance has a far channel whose endpoint lies outside it (R102). -/
def State.hasFarOut (s : State) (x : Inst) : Bool := x.elems.any (fun e => (List.range 16).any (fun k => s.leaves e k))

/-- The context of an instance (R97). -/
def State.saveContext (s : State) (x : Inst) (u units : Nat) : Context × State :=
  let len := s.recordLength x (footprintOf s x) false
  let farOut := s.hasFarOut x
  let (es, s) := x.elems.foldl (fun (r : List Element × State) e =>
    let (a, s) := r.2.saveElem e
    (r.1 ++ [a], s)) ([], s)
  let (ts, s) := x.tiles.foldl (fun (r : List Tile × State) t =>
    let (a, s) := r.2.saveTile x t
    (r.1 ++ [a], s)) ([], s)
  ({ inst := x, elements := es, tiles := ts, length := len, time := s.now, unit0 := u, units, bad := false, farOut }, s)

/-! ## The record in the pool (R97, R103) -/

/-- The address of a run of the pool of a partition. -/
def State.poolAddr (s : State) (p u : Nat) : Nat := (s.part p).poolBase.toNat * 65536 + u * 65536

/-- The bytes 0x00 to 0x37 of a record's header (R97). -/
def contextHeader (x : Inst) (gw : GraphWord) (root length time : Nat) : List Byte :=
  leBytes 4 0x31585443 ++ leBytes 2 gw.taskId ++ leBytes 1 x.num ++ leBytes 1 (x.w * x.h) ++ leBytes 2 x.gen ++
  leBytes 1 x.w ++ leBytes 1 x.h ++ leBytes 4 gw.footprint ++ leBytes 8 root ++ leBytes 8 length ++
  leBytes 8 (tileAt x.cluster x.row0 x.col0) ++ leBytes 8 time ++ leBytes 8 0

/-- CHECK over the bytes of a record without CHECK (R97). -/
def contextCheck (bs : List Byte) : Nat := (total (chunks 8 (bs.length / 8) bs) + 0x54574E4354583153) % 2 ^ 64

/-- The header that a task's record of an instance and a length has: root graph word and task as the launch gives them. -/
def State.headerOf (s : State) (x : Inst) (length time : Nat) : List Byte :=
  contextHeader x (((s.task? x.launch x.task).map (·.gw)).getD { }) (((s.launches.find x.launch).map (·.root)).getD 0) length time

/-- The block of a saved tile: the tile header and element blocks, whose inner layout is open and whose bytes are free values; the
token area; and the SRAM footprint (R97). -/
def Context.tileBlock (c : Context) (free k footprint : Nat) : List Byte :=
  let t := c.inst.tileNo k
  let y := (((c.inst.tiles.zip c.tiles).find? (fun z => z.1 = t)).map (·.2)).getD Tile.reset
  let es := blockElems t
  let elem (e : Nat) : Element := (((c.inst.elems.zip c.elements).find? (fun z => z.1 = e)).map (·.2)).getD Element.reset
  (List.range 647168).map (fun n => Config.contextByte free (k * 2 ^ 20 + n)) ++
  (es.flatMap (fun e => (elem e).tokenArea e)).flatMap Placed.bytes ++
  es.flatMap (fun e => ((elem e).reissue.mapIdx (fun i o => o.requestBytes e i)).flatten) ++
  (y.tokenArea t ++ c.inst.leaseArea t).flatMap Placed.bytes ++ bytesAt y.sram 0 (1024 * footprint)

/-- The bytes of a context record (R97). -/
def State.contextRecord (s : State) (c : Context) (free : Nat) : List Byte :=
  let head := s.headerOf c.inst c.length c.time
  let body := (List.range (c.inst.w * c.inst.h)).flatMap (fun k => c.tileBlock free k (footprintOf s c.inst))
  head ++ leBytes 8 (contextCheck (head ++ body)) ++ body

/-- The record of a context is written to its run of the pool. -/
def State.writeContext (s : State) (c : Context) : State :=
  let (free, s) := s.takeFresh
  let bs := s.contextRecord c free
  let pa := s.poolAddr c.inst.part c.unit0
  { s with hbm := putBytes s.hbm pa bs, hbmPoison := unmark s.hbmPoison (wordsOf pa bs.length) }

/-- Whether a run of the pool of a partition lies in a unit under scrub: what the Starter does there waits (R163). -/
def State.poolWaits (s : State) (p u n : Nat) : Bool := (List.range n).any (fun k => s.scrubbing (s.poolAddr p (u + k)))

/-- Whether the record of a context can be read back for an instance: no poison, CHECK, and the header fields of the task (R103). -/
def State.contextReads (s : State) (x : Inst) (c : Context) : Bool :=
  let (bs, poison) := s.readHbm (s.poolAddr x.part c.unit0) c.length
  let head := s.headerOf c.inst c.length c.time
  !c.bad && !poison && bs.take 8 == head.take 8 && (bs.drop 10).take 22 == (head.drop 10).take 22 &&
  fieldOf bs 0x38 8 = contextCheck (bs.take 0x38 ++ bs.drop 0x40)

/-- The tiles whose save fails: the Starter read a word with an uncorrectable error (R95). -/
def State.badTiles (s : State) (x : Inst) : List Nat := x.tiles.filter (fun t => (s.tile t).sweep.any (fun w => !w.poison.isEmpty))

/-- The Starter begins its accesses to the footprint of an instance's tiles (R92, R102). -/
def State.beginSweep (s : State) (x : Inst) (restore : Bool) (from_ : Nat → List Host.Cell × List Nat) : State :=
  x.tiles.foldl (fun (s : State) t => s.modTile t (fun y =>
    { y with sweep := some (Sweep.start restore (footprintOf s x) (from_ t).1 (from_ t).2) })) s

/-- Whether they have begun; and whether they are done. -/
def State.sweeping (s : State) (x : Inst) : Bool := x.tiles.any (fun t => (s.tile t).sweep.isSome)

def State.swept (s : State) (x : Inst) : Bool := x.tiles.all (fun t => (s.tile t).swept)

/-- A run of the pool is free again. -/
def State.freeUnits (s : State) (p u : Nat) : State :=
  s.modPart p (fun p => { p with poolRuns := p.poolRuns.filter (fun r => r.1 ≠ u) })

/-- The instance leaves without a context: its held indices are counted failed, and the task keeps its place and its
unissued indices, unless no region of its shape is left (R34, R95, R98, R106). -/
def State.dropInstance (s : State) (i : Nat) (x : Inst) : State :=
  let farOut := s.hasFarOut x
  let s := x.elems.foldl (fun (s : State) e => (s.saveElem e).2) s
  let s := x.tiles.foldl (fun (s : State) t => s.endFarLogs x t 3) s
  (((s.clearRegion i x).failHeld x.launch x.task x.held).endBoundary i x farOut).failShape x.launch x.task

/-- SAVE_END: the drains are done, the pool takes writes, and the Starter reads the SRAM, a granule at a time; once it has, the record is
written and the region's tiles are unoccupied. -/
def execSaveEnd (s : State) : Res :=
  let i := s.subject.1
  match s.insts.find i with
  | none => .next s
  | some x =>
    if x.phase != .saving || !s.drained i x || x.alloc.any (fun a => s.poolWaits x.part a.1 a.2) then .next s
    else match x.alloc with
      | none => .next (s.dropInstance i x)
      | some (u, units) => match x.stop with
        | .cut true _ => .next ((s.freeUnits x.part u).dropInstance i x)
        | _ =>
          let s := if s.sweeping x then s else s.beginSweep x false (fun _ => ([], []))
          let bad := s.badTiles x
          if !s.swept x then .next s
          else if !bad.isEmpty then .next (bad.foldl State.countUe ((s.freeUnits x.part u).dropInstance i x))
          else
            let (c, s) := s.saveContext x u units
            let (n, s) := s.newId
            let s := ({ s with contexts := s.contexts.put n c }.writeContext c).clearRegion i x
            .next (s.keepInstance x.launch x.task ⟨i, x.num, x.held, n, x.cluster, x.row0, x.col0, c.farOut, x.feed⟩)

/-! ## HOLD_COMPLETE (R230, R232) -/

/-- Whether a single step's firing has written back and all that it started is done, wherever a save or a resume has taken it (R232):
its messages are known by their element. -/
def State.stepDone (s : State) (w : StepWait) : Bool :=
  let mine (n : Nat) : Bool := w.from_ ≤ n && n < w.upTo
  let pending (e : Element) : Bool := e.inflight.any (fun f => mine f.seq) || e.ans.any (fun a => mine a.id) || e.reissue.any (fun o => mine o.id)
  let copies (t : Tile) : Bool := t.copies.any (fun c => mine c.id)
  let sent (from_ : Option Nat) : Bool := from_ = some w.eid
  !(s.elems.any (fun x => pending x.2)) && !(s.contexts.any (fun c => c.2.elements.any pending || c.2.tiles.any copies)) &&
  !(s.ops.any (fun o => mine o.1)) && !(s.tiles.any (fun x => copies x.2)) && !(s.ctrlQ.any (fun r => r.eid = w.eid)) &&
  !(s.podAms.any (fun m => mine m.firing.seq)) && !((s.devAms ++ s.stalled).any (fun m => match m.sender with
    | .element e _ => e = w.eid
    | _ => false)) && !(s.vfs.any (fun v => v.2.out.any (fun o => sent (o.sender.map (·.1)))))

/-- The policy that an item of an element passes: its instance's, else the partition's (R50, R59). -/
def State.readPolicy (s : State) (eid : Nat) : List Byte :=
  match s.instOf eid with
  | some x => x.policy
  | none => ((s.partOfCluster (clusterOf (tileOf eid))).map (fun p => (s.part p).active)).getD []

/-- The COMPLETE of a single step: the slot fired is a result of DBGHOLD and passes the filter as an item of class 12 (R50, R232). -/
def State.answerStep (s : State) (w : StepWait) : State :=
  let r := s.throughFilter (s.partOfCluster (clusterOf (tileOf w.eid))) (s.readPolicy w.eid) 12 [(4, .plain w.slot)]
  r.2.sendAm 511 amCOMPLETE (BitVec.ofNat 32 (leNat (r.1.getD []))) 0 none

/-- HOLD_COMPLETE: a single step in an instance is complete, whether or not the instance is still held; or every element is held:
the BREAK record of DBGHOLD is taken and VF 511 hears COMPLETE. -/
def execHoldComplete (s : State) : Res :=
  let i := s.subject.1
  match s.stepWaits.find? (fun w => w.inst = i && s.stepDone w) with
  | some w => .next ({ s with stepWaits := s.stepWaits.erase w }.answerStep w)
  | none =>
  match s.insts.find i with
  | none => .next s
  | some x =>
    match x.stop with
    | .hold eid brk =>
      if x.holdDone || !s.frozen x || !x.faults.isEmpty then .next s
      else
        let s := s.modInst i (fun x => { x with holdDone := true })
        if brk then .next s
        else
          let s := s.produce i (0, eid) fBREAK 2 none 0 (s.elem eid).headsWord [] 0
          match (s.insts.find i).bind (fun x => x.faults.head?) with
          | none => .next s
          | some f =>
            let s := s.modInst i (fun x => { x with faults := [] })
            .next ((s.takeRecord x.launch x.task f (s.instIds x)).sendAm 511 amCOMPLETE 0 0 none)
    | _ => .next s

end Sys2Proof.Machine
end

