-- ==== Sys2Proof/Machine/Image.lean ====
section
/-! DEFINITION. The configuration image: its fetch (R78), its layout (R252 to R254), and the checks that a commit makes
(R131, R133, R152, R154, R245, R246, R312). -/

namespace Sys2Proof.Machine

/-- A failure found in an image: offset, family, code, the element whose section holds it (its REA), and the slot word (R246). -/
structure ImgFail where
  off : Nat
  family : Nat
  code : Nat
  rea : Option Nat := none
  slot : Option Nat := none
  word : BitVec 128 := 0
deriving DecidableEq, Repr

/-- Codes of the commit family (R220). -/
def cOPCODE : Nat := 1
def cCLASS : Nat := 2
def cRESERVED : Nat := 3
def cOTAGFINISH : Nat := 4
def cROUTE : Nat := 5
def cSHAPE : Nat := 6

/-- A SHAPE failure: its source is the Starter. -/
def shapeFail (off : Nat) : ImgFail := ⟨off, fCOMMIT, cSHAPE, none, none, 0⟩

/-! ## The fetch (R78, R162, R168) -/

/-- A stretch of an image that cannot be fetched: its offset and bytes, and the failure that it is (R246). -/
structure Gap where
  off : Nat
  len : Nat
  fail : ImgFail
deriving DecidableEq, Repr

/-- The poisoned words of n bytes at a home: offset and bytes of each. -/
def State.poisonedAt (s : State) (h : Home) (n : Nat) : List (Nat × Nat) :=
  let parts (pa : Nat) (bad : Nat → Bool) : List (Nat × Nat) :=
    ((wordsOf pa n).filter bad).map (fun w => (w * 8 - pa, min (w * 8 + 8 - pa) n - (w * 8 - pa)))
  match h with
  | .hbm pa => if (s.readHome pa n).2 then parts pa s.hbmPoison.contains else []
  | .remote pkg _ pa _ => match s.starterAnswer pkg pa n with
    | some (.done x) => parts pa (Config.remotePoison x)
    | _ => []
  | _ => []

/-- Whose image it is: the quarter whose walker the relay uses, and the VF (R165). -/
structure Fetcher where
  q : Nat
  v : Nat
deriving DecidableEq, Repr

/-- The bytes of one granule of an image at VA `va`, from a on, with its gaps: a page that fails at its first image byte, a poisoned
word at its own (R78, R165, R246). -/
def State.fetchPart (s : State) (v : Fetcher) (va a n : Nat) : List Byte × List Gap :=
  let lost (start code : Nat) : List Byte × List Gap :=
    (List.replicate n 0, [⟨a - va, n, ⟨start - va, fMEMORY, code, none, none, 0⟩⟩])
  if 2 ^ 49 ≤ a then lost (a - a % 4096) cVARANGE
  else match (s.lookup v.q v.v a).1 with
    | .error c => lost (a - a % 4096) c
    | .ok p => match s.checkLeaf v.v p a .config false with
      | .error c => lost p.start c
      | .ok h => match s.getAt h n with
        | .error c => lost p.start c
        | .ok (bs, _) => (bs, (s.poisonedAt h n).map (fun w =>
            ⟨a + w.1 - va, w.2, ⟨a + w.1 - va, fMEMORY, cREADPOISON, none, none, 0⟩⟩))

/-- n bytes of an image from an offset on; those of a gap are zero. -/
def State.fetchSpan (s : State) (v : Fetcher) (va off n : Nat) : List Byte × List Gap :=
  (granulesOf (va + off) n).foldl (fun (r : List Byte × List Gap) g =>
    let x := s.fetchPart v va g.1 g.2
    (r.1 ++ x.1, r.2 ++ x.2)) ([], [])

/-- The read of an image that the relay waits for: its header, or its LENGTH bytes (R15, R16, R163). -/
def State.imageStop (s : State) (v : Fetcher) (va : Nat) : Option Reach :=
  let span (n : Nat) : Reach := { v := v.v, va, n, want := .config }
  if s.askStops (span 64) then some (span 64)
  else
    let (b, gaps) := s.fetchSpan v va 0 64
    let all := span (fieldOf b 16 4)
    if gaps.isEmpty && s.askStops all then some all else none

/-- The pages of n bytes of an image enter the walk cache of the relay's quarter (R165). -/
def State.relayWalks (s : State) (v : Fetcher) (va n : Nat) : State :=
  (granulesOf va n).foldl (fun (s : State) g => if 2 ^ 49 ≤ g.1 then s else (s.lookup v.q v.v g.1).2) s

/-- Whether n bytes from an offset lie clear of gaps. -/
def clearOf (gaps : List Gap) (off n : Nat) : Bool := gaps.all (fun g => off + n ≤ g.off || g.off + g.len ≤ off)

/-! ## Sections (R253) -/

/-- A section with its place in the image and its gaps. -/
structure Section where
  kind : Nat
  rea : Nat
  off : Nat
  bytes : List Byte
  gaps : List Gap := []
deriving DecidableEq, Repr

/-- Whether n bytes at an offset within a section were fetched. -/
def Section.known (x : Section) (off n : Nat) : Bool := clearOf x.gaps (x.off + off) n

/-- Row, column and element of an REA. -/
def reaRow (r : Nat) : Nat := r / 512 % 8
def reaCol (r : Nat) : Nat := r / 64 % 8

def reaType (r : Nat) : ElemType := typeOfCol (r / 8 % 8)

/-- TYPE of an element section. -/
def typeCode (t : ElemType) : Nat := match t with
  | .ag => 0
  | .pe => 1
  | .se => 2
  | .me => 3

/-- Bytes of an element type's descriptors (R254). -/
def descBytes (t : ElemType) : Nat := match t with
  | .ag => 256
  | .se => 96
  | _ => 0

/-- The length that a section's header calls for. -/
def sectionLength (kind rea nslot ninit : Nat) : Nat :=
  if kind = 1 then 80 else 16 + 16 * nslot + 32 + 64 + descBytes (reaType rea) + 80 * ninit

/-- Whether an REA lies in a region (R253). -/
def reaOk (w h rea : Nat) : Bool := rea < 4096 && reaRow rea < h && reaCol rea < w

/-- The fields of a section header that fail: those behind which the next section cannot be found, and the others. -/
def headerFails (w h : Nat) (prev : Option (Nat × Nat)) (off : Nat) (b : List Byte) : List ImgFail × List ImgFail :=
  let kind := fieldOf b 0 2
  let rea := fieldOf b 2 2
  let up : Bool := match prev with
    | none => true
    | some p => p.1 < kind || (p.1 = kind && p.2 < rea)
  let bad (c : Bool) (o : Nat) : List ImgFail := if c then [shapeFail (off + o)] else []
  let back : Bool := match prev with
    | some p => kind < p.1
    | none => false
  let len := sectionLength kind rea (fieldOf b 9 1) (fieldOf b 10 1)
  let ty := reaType rea
  (bad (kind ≠ 1 && kind ≠ 2) 0 ++ bad (fieldOf b 4 4 ≠ len) 4,
   bad back 0 ++ bad (!reaOk w h rea || !up || (kind = 1 && rea % 64 ≠ 0)) 2 ++
   if kind = 1 then (List.range 8).flatMap (fun i => bad (fieldOf b (8 + i) 1 ≠ 0) (8 + i))
   else bad (fieldOf b 8 1 ≠ typeCode ty) 8 ++ bad (slotCount ty < fieldOf b 9 1) 9 ++
     bad (fieldOf b 12 2 / 2 ^ slotCount ty ≠ 0) 12 ++ bad (fieldOf b 14 2 ≠ 0) 14)

/-- How a walk over an image's sections went: the sections, the failures met, whether every section was found, and, where LENGTH then
fits, the bytes between the last one and LENGTH. -/
structure Walked where
  secs : List Section := []
  fails : List ImgFail := []
  complete : Bool := false
  pad : Option (List Byte) := none

/-- NSEC sections from an offset on (R252, R253); the walk ends where the next section cannot be found. LENGTH is a multiple of 64 and
a section's bytes are a multiple of 16, so fewer than 64 bytes may stand behind the last section; their value is open and HASH covers
them (log 29). -/
def State.walkImage (s : State) (v : Fetcher) (va w h len : Nat) : Nat → Nat → Option (Nat × Nat) → Walked
  | 0, off, _ =>
    if (off + 63) / 64 * 64 ≠ len then { fails := [shapeFail 0x10], complete := true }
    else
      let b := s.fetchSpan v va off (len - off)
      { pad := some b.1, fails := b.2.map (·.fail), complete := true }
  | left + 1, off, prev =>
    if len < off + 16 then { fails := [shapeFail 0x08] }
    else
      let (b, gaps) := s.fetchSpan v va off 16
      let kind := fieldOf b 0 2
      let rea := fieldOf b 2 2
      let (hard, soft) := headerFails w h prev off b
      if !clearOf gaps off 8 then { fails := gaps.map (·.fail) }
      else if !gaps.isEmpty then
        { fails := (hard ++ soft).filter (fun f => f.off < off + 4) ++
            gaps.map (fun g => { g.fail with rea := if kind = 2 then some rea else none }) }
      else if !hard.isEmpty then { fails := hard ++ soft }
      else
        let n := fieldOf b 4 4
        if len < off + n then { fails := shapeFail 0x10 :: soft }
        else
          let (bs, gaps) := s.fetchSpan v va off n
          let r := s.walkImage v va w h len left (off + n) (some (kind, rea))
          { secs := ⟨kind, rea, off, bs, gaps⟩ :: r.secs, fails := soft ++ gaps.map (·.fail) ++ r.fails,
            complete := r.complete, pad := r.pad }

/-! ## Element sections (R254) -/

/-- A set-up block (R312). -/
def streamOfBlock (b : List Byte) : StreamCfg :=
  let w (i : Nat) : Nat := fieldOf b (8 * i) 8
  let i32 (n : Nat) : Int := (BitVec.ofNat 32 n).toInt
  { v := bitsOf (w 0) 63 1 = 1, kind := bitsOf (w 0) 60 3, fmt := bitsOf (w 0) 56 4, rndf := bitsOf (w 0) 54 2,
    start := bitsOf (w 0) 53 1 = 1, base := bitsOf (w 0) 0 49,
    ext := [bitsOf (w 1) 0 16 + 1, bitsOf (w 1) 16 16 + 1, bitsOf (w 1) 32 16 + 1, bitsOf (w 1) 48 16 + 1, bitsOf (w 2) 0 16 + 1],
    stride := [i32 (bitsOf (w 3) 0 32), i32 (bitsOf (w 3) 32 32), i32 (bitsOf (w 4) 0 32), i32 (bitsOf (w 4) 32 32), i32 (bitsOf (w 5) 0 32)],
    seed := BitVec.ofNat 32 (bitsOf (w 2) 32 32), eb := (BitVec.ofNat 12 (bitsOf (w 2) 20 12)).toInt,
    planes := bitsOf (w 5) 32 6, scaleVa := bitsOf (w 6) 0 49, bandVa := bitsOf (w 7) 0 49 }

/-- A set-up block that a commit rejects with RESERVED (R312, R313). -/
def blockReserved (b : List Byte) : Bool :=
  let w (i : Nat) : Nat := fieldOf b (8 * i) 8
  let c := streamOfBlock b
  bitsOf (w 0) 49 4 ≠ 0 || bitsOf (w 2) 16 4 ≠ 0 || bitsOf (w 5) 38 26 ≠ 0 || bitsOf (w 6) 49 15 ≠ 0 || bitsOf (w 7) 49 15 ≠ 0 ||
  (c.start && (c.kind = 1 || c.kind = 4 || c.kind = 5))

/-- A lap-buffer word that a commit rejects (R152). -/
def lapReserved (d : DWord) : Bool :=
  let c := lapCfgOf d
  bitsOf d.toNat 40 23 ≠ 0 || (c.v && (c.nslot = 0 || 131072 < c.base + c.nslot * (c.slotg + 1)))

/-- A hash-table word that a commit rejects (R154). -/
def hashReserved (d : DWord) (routed : Nat → Bool) : Bool :=
  let c := hashCfgOf d
  bitsOf d.toNat 44 19 ≠ 0 || bitsOf d.toNat 17 11 ≠ 0 ||
  (c.v && (c.keyw = 0 || 16 < c.log2n || (c.spen && !routed c.spq) || 2 ^ 23 < c.base * 64 + 2 ^ c.log2n * 8))

/-- An initial token (R254). -/
def initToken (b : List Byte) : Fin 4 × Token :=
  let mask := fieldOf b 64 2
  let lanes := lanesOf (fun l => if mask.testBit l then some (BitVec.ofNat 32 (fieldOf b (4 * l) 4)) else none)
  (Fin.ofNat 4 (fieldOf b 67 1), ⟨lanes, BitVec.ofNat 4 (fieldOf b 66 1), none⟩)

/-- An initial token that a commit rejects with RESERVED (R254). -/
def initReserved (b : List Byte) : Bool :=
  let mask := fieldOf b 64 2
  16 ≤ fieldOf b 66 1 || fieldOf b 66 1 = 15 || 4 ≤ fieldOf b 67 1 || fieldOf b 68 12 ≠ 0 ||
  (List.range 16).any (fun l => !mask.testBit l && fieldOf b (4 * l) 4 ≠ 0)

/-- The offsets within an element section. -/
def Section.nslot (x : Section) : Nat := fieldOf x.bytes 9 1
def Section.ninit (x : Section) : Nat := fieldOf x.bytes 10 1
def Section.constOff (x : Section) : Nat := 16 + 16 * x.nslot
def Section.routeOff (x : Section) : Nat := x.constOff + 32
def Section.descOff (x : Section) : Nat := x.routeOff + 64
def Section.initOff (x : Section) : Nat := x.descOff + descBytes (reaType x.rea)

/-- Numbers of n bytes each at an offset. -/
def Section.words (x : Section) (off n count : Nat) : List Nat := (List.range count).map (fun i => fieldOf x.bytes (off + n * i) n)

def Section.initBytes (x : Section) (i : Nat) : List Byte := (x.bytes.drop (x.initOff + 80 * i)).take 80

def Section.blockBytes (x : Section) (i : Nat) : List Byte := (x.bytes.drop (x.descOff + 64 * i)).take 64

/-- The bank of an element section (R254). -/
def Section.bank (x : Section) : Bank :=
  let ty := reaType x.rea
  let pad {α : Type} (l : List α) (n : Nat) (d : α) : List α := l ++ List.replicate (n - l.length) d
  { slots := pad ((x.words 16 16 x.nslot).map (BitVec.ofNat 128)) 16 0,
    consts := (x.words x.constOff 4 8).map (BitVec.ofNat 32),
    routes := (x.words x.routeOff 4 16).map (BitVec.ofNat 32),
    streams := if ty = .ag then (List.range 4).map (fun i => streamOfBlock (x.blockBytes i)) else List.replicate 4 { },
    lapCfg := if ty = .se then (x.words x.descOff 8 8).map (BitVec.ofNat 64) else List.replicate 8 0,
    hashCfg := if ty = .se then (x.words (x.descOff + 64) 8 4).map (BitVec.ofNat 64) else List.replicate 4 0,
    initTokens := (List.range x.ninit).map (fun i => initToken (x.initBytes i)),
    initPred := BitVec.ofNat 8 (fieldOf x.bytes 11 1), initEn := BitVec.ofNat 16 (fieldOf x.bytes 12 2), hasSection := true }

/-- The endpoint descriptors of a tile section. -/
def Section.endpoints (x : Section) : List (BitVec 32) := (x.words 16 4 16).map (BitVec.ofNat 32)

/-! ## Feeders and far channels (R131, R133) -/

/-- Where an image is to run: the region, and the tiles of its partition. -/
structure Place where
  cluster : Nat
  row0 : Nat
  col0 : Nat
  w : Nat
  h : Nat
  part : Nat
deriving DecidableEq, Repr

/-- The element of an REA in a region. -/
def Place.eid (p : Place) (rea : Nat) : Nat := tileAt p.cluster (p.row0 + reaRow rea) (p.col0 + reaCol rea) * 64 + rea % 64

def Place.tile (p : Place) (rea : Nat) : Nat := p.eid rea / 64

/-- One feeder: the queue (element, queue), where in the image, and the section's element. -/
structure Feeder where
  eid : Nat
  q : Nat
  off : Nat
  rea : Option Nat
deriving DecidableEq, Repr

/-- The valid route entries of a section with their offsets. -/
def Section.routes (x : Section) : List (Nat × BitVec 32) :=
  (((x.words x.routeOff 4 16).mapIdx (fun i r => (x.off + x.routeOff + 4 * i, BitVec.ofNat 32 r))).filter (fun r => r.2.getLsbD 31))

/-- The feeders that a section gives: endpoints of a tile section, local routes of an element section. A section out of the region
feeds nothing of it. -/
def Section.feeders (x : Section) (p : Place) : List Feeder :=
  let t := p.tile x.rea
  if !reaOk p.w p.h x.rea then []
  else if x.kind = 1 then
    (x.endpoints.mapIdx (fun i d => (i, d))).filterMap (fun y =>
      (endpointDest t y.2).map (fun d => ⟨d.1, d.2, x.off + 16 + 4 * y.1, none⟩))
  else (x.routes.filter (fun r => !routeFar r.2)).map (fun r =>
    let d := localDest t r.2
    ⟨d.1, d.2, r.1, some x.rea⟩)

/-- The far entries of a section: destination tile and channel, offset, REA. -/
def Section.fars (x : Section) (p : Place) : List ((Nat × Nat) × Nat × Nat) :=
  if x.kind = 1 || !reaOk p.w p.h x.rea then []
  else (x.routes.filter (fun r => routeFar r.2)).map (fun r => (farDestOf p.cluster p.row0 p.col0 r.2, r.1, x.rea))

/-- Entries that come behind another with the same key. -/
def repeats {α κ : Type} [DecidableEq κ] (key : α → κ) : List κ → List α → List α
  | _, [] => []
  | seen, a :: l => if seen.contains (key a) then a :: repeats key seen l else repeats key (key a :: seen) l

/-- A route entry, valid or not, with a reserved bit set (R132, R133). -/
def routeReserved (r : BitVec 32) : Bool :=
  if !routeFar r then r.extractLsb' 8 22 ≠ 0
  else r.extractLsb' 20 9 ≠ 0 || r.extractLsb' 10 6 ≠ 0 || (!r.getLsbD 29 && r.extractLsb' 6 4 ≠ 0)

/-- A route entry with a reserved bit, or a valid one whose destination R133 excludes. -/
def routeBad (s : State) (p : Place) (rea : Nat) (r : BitVec 32) : Bool :=
  let d := (farDestOf p.cluster p.row0 p.col0 r).1
  routeReserved r || (r.getLsbD 31 && routeFar r && (d = p.tile rea ||
    (if r.getLsbD 29 then !tileOk d || s.partOfCluster (clusterOf d) ≠ some p.part
     else p.h ≤ (r.extractLsb' 3 3).toNat || p.w ≤ (r.extractLsb' 0 3).toNat)))

/-! ## The checks of an element section (R245, R246) -/

/-- The code of R245 for a slot word, checks 1 to 5. -/
def slotCode (ty : ElemType) (w : BitVec 128) : Option Nat :=
  match checkSlotWord (some ty) w with
  | .ok _ => none
  | .error .empty => none
  | .error .opcode => some cOPCODE
  | .error .cls => some cCLASS
  | .error .otagFinish => some cOTAGFINISH
  | .error _ => some cRESERVED

/-- Check 6: the output queues named are routed, the input queues named are fed or hold an initial token. -/
def slotRouted (w : BitVec 128) (routed fed : Nat → Bool) : Bool :=
  match (decodeSlot w).toOption.bind opcodeOf with
  | none => true
  | some (_, x) =>
    let out (d : Dst) : Bool := match d.outQueue with
      | some q => routed q.val
      | none => true
    let inp (c : Src) : Bool := match c.headQueue with
      | some q => fed q.val
      | none => true
    let test (t : Option InputTest) : Bool := match t with
      | some t => fed t.q.val
      | none => true
    out x.da && out x.db && inp x.sa && inp x.sb && inp x.sc && test x.test0 && test x.test1 &&
    (List.range 4).all (fun q => !x.deq.getLsbD q || fed q)

/-- An ALOOP that uses a constant of zero as an extent (R275). -/
def aloopZero (word : BitVec 128) (c : Nat → Nat) : Bool :=
  match decodeSlot word with
  | .ok (.aloop w) => (List.range (w.imm.toNat % 4 + 1)).any (fun k => c k = 0)
  | _ => false

/-- Constant k of an element section. -/
def Section.constant (x : Section) (k : Nat) : Nat := fieldOf x.bytes (x.constOff + 4 * k) 4

/-- The failures of an element section, of the words that were fetched. What would show one harmless and was not fetched does not
show it. -/
def Section.fails (s : State) (p : Place) (fed : Nat → Bool) (x : Section) : List ImgFail :=
  let ty := reaType x.rea
  let fail (off code : Nat) : ImgFail := ⟨x.off + off, fCOMMIT, code, some x.rea, none, 0⟩
  let routed (q : Nat) : Bool := !x.known (x.routeOff + 16 * q) 16 ||
    (List.range 4).any (fun j => (fieldOf x.bytes (x.routeOff + 4 * (4 * q + j)) 4).testBit 31)
  let slots := ((x.words 16 16 x.nslot).mapIdx (fun i n => (i, BitVec.ofNat 128 n))).filter (fun y => x.known (16 + 16 * y.1) 16)
  let slotFails := slots.filterMap (fun y =>
    let code := match slotCode ty y.2 with
      | some c => some c
      | none => if x.known x.constOff 32 && aloopZero y.2 x.constant then some cRESERVED
        else if y.2.getLsbD 127 && !slotRouted y.2 routed fed then some cROUTE else none
    code.map (fun c => { fail (16 + 16 * y.1) c with slot := some y.1, word := y.2 }))
  let routeFails := (List.range 16).filterMap (fun i =>
    let r := BitVec.ofNat 32 (fieldOf x.bytes (x.routeOff + 4 * i) 4)
    if x.known (x.routeOff + 4 * i) 4 && routeBad s p x.rea r then some (fail (x.routeOff + 4 * i) cROUTE) else none)
  let descFails := match ty with
    | .ag => (List.range 4).filterMap (fun i =>
        if x.known (x.descOff + 64 * i) 64 && blockReserved (x.blockBytes i) then some (fail (x.descOff + 64 * i) cRESERVED) else none)
    | .se => (List.range 12).filterMap (fun i =>
        let d := BitVec.ofNat 64 (fieldOf x.bytes (x.descOff + 8 * i) 8)
        if x.known (x.descOff + 8 * i) 8 && (if i < 8 then lapReserved d else hashReserved d routed) then some (fail (x.descOff + 8 * i) cRESERVED) else none)
    | _ => []
  let initFails := ((List.range x.ninit).filter (fun i => x.known (x.initOff + 80 * i) 80)).filterMap (fun i =>
    let q := (initToken (x.initBytes i)).1
    let before := ((List.range i).filter (fun j => (initToken (x.initBytes j)).1 = q)).length
    if initReserved (x.initBytes i) then some (fail (x.initOff + 80 * i) cRESERVED)
    else if 4 ≤ before then some (fail (x.initOff + 80 * i) cROUTE) else none)
  slotFails ++ routeFails ++ descFails ++ initFails

/-- The failures of a tile section's descriptors (R254). -/
def Section.descriptorFails (x : Section) : List ImgFail :=
  ((x.endpoints.mapIdx (fun i d => (i, d))).filter (fun y => x.known (16 + 4 * y.1) 4)).filterMap (fun y =>
    if y.2.extractLsb' 8 23 ≠ 0 || (!y.2.getLsbD 31 && y.2 ≠ 0) then some (shapeFail (x.off + 16 + 4 * y.1)) else none)

/-! ## The image -/

/-- A configuration as a region takes it. -/
structure Image where
  hash : BitVec 256
  baton : Option (Nat × Fin 4)
  lease : Option (Nat × Fin 4)
  banks : List (Nat × Bank)
  endpoints : List (Nat × List (BitVec 32))
  length : Nat
deriving DecidableEq, Repr

/-- BATON or LEASEP: the REA and queue, where it is valid (R252). -/
def portOf (n : Nat) : Option (Nat × Fin 4) := if n.testBit 31 then some (n % 65536, Fin.ofNat 4 (bitsOf n 16 2)) else none

/-- The failure at the lowest offset; of two at one offset the first of the list. -/
def lowest (l : List ImgFail) : Option ImgFail :=
  l.foldl (fun (m : Option ImgFail) f => match m with
    | none => some f
    | some g => if f.off < g.off then some f else some g) none

/-- The element whose section holds an offset (R246). -/
def sectionAt (secs : List Section) (off : Nat) : Option Nat :=
  (secs.find? (fun x => x.kind = 2 && x.off ≤ off && off < x.off + x.bytes.length)).map (·.rea)

/-- The failures of the header's own fields (R252), of those that were fetched. -/
def headFails (b : List Byte) (gaps : List Gap) (gw : GraphWord) : List ImgFail :=
  let bad (c : Bool) (o : Nat) : List ImgFail := if c && clearOf gaps o 1 then [shapeFail o] else []
  let port (o : Nat) : Bool :=
    let n := fieldOf b o 4
    bitsOf n 18 13 ≠ 0 || (n.testBit 31 && !reaOk gw.w gw.h (n % 65536))
  bad (fieldOf b 0 4 ≠ 0x31474643) 0 ++ bad (fieldOf b 4 2 ≠ 1) 4 ++ bad (fieldOf b 6 1 ≠ gw.w + 8 * gw.h) 6 ++
  bad (fieldOf b 7 1 ≠ 0) 7 ++ bad (fieldOf b 10 2 < 1 || 2304 < fieldOf b 10 2) 10 ++
  bad (fieldOf b 16 4 % 64 ≠ 0 || fieldOf b 16 4 < 64) 16 ++ bad (port 0x14 || ((portOf (fieldOf b 0x14 4)).isNone && gw.ttCount ≠ 0)) 0x14 ++
  bad (port 0x18) 0x18 ++ bad (fieldOf b 0x1C 4 ≠ 0) 0x1C

/-- Where NELEM is not the number of element sections, whatever the sections are that were not found. -/
def countFails (b : List Byte) (secs : List Section) : List ImgFail :=
  let n := (secs.filter (fun x => x.kind = 2)).length
  if fieldOf b 10 2 < n || n + (fieldOf b 8 2 - secs.length) < fieldOf b 10 2 then [shapeFail 10] else []

/-- The failures of the feeders and far channels of a whole image (R131, R133, R252); `ports` are the queues that handler ports feed
(R36). -/
def feederFails (p : Place) (b : List Byte) (secs : List Section) (ports : List (Nat × Nat)) : List ImgFail :=
  let fs := secs.flatMap (·.feeders p)
  let baton := (portOf (fieldOf b 0x14 4)).map (fun x => (p.eid x.1, x.2.val))
  let lease := (portOf (fieldOf b 0x18 4)).map (fun x => (p.eid x.1, x.2.val))
  let fed (q : Option (Nat × Nat)) : Bool := match q with
    | some q => ports.contains q || fs.any (fun f => f.eid = q.1 && f.q = q.2)
    | none => false
  (if fed baton then [shapeFail 0x14] else []) ++
  (if fed lease || (lease.isSome && lease == baton) then [shapeFail 0x18] else []) ++
  (repeats (fun (f : Feeder) => (f.eid, f.q)) ports fs).map (fun f => ⟨f.off, fCOMMIT, cROUTE, f.rea, none, 0⟩) ++
  (repeats (fun (f : (Nat × Nat) × Nat × Nat) => f.1) [] (secs.flatMap (·.fars p))).map (fun f =>
    ⟨f.2.1, fCOMMIT, cROUTE, some f.2.2, none, 0⟩)

/-- The HASH of a header as a number. -/
def headHash (b : List Byte) : BitVec 256 := BitVec.ofNat 256 (fieldOf b 0x20 32)

/-- Whether every entry of an image that may feed a queue of a section's tile was fetched. Such an entry stands in a section of that
tile; these were all found where all sections were, or where the walk has come to a later tile, and their routes and endpoints have
no gap. -/
def Walked.feedsKnown (r : Walked) (x : Section) : Bool :=
  (r.complete || r.secs.any (fun y => y.kind = 2 && x.rea / 64 < y.rea / 64)) &&
  (r.secs.filter (fun y => y.rea / 64 = x.rea / 64)).all (fun y => if y.kind = 1 then y.known 16 64 else y.known y.routeOff 64)

/-- The image that a region fetches, or the one failure that the relay reports: the one at the lowest offset (R78, R245, R246).
`ports` are the handler ports of the baton element (R36). -/
def State.fetchImage (s : State) (v : Fetcher) (gw : GraphWord) (p : Place) (ports : List Nat) : Except ImgFail Image :=
  let va := gw.configVa
  let (b, gaps) := s.fetchSpan v va 0 64
  let len := fieldOf b 16 4
  let r : Walked := if clearOf gaps 8 12 then s.walkImage v va gw.w gw.h len (fieldOf b 8 2) 64 none else { }
  let secs := r.secs
  let baton := portOf (fieldOf b 0x14 4)
  let lease := portOf (fieldOf b 0x18 4)
  let handlers := match baton with
    | some y => ports.map (fun q => (p.eid y.1, q))
    | none => []
  let fs := secs.flatMap (·.feeders p)
  let fed (x : Section) (q : Nat) : Bool :=
    let eid := p.eid x.rea
    let port (o : Option (Nat × Fin 4)) : Bool := match o with
      | some y => y.1 = x.rea && y.2.val = q
      | none => false
    fs.any (fun f => f.eid = eid && f.q = q) || port baton || port lease || handlers.contains (eid, q) ||
    (List.range x.ninit).any (fun i => (initToken (x.initBytes i)).1.val = q) ||
    !r.feedsKnown x || !clearOf gaps 0x14 8 || !x.known x.initOff (80 * x.ninit)
  let fails := headFails b gaps gw ++ gaps.map (·.fail) ++ (if clearOf gaps 8 12 then countFails b secs else []) ++ r.fails ++
    feederFails p b secs handlers.dedup ++ secs.flatMap (fun x => if x.kind = 1 then x.descriptorFails else x.fails s p (fed x))
  match lowest fails with
  | some f => .error { f with rea := if f.family = fMEMORY then f.rea.or (sectionAt secs f.off) else f.rea }
  | none =>
    if leBytes 32 (headHash b).toNat ≠ sha256 ((secs.map (·.bytes)).flatten ++ r.pad.getD []) then .error (shapeFail len)
    else .ok {
      hash := headHash b, baton, lease, length := len,
      banks := (secs.filter (fun x => x.kind = 2)).map (fun x => (p.eid x.rea, x.bank)),
      endpoints := (secs.filter (fun x => x.kind = 1)).map (fun x => (p.tile x.rea, x.endpoints)) }

end Sys2Proof.Machine
end

