-- ==== Sys2Proof/Machine/Binding.lean ====
section
/-! DEFINITION. The binding decision (R70 to R73), relay and commit (R74, R78 to R82, R126, R255), resume (R101 to R103), and
batons and their accounting (R75, R76). -/

namespace Sys2Proof.Machine

/-! ## Free tiles and regions (R70, R71, R73) -/

/-- The task that a tile is reserved for, and its level. -/
def State.reservedFor (s : State) (t : Nat) : Option (Nat × Nat × Nat) :=
  s.launches.findSome? (fun x =>
    (x.2.tasks.mapIdx (fun k y => (k, y))).findSome? (fun y =>
      if y.2.reserved.contains t then some (x.1, y.1, y.2.level) else none))

/-- Whether an instance's tiles count as free: FINISH has been injected into it (R70, R77). One that is bound again counts
from its commit on. -/
def Inst.leaving (x : Inst) : Bool := x.finInjected && (x.phase == .teardown || x.phase == .saving)

/-- Whether a tile counts as free for a task (R70). -/
def State.freeTile (s : State) (l k t : Nat) : Bool :=
  match s.reservedFor t with
  | some (l', k', _) => l' = l && k' = k
  | none => (s.holders t).all (·.2.leaving)

/-- The tiles of a rectangle. -/
def rectTiles (o : Nat × Nat × Nat) (w h : Nat) : List Nat :=
  (List.range (w * h)).map (fun i => tileAt o.1 (o.2.1 + i / w) (o.2.2 + i % w))

/-- The first rectangle of a list all of whose tiles are free. -/
def State.freeIn (s : State) (l k w h : Nat) (rects : List (Nat × Nat × Nat)) : Option (Nat × Nat × Nat) :=
  rects.find? (fun o => (rectTiles o w h).all (s.freeTile l k))

/-- The first rectangle of free tiles (R71). -/
def State.freeFit (s : State) (l k p w h : Nat) : Option (Nat × Nat × Nat) := s.freeIn l k w h (s.rects p w h)

/-- The walker of the Starter that binds the tasks of a VF. -/
def State.binder (s : State) (v : Nat) : Fetcher := ⟨s.homeOf (s.vf v).part.toNat, v⟩

/-- The image hash that a task's header names. -/
def State.imageHash (s : State) (v : Nat) (gw : GraphWord) : Option (BitVec 256) :=
  match s.fetchSpan (s.binder v) gw.configVa 0 64 with
  | (b, []) => if fieldOf b 6 1 = gw.w + 8 * gw.h then some (headHash b) else none
  | _ => none

/-- Whether a tile is unoccupied, powered, and retains an image at a relative position. -/
def State.retains (s : State) (l k t row col : Nat) (hash : BitVec 256) : Bool :=
  let x := s.tile t
  s.freeTile l k t && (s.holders t).isEmpty && x.gate == .powered && (match x.retained with
    | some r => r.hash == hash && r.row = row && r.col = col
    | none => false)

/-- The first region of a list that retains the task's image. -/
def State.residentIn (s : State) (l k v : Nat) (gw : GraphWord) (rects : List (Nat × Nat × Nat)) : Option (Nat × Nat × Nat) :=
  match s.imageHash v gw with
  | none => none
  | some hash => rects.find? (fun o =>
      (List.range (gw.w * gw.h)).all (fun i =>
        s.retains l k (tileAt o.1 (o.2.1 + i / gw.w) (o.2.2 + i % gw.w)) (i / gw.w) (i % gw.w) hash))

/-- A region that retains the task's image (R73). -/
def State.residentMatch (s : State) (l k v p : Nat) (gw : GraphWord) : Option (Nat × Nat × Nat) :=
  s.residentIn l k v gw (s.rects p gw.w gw.h)

/-! ## Victims (R72) -/

/-- Whether an instance may be displaced at a level (R69, R72); one that is frozen by a fault is not (DESIGN CHOICE: log 108). -/
def State.mayDisplace (s : State) (x : Inst) (level : Nat) : Bool :=
  let minres := (s.part x.part).minres.toNat * 1000
  x.level < level && !x.faulted &&
  (level = 7 || x.yielded || minres = 0 || (x.phase != .relay && x.phase != .staged && x.phase != .commit && minres ≤ s.now - x.commitTime))

/-- What a task would displace on a tile: instances by name, and reservations by launch and task; none where the tile cannot
be taken. -/
def State.displaced (s : State) (l k level t : Nat) : Option (List ((Nat × Nat × Nat) × Nat)) :=
  if s.freeTile l k t then some []
  else match s.reservedFor t with
    | some (l', k', lev) => if lev < level then some [((1, l', k'), lev)] else none
    | none =>
      let hs := (s.holders t).filter (!·.2.leaving)
      if hs.all (fun x => s.mayDisplace x.2 level) then some (hs.map (fun x => ((0, x.1, 0), x.2.level))) else none

/-- Everything that a rectangle displaces, each once. -/
def State.displacedBy (s : State) (l k level : Nat) (tiles : List Nat) : Option (List ((Nat × Nat × Nat) × Nat)) :=
  tiles.foldl (fun (acc : Option (List ((Nat × Nat × Nat) × Nat))) t =>
    match acc, s.displaced l k level t with
    | some a, some b => some (a ++ b.filter (fun x => !a.contains x))
    | _, _ => none) (some [])

/-- The keys of a choice: the highest level displaced, then how many. -/
def displaceKey (d : List ((Nat × Nat × Nat) × Nat)) : Nat × Nat := (d.foldl (fun m x => max m x.2) 0, d.length)

/-- The rectangle of a list that victim_fit picks, with what it displaces (R72). -/
def State.victimRect (s : State) (l k level w h : Nat) (rects : List (Nat × Nat × Nat)) :
    Option ((Nat × Nat × Nat) × List ((Nat × Nat × Nat) × Nat)) :=
  rects.foldl (fun (best : Option ((Nat × Nat × Nat) × List ((Nat × Nat × Nat) × Nat))) o =>
    match s.displacedBy l k level (rectTiles o w h), best with
    | none, b => b
    | some d, none => some (o, d)
    | some d, some b =>
      let x := displaceKey d
      let y := displaceKey b.2
      if x.1 < y.1 || (x.1 = y.1 && x.2 < y.2) then some (o, d) else some b) none

/-- victim_fit starts the pre-emptions and reserves the rectangle (R72, R88). -/
def State.victimFit (s : State) (l k level p w h : Nat) (rects : List (Nat × Nat × Nat)) : State :=
  match s.victimRect l k level w h rects with
  | none => s
  | some (o, d) =>
    let s := d.foldl (fun (s : State) x =>
      if x.1.1 = 1 then (s.modTask x.1.2.1 x.1.2.2 (fun t => { t with reserved := [] })).decide p
      else
        let cut := ((s.insts.find x.1.2.1).bind (fun i => (s.task? i.launch i.task).map (·.gw.cutOk))).getD false
        s.preempt x.1.2.1 (if cut then .cut false false else .boundary)) s
    (s.lapse l k).modTask l k (fun t => { t with reserved := rectTiles o w h })

/-! ## Binding (R70, R74, R79) -/

/-- The lowest instance number that no bound or pre-empted instance holds (R74). -/
def State.freeNumber (s : State) (l k : Nat) (t : Task) : Option Nat :=
  (List.range t.gw.instances).find? (fun n =>
    !((s.instsOf l k).any (fun x => x.2.num = n)) && !(t.pre.any (·.num = n)))

/-- A tile bound to is ungated (R124). -/
def State.ungate (s : State) (t : Nat) : State :=
  s.modTile t (fun x => match x.gate with
    | .gated => { x with gate := .ungating (s.now + 20000) }
    | .closing => { x with gate := .powered }
    | _ => x)

/-- An instance that has just been bound. -/
def freshInst (l k num : Nat) (x : Launch) (t : Task) (o : Nat × Nat × Nat) : Inst :=
  { launch := l, task := k, num, vf := x.vf, part := x.part, cluster := o.1, row0 := o.2.1, col0 := o.2.2, w := t.gw.w, h := t.gw.h,
    phase := .relay, level := t.level, held := [], feed := [], commitTime := 0, yielded := false, minresTaken := false, gen := 0,
    baton := none, leasePort := none, hash := 0, ctx := none, again := false, stop := .none, boundary := false, waiting := none,
    holdDone := false, faulted := false, releaseAsked := false, releasing := false, finInjected := false, waveLeft := [],
    alloc := none, bucket := 0, watchdog := 0, fired := false, leaseBuf := [], ended := [], tdones := [], faults := [], policy := [] }

/-- The ports of an instance from an image's, given as REA and queue. -/
def Place.port (p : Place) (x : Option (Nat × Fin 4)) : Option (Nat × Fin 4) := x.map (fun y => (p.eid y.1, y.2))

def Inst.place (x : Inst) : Place := ⟨x.cluster, x.row0, x.col0, x.w, x.h, x.part⟩

/-- An instance whose image is resident is STAGED at once, with the retained ports (R73, R79). -/
def Inst.stageResident (x : Inst) (t : Tile) : Inst :=
  match t.retained with
  | none => x
  | some r => { x with phase := .staged, hash := r.hash, baton := x.place.port r.baton, leasePort := x.place.port r.lease }

/-- The instance of a bind: a new one, or a pre-empted one again. -/
def State.bindInst (s : State) (l k num : Nat) (x : Launch) (t : Task) (o : Nat × Nat × Nat) (p : Option Preempted)
    (resident : Bool) : Inst :=
  let i := { freshInst l k num x t o with again := p.isSome, pinned := p.any (·.farOut), policy := (s.part x.part).active }
  match p with
  | some p => if p.ctx = 0 then (if resident then i.stageResident (s.tile (tileAt o.1 o.2.1 o.2.2)) else i)
      else { i with held := p.held, feed := p.feed, ctx := some p.ctx, gone := ((s.contexts.find p.ctx).map (·.inst.gone)).getD [] }
  | none => if resident then i.stageResident (s.tile (tileAt o.1 o.2.1 o.2.2)) else i

/-- What a bind to a region leaves of a task's reservation: it lapses when the task leaves the ready list (R72). -/
def State.keepReserved (s : State) (l k : Nat) (tiles : List Nat) : State :=
  let s := s.modTask l k (fun t => { t with reserved := t.reserved.filter (fun y => !tiles.contains y) })
  if (s.task? l k).any (·.ready) then s else s.lapse l k

/-- Whether a task stays in the ready list: an instance of it remains to be bound, with an index for it (R71). -/
def State.stillReady (s : State) (l k : Nat) (t : Task) : Bool :=
  !t.pre.isEmpty || ((s.instsOf l k).length < t.gw.instances && ((s.freeNumber l k t).map t.unissued).getD 0 ≠ 0)

/-- A task whose last index was issued, or whose last instance was bound, leaves the ready list, and its reservation lapses (R71,
R72). -/
def State.settleReady (s : State) (l k : Nat) : State :=
  let s := s.pruneTask l k
  if (s.task? l k).all (fun t => !t.ready || s.stillReady l k t) then s
  else (s.modTask l k (fun t => { t with ready := false })).lapse l k

/-- BIND (R71, R76, R79, R214): the region is the task's; the first bind writes RUNNING and clears the statistics record. -/
def State.bind (s : State) (l k num : Nat) (x : Launch) (t : Task) (o : Nat × Nat × Nat) (p : Option Preempted)
    (resident : Bool) : State :=
  let inst := s.bindInst l k num x t o p resident
  let (id, s) := match p with
    | some p => (p.id, s)
    | none => s.newId
  let s := { s with insts := s.insts.put id inst }
  let s := inst.tiles.foldl State.ungate s
  let first := !t.bound
  let s := s.modTask l k (fun t =>
    { t with
      bound := true, start := if first then s.now else t.start,
      pre := match p with
        | some p => t.pre.filter (fun q => q.id ≠ p.id)
        | none => t.pre })
  let s := s.modTask l k (fun t => { t with ready := s.stillReady l k t })
  let s := s.keepReserved l k inst.region
  let s := if first then
      ((s.modTask l k (fun t => { t with status := .running })).writeObject l k).clearStats l k
    else match s.task? l k with
      | some t => if t.status == .preempted && t.pre.isEmpty then (s.modTask l k (fun t => { t with status := .running })).writeObject l k
          else s
      | none => s
  s.schedInst .bind inst

/-- Whether an instance is being cut, or is to be. -/
def Inst.cutComes (x : Inst) : Bool :=
  x.phase == .saving || (x.stop matches .cut _ _) || (x.waiting matches some (.cut _ _))

/-- The pre-empted instance to bind next (R101, R102): of an ORDERED task the one with the lowest held index, once every one
before it has committed; one that is still being cut keeps its place. -/
def State.nextPre (s : State) (l k : Nat) (t : Task) : Option Preempted :=
  if t.gw.ordered then
    let next := t.pre.foldl (fun (m : Option Preempted) p => match m with
      | none => some p
      | some q => if lowestHeld p.held < lowestHeld q.held then some p else some q) none
    next.filter (fun p => !((s.instsOf l k).any (fun x =>
      (x.2.again && (x.2.phase == .relay || x.2.phase == .staged || x.2.phase == .commit)) ||
      (x.2.cutComes && lowestHeld x.2.held < lowestHeld p.held))))
  else t.pre.head?

/-- The place where alone a pre-empted instance resumes: it has a far channel that leaves it (R102). -/
def pinnedAt (p : Option Preempted) : Option (Nat × Nat × Nat) :=
  p.bind (fun p => if p.farOut then some (p.cluster, p.row0, p.col0) else none)

/-- The rectangles that an instance may take. -/
def State.places (s : State) (p w h : Nat) (pin : Option (Nat × Nat × Nat)) : List (Nat × Nat × Nat) :=
  match pin with
  | none => s.rects p w h
  | some o => (s.rects p w h).filter (· = o)

/-- The region for an instance: resident, free, or none (R71); one with a far channel that leaves it needs its former place
(R102). -/
def State.placeFor (s : State) (l k : Nat) (x : Launch) (t : Task) (p : Option Preempted) : Option ((Nat × Nat × Nat) × Bool) :=
  match pinnedAt p with
  | some o =>
    match (if p.any (·.ctx ≠ 0) then none else s.residentIn l k x.vf t.gw (s.places x.part t.gw.w t.gw.h (some o))) with
    | some o => some (o, true)
    | none => (s.freeIn l k t.gw.w t.gw.h (s.places x.part t.gw.w t.gw.h (some o))).map (fun o => (o, false))
  | none =>
    match (if p.any (·.ctx ≠ 0) then none else s.residentMatch l k x.vf x.part t.gw) with
    | some o => some (o, true)
    | none => (s.freeFit l k x.part t.gw.w t.gw.h).map (fun o => (o, false))

/-- Whether a reserved place is pending: an instance that it displaced still holds a tile of it (R71). -/
def State.placePending (s : State) (o : Nat × Nat × Nat) (w h : Nat) : Bool :=
  (rectTiles o w h).any (fun t => !(s.holders t).all (·.2.leaving))

/-- The inner loop of R71 for one task. A task whose reservation is pending finds its place in it and binds nothing until the last of
the displaced instances has left. -/
def State.bindTask (s : State) (l k : Nat) : Nat → State
  | 0 => s
  | fuel + 1 =>
    match s.launches.find l, s.task? l k with
    | some x, some t =>
      if !t.ready || t.final then s
      else
        let p := s.nextPre l k t
        let num := match p with
          | some p => some p.num
          | none => s.freeNumber l k t
        let due : Bool := match p, num with
          | some _, _ => true
          | none, some n => t.pre.isEmpty && t.unissued n ≠ 0
          | none, none => false
        if !due then s
        else match s.placeFor l k x t p with
          | some (o, resident) =>
            if s.placePending o t.gw.w t.gw.h then s else (s.bind l k (num.getD 0) x t o p resident).bindTask l k fuel
          | none => s.victimFit l k t.level x.part t.gw.w t.gw.h (s.places x.part t.gw.w t.gw.h (pinnedAt p))
    | _, _ => s

/-- The ready tasks of a partition, in the order of the decision (R68, R71). -/
def State.readyList (s : State) (p : Nat) : List (Nat × Nat) :=
  let all := s.launches.flatMap (fun x =>
    if x.2.part ≠ p || !x.2.walked || x.2.stopped then []
    else ((x.2.tasks.mapIdx (fun k t => (k, t))).filter (fun y => y.2.ready && !y.2.final && y.2.gw.ttCount ≠ 0)).map (fun y => (x.1, y.1, y.2)))
  let before (a b : Nat × Nat × Task) : Bool :=
    b.2.2.level < a.2.2.level || (a.2.2.level = b.2.2.level && a.2.2.readySeq ≤ b.2.2.readySeq)
  (all.insertionSort (fun a b => before a b = true)).map (fun x => (x.1, x.2.1))

/-- The read of an image's header that a decision waits for: of a task in the ready list (R73, R163). -/
def State.bindStop (s : State) (p : Nat) : Option Reach :=
  (s.readyList p).findSome? (fun y => match s.launches.find y.1, s.task? y.1 y.2 with
    | some x, some t =>
      let a : Reach := { v := x.vf, va := t.gw.configVa, n := 64, want := .config }
      if t.gw.ttCount ≠ 0 && s.askStops a then some a else none
    | _, _ => none)

/-- BINDING_DECISION (R71): once the headers that it looks at can be read. -/
def execBindingDecision (p : Nat) (s : State) : Res :=
  if !(s.part p).decide_ then .next s
  else match s.bindStop p with
  | some a => .next (s.ask (.bind p) a)
  | none =>
    let s := s.modPart p (fun x => { x with decide_ := false })
    let s := (s.readyList p).foldl (fun (s : State) y => s.pruneTask y.1 y.2) s
    .next ((s.readyList p).foldl (fun (s : State) y => s.bindTask y.1 y.2 32) s)

/-- MINRES_REACHED (R69, R71): the residency of an instance reaches MINRES. -/
def execMinresReached (s : State) : Res :=
  let i := s.subject.1
  match s.insts.find i with
  | none => .next s
  | some x =>
    let minres := (s.part x.part).minres.toNat * 1000
    .next (if x.phase == .run && !x.minresTaken && x.commitTime + minres ≤ s.now then
      (s.modInst i (fun x => { x with minresTaken := true })).decide x.part else s)

/-! ## Relay (R78 to R81) -/

/-- Whether every element of a region is unoccupied. -/
def State.regionClear (s : State) (x : Inst) : Bool := x.elems.all (fun e => (s.elem e).state == .unoccupied && (s.elem e).inst.isNone)

/-- The handler ports of a task's partition that a baton element would have (R36). -/
def State.portsOf (s : State) (x : Inst) (gw : GraphWord) : List Nat :=
  ((s.part x.part).handlers.filter (fun h => h.hen && h.task.toNat = gw.taskId)).map (fun h => h.port.toNat)

/-- The walker of an instance's relay. -/
def Inst.fetcher (x : Inst) : Fetcher := ⟨x.cluster / 4, x.vf⟩

/-- The image that an instance relays, or the failure. -/
def State.instImage (s : State) (x : Inst) : Except ImgFail Image :=
  let gw := ((s.task? x.launch x.task).map (·.gw)).getD { }
  s.fetchImage x.fetcher gw x.place (s.portsOf x gw)

/-- The read that the relay of an instance waits for. -/
def State.instStop (s : State) (x : Inst) : Option Reach :=
  s.imageStop x.fetcher (((s.task? x.launch x.task).map (·.gw.configVa)).getD 0)

/-- The walks that the relay of an instance made. -/
def State.instWalks (s : State) (x : Inst) (n : Nat) : State :=
  s.relayWalks x.fetcher (((s.task? x.launch x.task).map (·.gw.configVa)).getD 0) n

/-- RELAY_STAGED: every element of the region holds its words. -/
def execRelayStaged (s : State) : Res :=
  let i := s.subject.1
  match s.insts.find i with
  | none => .next s
  | some x =>
    if x.phase != .relay || x.ctx.isSome || !s.regionClear x then .next s
    else match s.instStop x with
    | some a => .next (s.ask (.image i) a)
    | none => match s.instImage x with
      | .error _ => .next s
      | .ok im =>
        let s := s.instWalks x im.length
        let s := x.elems.foldl (fun (s : State) e =>
          let b := ((im.banks.find? (fun y => y.1 = e)).map (·.2)).getD Bank.empty
          s.modElem e (fun e => { e with staged := .relay i b })) s
        let s := x.tiles.foldl (fun (s : State) t =>
          let eps := ((im.endpoints.find? (fun y => y.1 = t)).map (·.2)).getD (List.replicate 16 0)
          s.modTile t (fun t => { t with retained := some ⟨im.hash, 0, 0, eps, none, none⟩ })) s
        .next ((s.modInst i (fun x => { x with
          phase := .staged, hash := im.hash, baton := x.place.port im.baton, leasePort := x.place.port im.lease })).schedInst .relay x)

/-- The record of a configuration-fetch fault (R80, R246). -/
def State.imageRecord (s : State) (x : Inst) (f : ImgFail) : FaultEvent × State :=
  let va := ((s.task? x.launch x.task).map (·.gw.configVa)).getD 0
  let (kind, src) : Nat × Nat := match f.rea with
    | some r => (0, x.place.eid r)
    | none => (1, x.cluster / 4)
  let (n, s) := s.takeSeq kind src x.part
  ({ kind, src, family := f.family, code := f.code, slot := f.slot, word := f.word, heads := 0, tokens := [], addr := va + f.off,
     time := s.now, seq := n, ttidx := 0xFFFFFFFF, policy := (s.part x.part).active }, s)

/-- Whether an earlier record of a source waits to be taken, for the same partition: a source's records perform in their order
(R222). -/
def State.recordsWait (s : State) (part : Nat) (f : FaultEvent) : Bool :=
  s.insts.any (fun x => x.2.part = part && x.2.faults.any (fun g => g.kind = f.kind && g.src = f.src && g.seq ≠ f.seq &&
    (f.seq + 2 ^ 32 - g.seq) % 2 ^ 32 < 2 ^ 31))

/-- A task stops for a fault: no more batons on any instance, the unissued indices are counted failed, and its instances
without work end (R80, R224). -/
def State.stopTask (s : State) (l k reason : Nat) : State :=
  let s := s.modTask l k (fun t => { t.failUnissued with
    stopped := true, ready := !t.pre.isEmpty, reason := if t.reason = 0 then reason else t.reason })
  ((s.lapse l k).pruneTask l k).sweep l k

/-- CONFIG_FETCH_FAULT (R78, R80): one record, the staged banks go, and the task ends FAULTED. -/
def execConfigFetchFault (s : State) : Res :=
  let i := s.subject.1
  match s.insts.find i with
  | none => .next s
  | some x =>
    if x.phase != .relay || x.ctx.isSome then .next s
    else match s.instStop x with
    | some a => .next (s.ask (.image i) a)
    | none => match s.instImage x with
      | .ok _ => .next s
      | .error f =>
        if s.recordsWait x.part (s.imageRecord x f).1 then .next s
        else
        let s := s.instWalks x f.off
        let (r, s) := s.imageRecord x f
        let s := s.dropStaged x
        let s := (({ s with insts := s.insts.drop i }.decide x.part).policySettle x.part).joinPartition x.cluster
        let s := s.stopTask x.launch x.task 1
        .next (s.takeRecord x.launch x.task r (s.instIds x))

/-! ## Resume (R102, R103) -/

/-- Whether every tile of an instance is powered. -/
def State.regionPowered (s : State) (x : Inst) : Bool := x.tiles.all (fun t => (s.tile t).gate == .powered)

/-- The SRAM that a context holds for a tile of an instance. -/
def Context.sramOf (c : Context) (x : Inst) (t : Nat) : List Host.Cell × List Nat :=
  (((x.tiles.zip c.tiles).find? (fun y => y.1 = t)).map (fun y => (y.2.sram, y.2.sramPoison))).getD ([], [])

/-- RESTORE_DONE: the Starter writes the SRAM, a granule at a time, and the record is then in the staged banks and the SRAM; or it cannot
be read, and the task ends FAULTED. -/
def execRestoreDone (s : State) : Res :=
  let i := s.subject.1
  match s.insts.find i with
  | none => .next s
  | some x =>
    match x.phase, x.ctx.bind s.contexts.find with
    | .relay, some c =>
      if !s.regionClear x || s.poolWaits x.part c.unit0 c.units then .next s
      else if s.contextReads x c then
        let s := if s.sweeping x || !s.regionPowered x then s else s.beginSweep x true (c.sramOf x)
        if !s.swept x then .next s
        else .next ((x.tiles.foldl (fun (s : State) t => s.modTile t (fun y => { y with sweep := none })) s).modInst i
          (fun x => { x with phase := .staged }))
      else
        let addr := s.poolAddr x.part c.unit0
        let q := x.cluster / 4
        let (n, s) := s.takeSeq 1 q x.part
        let r : FaultEvent := {
          kind := 1, src := q, family := fMEMORY, code := cCONTEXT, slot := none, word := 0, heads := 0,
          tokens := [], addr, time := s.now, seq := n, ttidx := lowestHeld x.held,
          policy := (s.part x.part).active }
        let s := x.tiles.foldl (fun (s : State) t => s.modTile t (fun y => { y with sweep := none })) s
        let s := (({ s with insts := s.insts.drop i }.decide x.part).policySettle x.part).joinPartition x.cluster
        let s := (s.failHeld x.launch x.task x.held).freeContext (x.ctx.getD 0)
        let s := s.stopTask x.launch x.task 1
        .next (s.takeRecord x.launch x.task r (s.instIds x))
    | _, _ => .next s

/-! ## The commit (R74, R79, R82, R126, R255) -/

/-- COMMIT_WAVE: it starts once every element is unoccupied and the tiles are powered; but for a resume the SRAM is zero. -/
def execCommitWave (s : State) : Res :=
  let i := s.subject.1
  match s.insts.find i with
  | none => .next s
  | some x =>
    if x.phase != .staged || !s.regionClear x || !s.regionPowered x then .next s
    else
      let s := if x.ctx.isSome then s else x.tiles.foldl (fun (s : State) t => s.modTile t (fun t => { t with sram := [], sramPoison := [] })) s
      .next (s.modInst i (fun x => { x with phase := .commit }))

/-- PARAM_VA in c6 and c7 of an AG (R74). -/
def Bank.withParam (b : Bank) (ty : ElemType) (va : Nat) : Bank :=
  if ty = .ag then { b with consts := upd (upd b.consts 6 (fun _ => BitVec.ofNat 32 va)) 7 (fun _ => BitVec.ofNat 32 (va / 2 ^ 32)) }
  else b

/-- A stream at a commit (R126, R199, R313). -/
def StreamCfg.commit (c : StreamCfg) : Stream :=
  let mode : StreamMode := if !c.v then .idle
    else if c.kind = 1 || c.kind = 4 || c.kind = 5 then .ready
    else if c.start then .prefetching else .idle
  { regs := c, cfg := c, mode, gen := if c.seed = 0 then 1 else c.seed }

/-- An element at a commit that is not a resume (R126). -/
def commitElem (eid i : Nat) (b : Bank) : Element :=
  { Element.resetOf (elemType eid) with
    state := .run, inst := some i, bank := b,
    iq := (List.range 4).map (fun q => (b.initTokens.filter (fun t => t.1.val = q)).map (·.2)),
    p := (List.range 8).map (fun k => if b.initPred.getLsbD k then .yes else .no), en := b.initEn,
    credits := List.replicate 16 8, streams := b.streams.map StreamCfg.commit }

/-- A commit of new words. -/
def State.commitFresh (s : State) (i : Nat) (x : Inst) (paramVa gen : Nat) : State :=
  let s := x.elems.foldl (fun (s : State) e =>
    s.setElem e (commitElem e i ((s.elem e).staged.bank.withParam (elemType e) paramVa))) s
  x.tiles.foldl (fun (s : State) t => s.modTile t (fun y =>
    { y with
      endpoints := (y.retained.map (·.endpoints)).getD (List.replicate 16 0), retained := none, gen,
      counters := List.replicate 5 { }, epBuf := List.replicate 16 [], epFresh := 0, copies := [], hopsStopped := false })) s

/-- Where an element of the saved region stands after the resume. -/
def movedElem (a b : Inst) (eid : Nat) : Nat :=
  let t := tileOf eid
  if a.spans t then tileAt b.cluster (b.row0 + (trow t - a.row0)) (b.col0 + (tcol t - a.col0)) * 64 + eid % 64 else eid

/-- A log that a cut ended starts afresh at the resume (R92). -/
def Token.resumeLog (t : Token) (now : Nat) : Token := { t with pacer := t.pacer.map (fun l => { l with birth := now }) }

/-- A restored element (R98, R102, R337). -/
def State.restoreElem (s : State) (i : Nat) (x : Inst) (a : Inst) (e : Element) (eid paramVa : Nat) : Element :=
  let r (t : Token) : Token := t.resumeLog s.now
  if e.inst ≠ some i then Element.resetOf (elemType eid)
  else { e with
    state := e.before, staged := .none, bank := e.bank.withParam (elemType eid) paramVa,
    iq := e.iq.map (·.map r), oq := e.oq.map (·.map r), rb := e.rb.map (·.map r), counters := List.replicate 3 { },
    reissue := e.reissue.map (fun o => { o with eid := movedElem a x o.eid }) }

/-- A restored tile: above the footprint that the Starter wrote its SRAM reads zero (R97); its far tokens and copies name the elements
where they stand now. -/
def State.restoreTile (s : State) (i : Nat) (x a : Inst) (old new : Tile) (t gen : Nat) : Tile :=
  let n := footprintOf s x
  let far (f : FarTok) : FarTok :=
    { f with tok := f.tok.resumeLog s.now, eid := if f.inst = i then movedElem a x f.eid else f.eid }
  { new with
    sram := new.sram.filter (fun c => c.1 < n * 1024), sramPoison := new.sramPoison.filter (fun w => w < n * 128), gen, endpoints := old.endpoints, epBuf := old.epBuf.map (·.map far), epFresh := 0,
    egressReq := new.egressReq ++ old.egressReq.map (fun m => match m.body with
      | .far ch f => { m with src := t, body := .far ch (far f) }
      | _ => m),
    copies := old.copies.map (fun c => { c with eid := movedElem a x c.eid }), counters := List.replicate 5 { }, retained := none,
    hopsStopped := false }

/-- Far tokens in the egress buffers of a resumed region name the tile that their entry names now. -/
def State.aimFar (s : State) (t : Nat) : State :=
  s.modTile t (fun y => { y with egressReq := y.egressReq.map (fun m => match m.body with
    | .far ch f => { m with
        dst := ((s.farDest f.eid f.entry).map (·.1)).getD m.dst, body := .far (((s.farDest f.eid f.entry).map (·.2)).getD ch) f }
    | _ => m) })

/-- A commit of a restored context (R102). -/
def State.commitContext (s : State) (i : Nat) (x : Inst) (c : Context) (paramVa gen : Nat) : State :=
  let a := c.inst
  let s := (x.elems.zip c.elements).foldl (fun (s : State) y => s.setElem y.1 (s.restoreElem i x a y.2 y.1 paramVa)) s
  let s := (x.tiles.zip c.tiles).foldl (fun (s : State) y => s.setTile y.1 (s.restoreTile i x a y.2 (s.tile y.1) y.1 gen)) s
  let port (p : Option (Nat × Fin 4)) : Option (Nat × Fin 4) := p.map (fun p => (movedElem a x p.1, p.2))
  let s := s.modInst i (fun y => { y with
    baton := port a.baton, leasePort := port a.leasePort, hash := a.hash, watchdog := a.watchdog, leaseBuf := a.leaseBuf, ended := a.ended,
    finInjected := a.finInjected, farOut := a.farOut })
  let s := x.tiles.foldl State.aimFar s
  let s := s.freeContext (x.ctx.getD 0)
  match s.insts.find i with
  | none => s
  | some y => y.elems.foldl State.reissueLoads (s.regrantAll y)

/-- COMMIT_DONE: every element has flipped; generation, bucket and residency start, and waiting events are taken (R79, R82,
R86). -/
def execCommitDone (s : State) : Res :=
  let i := s.subject.1
  match s.insts.find i with
  | none => .next s
  | some x =>
    if x.phase != .commit then .next s
    else
      let gen := ((x.tiles.map (fun t => (s.tile t).gen)).foldl max 0 + 1) % 65536
      let paramVa := ((s.task? x.launch x.task).map (·.gw.paramVa)).getD 0
      let s := match x.ctx.bind s.contexts.find with
        | some c => s.commitContext i x c paramVa gen
        | none => s.commitFresh i x paramVa gen
      let depth := (s.cluster x.cluster).injDepth.toNat
      let s := s.modInst i (fun y => { y with
        phase := if y.finInjected then .teardown else .run, gen, bucket := depth, commitTime := s.now, yielded := false,
        minresTaken := false, ctx := none, again := false })
      let s := s.modTask x.launch x.task (fun t => { t with gen })
      let s := s.schedInst .commit { x with gen }
      let s := if x.again then s.decideNext x else s
      .next ((s.takeWaiting i).sweep x.launch x.task)

/-! ## Batons (R75, R101) -/

/-- Whether an index may be issued to an instance now: it has room while fewer than 8 of its indices lack a TDONE (R75). -/
def State.batonDue (s : State) (x : Inst) (t : Task) : Bool :=
  let out (y : Inst) : Bool := (y.stop matches .cut _ _) || y.boundary || y.phase == .saving || (y.again && y.phase != .run && y.phase != .teardown)
  x.phase == .run && x.stop == .none && !x.boundary && x.waiting.isNone && !x.faulted && !x.finInjected && x.held.length < 8 &&
  t.unissued x.num ≠ 0 && !(t.gw.ordered && (!t.pre.isEmpty || (s.instsOf x.launch x.task).any (fun y => out y.2)))

/-- Whether a baton may enter the port of an instance: it is running and the queue has a free place. -/
def State.batonEnters (s : State) (x : Inst) (eid q : Nat) : Bool :=
  x.phase == .run && x.stop == .none && !x.faulted && (s.elem eid).inRoom q

/-- The baton token (R75). -/
def batonToken (t : Task) (index num : Nat) : Token :=
  let head := [BitVec.ofNat 32 index, BitVec.ofNat 32 num, BitVec.ofNat 32 t.gw.ttCount]
  ⟨lanesOfList (head ++ (if t.gw.batonVa = 0 then [] else t.params.take 13)), 0, none⟩

/-- The oldest baton that has not entered the port of an instance enters it. -/
def State.feedBaton (s : State) (i eid q : Nat) : State :=
  match s.insts.find i with
  | none => s
  | some x =>
    match x.feed, s.task? x.launch x.task with
    | n :: rest, some t =>
      if !s.batonEnters x eid q then s
      else (s.modInst i (fun x => { x with feed := rest })).acceptToken eid q (batonToken t n x.num)
    | _, _ => s

/-- BATON: the next index is issued to the instance; of several with room the lowest number takes it, but for REPLICATE. A
baton of an issued index enters the port once its queue has a free place (log 30). With the last index the task leaves the ready
list, and FINISH goes into its instances that hold none (R71, R77). -/
def execBaton (s : State) : Res :=
  let i := s.subject.1
  match s.insts.find i with
  | none => .next s
  | some x =>
    match s.task? x.launch x.task, x.baton with
    | some t, some (eid, q) =>
      let can (y : Inst) : Bool := s.batonDue y t
      if !can x || (!t.gw.replicate && (s.instsOf x.launch x.task).any (fun y => y.2.num < x.num && can y.2)) then
        .next (s.feedBaton i eid q.val)
      else
        let n := t.nextFor x.num
        let s := s.modTask x.launch x.task (·.issue x.num)
        let s := (s.modInst i (fun x => { x with held := x.held ++ [n], feed := x.feed ++ [n] })).switchPolicy i
        .next (((s.feedBaton i eid q.val).settleReady x.launch x.task).sweep x.launch x.task)
    | _, _ => .next s

/-- TDONE_ACCOUNTING (R76, R77, R215, R59): once the statistics record can be read, the report is added to the statistics record, the index is counted done, the region
takes the active policy, and FINISH is injected where nothing is left. -/
def execTdoneAccounting (s : State) : Res :=
  let i := s.subject.1
  match s.insts.find i with
  | none => .next s
  | some x =>
    match x.tdones with
    | [] => .next s
    | d :: rest =>
      if !x.faulted && x.held.contains d.index && s.askStops (s.statsReach x) then .next (s.ask (.report i) (s.statsReach x))
      else
      let s := s.modInst i (fun x => { x with tdones := rest })
      if x.faulted || !x.held.contains d.index then .next s
      else
        let (c, fl, s) := s.report x
        let s := s.writeStats x.launch x.task (statsAdd c fl s.now)
        let s := s.modInst i (fun x => { x with held := x.held.erase d.index })
        let s := (s.modTask x.launch x.task (·.doneIndex d.index)).switchPolicy i
        .next (s.sweep x.launch x.task)

end Sys2Proof.Machine
end

