-- ==== Sys2Proof/Machine/Faults.lean ====
section
/-! DEFINITION. What the Starter does with a fault (R95, R224, R225), the release of a faulted instance (R226), and the region
watchdog (R87, R221). -/

namespace Sys2Proof.Machine

/-- A fault ends what was under way in its instance: a CUT without a context, pre-emptions that wait, and the leases (R90, R95,
R224). On a lost tile the instance is released at once (R106). -/
def State.freezeInst (s : State) (i : Nat) (x : Inst) : State :=
  let s := match x.phase, x.alloc with
    | .saving, some (u, _) => s.freeUnits x.part u
    | _, _ => s
  let s := x.tiles.foldl (fun (s : State) t => s.modTile t (fun t => { t with hopsStopped := false, sweep := none })) s
  let s := s.endLeases i endFAULT
  let autorelease := ((s.launches.find x.launch).map (·.autorelease)).getD false
  s.modInst i (fun x => { x with
    faulted := true, held := [], feed := [], tdones := [], waiting := none, alloc := none,
    phase := if x.phase == .saving then (if x.finInjected then .teardown else .run) else x.phase,
    stop := match x.stop with
      | .cut _ _ => .none
      | y => y,
    waveLeft := match x.stop with
      | .cut _ _ => []
      | _ => x.waveLeft,
    releaseAsked := x.releaseAsked || autorelease || (x.stop matches .cut _ true) })

/-- STARTER_FAULT (R224, R225): the oldest event of an instance is taken. The first that counts tile-tasks failed stops the
task and fails what the instance holds; every one is linked and written. -/
def execStarterFault (s : State) : Res :=
  let i := s.subject.1
  match s.insts.find i with
  | none => .next s
  | some x =>
    match x.faults with
    | [] => .next s
    | f :: rest =>
      if s.recordsWait x.part f then .next s
      else
      let ids := s.instIds x
      let s := s.modInst i (fun x => { x with faults := rest })
      if !countsFailed f.family f.code || x.faulted then .next (s.takeRecord x.launch x.task f ids)
      else
        let s := s.failHeld x.launch x.task x.held
        let s := s.freezeInst i x
        let s := s.stopTask x.launch x.task (if f.family = fLINK then 3 else 1)
        .next (s.takeRecord x.launch x.task f ids)

/-- Whether a released instance has drained: firings, stores and atomics, copies, and requests to the controller (R226). A pacer
token that is on the track comes to its endpoint first, so that its log ends there or goes on (R227). -/
def State.releaseDrained (s : State) (i : Nat) (x : Inst) : Bool :=
  x.faults.isEmpty && x.elems.all (fun e => (s.elem e).inst != some i || (s.elem e).inflight.isEmpty) &&
  !(s.ops.any (fun o => o.2.inst = i)) && !(s.ctrlQ.any (fun r => r.inst = i)) &&
  !((farTokens s.track).any (fun f => f.inst = i && f.tok.pacer.isSome)) &&
  x.tiles.all (fun t => (s.tile t).copies.all (fun c => (s.elem c.eid).inst != some i))

/-- FAULT_RELEASE (R226): every element stops selecting; once drained, the tokens and the state go, and the elements are
unoccupied without an image. -/
def execFaultRelease (s : State) : Res :=
  let i := s.subject.1
  match s.insts.find i with
  | none => .next s
  | some x =>
    if !x.faulted || !x.releaseAsked || !x.faults.isEmpty then .next s
    else if !x.releasing then
      let s := x.elems.foldl (fun (s : State) e =>
        let y := s.elem e
        if y.inst = some i then (s.setElem e { y with state := .faulted, reissue := [] }).dropLoads e false else s) s
      .next (s.modInst i (fun x => { x with releasing := true, stop := .none, waveLeft := [] }))
    else if !s.releaseDrained i x then .next s
    else
      let s := x.elems.foldl (fun (s : State) e =>
        let y := s.elem e
        if y.inst = some i then s.endLogs e (y.iq.flatten ++ y.oq.flatten ++ y.rb.filterMap id) 4 else s) s
      let s := x.tiles.foldl (fun (s : State) t =>
        ((s.tile t).epBuf.flatten).foldl (fun (s : State) f => s.giveCredit t f) (s.endFarLogs x t 4)) s
      .next ((s.clearRegion i x).schedInst .retire x)

/-- The tokens of an element's input and output queues, as entries of a DEADLOCK record (R87, R219). -/
def Element.queued (e : Element) (eid : Nat) : List TokEntry :=
  (e.iq.mapIdx (fun q l => l.map (fun t => ⟨t, 0, q, eid, false⟩))).flatten ++ (e.oq.mapIdx (fun q l => l.map (fun t => ⟨t, 1, q, eid, false⟩))).flatten

/-- WATCHDOG_DEADLOCK (R87, R221): every element of the instance enters FAULTED, and each with a non-empty input queue gives a
record; where none has, the element of the baton port gives one. -/
def execWatchdogDeadlock (s : State) : Res :=
  let i := s.subject.1
  match s.insts.find i with
  | none => .next s
  | some x =>
    if x.watchdog < 2 ^ 20 || x.faulted || x.stop != .none || !(x.phase == .run || x.phase == .teardown) then .next s
    else
      let mine := x.elems.filter (fun e => (s.elem e).inst == some i)
      let s := mine.foldl (fun (s : State) e => s.modElem e (fun e => { e with state := .faulted })) s
      let full := mine.filter (fun e => (s.elem e).iq.any (!·.isEmpty))
      let srcs := if full.isEmpty then ((x.baton.map (·.1)).getD (mine.headD 0)) :: [] else full
      .next ((srcs.foldl (fun (s : State) e =>
        s.produce i (0, e) fDEADLOCK 1 none 0 (s.elem e).headsWord ((s.elem e).queued e) 0) s).modInst i (fun x => { x with watchdog := 0 }))

end Sys2Proof.Machine
end

