-- ==== Sys2Proof/Machine/Power.lean ====
section
/-! DEFINITION. The power controller's own events (R109, R110, R114 to R117, R119), the injection buckets (R86) and tile gating
(R122 to R124). -/

namespace Sys2Proof.Machine

/-! ## The lease-expiry trap (R66, R117) -/

/-- A run of the handler node of a task is due (R66). -/
def State.readyHandler (s : State) (l : Nat) (handler : Nat) : State :=
  match s.launches.find l with
  | none => s
  | some x =>
    match (x.tasks.mapIdx (fun k t => (k, t))).find? (fun y => y.2.isHandler && y.2.gw.taskId = handler) with
    | none => s
    | some (k, t) =>
      if t.cancelled then s
      else
        let s := s.modTask l k (fun t => { t with runs := t.runs + 1 })
        if t.final && !t.telling then s.startRun l k else s

/-- LEASE_EXPIRY_TRAP (R117): the record of the power controller, the CUT, and the handler node. -/
def State.trap (s : State) (l : Lease) : State :=
  match s.insts.find l.inst with
  | none => s
  | some x =>
    let (n, s) := s.takeSeq 2 0 x.part
    let f : FaultEvent := {
      kind := 2, src := 0, family := fLEASE, code := 1, slot := none, word := 0, heads := 0, tokens := [], addr := 0, time := s.now,
      seq := n, ttidx := lowestHeld x.held, policy := (s.part x.part).active }
    let s := s.takeRecord x.launch x.task f (s.instIds x)
    let s := s.preempt l.inst (.cut false false)
    s.readyHandler x.launch (((s.task? x.launch x.task).map (·.gw.handler)).getD 0xFFFF)

/-- Leases of a cluster end with a reason, and then those that are HARD trap: the other leases of their instances end with them, which
are pre-empted (R115, R117). -/
def State.endAll (s : State) (g : Nat) (slots : List Nat) (reason : Nat) : State :=
  let c := s.cluster g
  let traps := slots.filterMap (fun k => (nth c.slots k none).bind (fun l => if l.traps reason then some l else none))
  (traps.foldl State.trap (slots.foldl (fun (s : State) k => s.endLease g k reason) s)).takeAsked g

/-- LEASE_EXPIRY (R115): the granted µs have passed. -/
def execLeaseExpiry (s : State) : Res :=
  let (g, slot) := s.subject
  match nth (s.cluster g).slots slot none with
  | none => .next s
  | some l =>
    match l.expiry with
    | none => .next s
    | some t => .next (if t ≤ s.now && s.ctrlTurn [t, g, 2, slot] then s.endAll g [slot] endEXPIRY else s)

/-! ## UPDATE_1MS (R109, R110, R114, R119, R57) -/

/-- The heat accumulator after a millisecond (R109). -/
def heatStep (h : Word) (pwr cshare : BitVec 16) : Word :=
  let d : Int := (Int.ofNat pwr.toNat - Int.ofNat cshare.toNat) * 2 ^ 32 / 2400000
  let v := Int.ofNat h.toNat + d
  if v < 0 then 0 else if 0xFFFFFFFF < v then 0xFFFFFFFF else BitVec.ofInt 32 v

/-- The limit of the controller after an update (R119). -/
def limStep (lim capw pwr : BitVec 16) : BitVec 16 :=
  if capw = 0 then 0xFFFF
  else if capw < pwr then BitVec.ofNat 16 (max 1 (lim.toNat / 2))
  else if pwr.toNat * 100 < capw.toNat * 95 then BitVec.ofNat 16 (min 0xFFFF (lim.toNat * 2))
  else lim

/-- The measurements of a cluster enter its registers. -/
def Cluster.measure (c : Cluster) (pwr cshare : BitVec 16) : Cluster :=
  { c with pwr, cshare, heat := heatStep c.heat pwr cshare, lim := limStep c.lim c.capw pwr }

/-- The ends that come before those of an update are taken: those asked for, and the LEASEENDs that reach the cluster in this ns
(R115). -/
def State.takeLeaseends (s : State) (g : Nat) : State :=
  s.ctrlQ.foldl (fun (s : State) r => match r.ask with
    | .inl h => if r.cluster = g && r.time ≤ s.now then s.takeLeaseend r h else s
    | .inr _ => s) (s.takeAsked g)

/-- The state of the heat store after an update (R110); at the ceiling every live lease ends, after the ends of the same ns that come
before it (R115). -/
def State.meltStep (s : State) (g : Nat) : State :=
  let c := s.cluster g
  if c.melt == .refreeze then
    s.modCluster g (fun c => { c with melt := if c.melt16 < c.rearm.toNat then .cool else .refreeze })
  else if c.melt16 < c.ceiling.toNat then s
  else
    let s := (s.takeLeaseends g).modCluster g (fun c => { c with melt := .refreeze })
    let c := s.cluster g
    s.endAll g ((List.range 16).filter (fun k => (nth c.slots k none).isSome)) endCEILING

/-- The most recently granted live lease of the package (R114). -/
def State.lastLease (s : State) : Option (Nat × Nat) :=
  let all := (List.range 16).flatMap (fun g => ((s.cluster g).slots.mapIdx (fun k l => (k, l))).filterMap (fun x =>
    x.2.map (fun l => (l.order, g, x.1))))
  (all.foldl (fun (m : Option (Nat × Nat × Nat)) x => match m with
    | none => some x
    | some y => if y.1 < x.1 then some x else some y) none).map (·.2)

/-- The partition's power over 100 ms goes to the operator: by the entry of class 14, and in any case rounded down to 10 W (R56,
R57). -/
def State.powerFloor (s : State) (ms p : Nat) : State :=
  let now := total ((s.clustersOf p).map (fun g => (s.cluster g).pwr.toNat))
  let sum := (s.part p).powerSum + now
  if ms % 100 ≠ 0 then s.modPart p (fun x => { x with powerSum := sum })
  else
    let s := s.modPart p (fun x => { x with powerSum := 0 })
    if (s.clustersOf p).isEmpty then s else s.produceFor p 14 (s.part p).active 0 s.now (some 0) [⟨.plain (sum / 100), some (sum / 100 / 10 * 10)⟩]

/-- Where the package draws more than SPRINTW, the controller is to end the most recently granted live lease (R114; log 152). -/
def State.askBudget (s : State) : State :=
  if s.sprintw < s.pkgw then (match s.lastLease with
    | some (g, k) => s.modCluster g (fun c => { c with slots := upd c.slots k (·.map (·.ask endBUDGET)) })
    | none => s)
  else s

/-- A lease of the cluster that is still live ends for the budget, after the ends of the same ns that come before it (R114, R115). -/
def State.budgetStep (s : State) (g : Nat) : State :=
  if ((s.cluster g).askedFor endBUDGET).isEmpty then s
  else
    let s := s.takeLeaseends g
    s.endAll g ((s.cluster g).askedFor endBUDGET) endBUDGET

/-- UPDATE_1MS: at a whole millisecond the measurements arrive, a cluster at a time, heat and state follow, and a lease may end for the
budget (R109, R110, R111, R114). With the last cluster the update of the package is complete. -/
def execUpdate1ms (pwr cshare : List (BitVec 16)) (pkgw : BitVec 16) (s : State) : Res :=
  let g := s.subject.1
  if !s.updateDue g then .next s
  else
    let ms := s.now / 1000000
    let s := { s.modCluster g (fun c => { c.measure (nth pwr g 0) (nth cshare g 0) with lastMs := some ms }) with pkgw }
    let s := if g = 0 then s.askBudget else s
    let s := ((s.meltStep g).budgetStep g).modCluster g (fun c => { c with msState := c.melt })
    .next (if g + 1 < s.clusters.length then s
      else (List.range 16).foldl (fun (s : State) p => s.powerFloor ms p) { s with lastMs := some ms })

/-! ## BUCKET_REFILL (R86, R119) -/

/-- REFF (R119). -/
def Cluster.reff (c : Cluster) : Nat := min c.injRefill.toNat c.lim.toNat

/-- BUCKET_REFILL: each whole microsecond gives the buckets of a cluster REFF units, up to DEPTH. -/
def execBucketRefill (s : State) : Res :=
  let g := s.subject.1
  let c := s.cluster g
  let n := s.now / 1000 - c.refilled
  .next (if n = 0 then s
    else
      let s := s.modCluster g (fun c => { c with refilled := s.now / 1000 })
      if !c.injEn then s
      else { s with insts := s.insts.map (fun x =>
        if x.2.cluster = g && (x.2.phase == .run || x.2.phase == .teardown || x.2.phase == .saving) then
          (x.1, { x.2 with bucket := min (max x.2.bucket c.injDepth.toNat) (x.2.bucket + n * c.reff) })
        else x) })

/-! ## Gating (R122 to R124) -/

/-- Every tile that GREQ names and that stands powered and unoccupied begins to gate, whatever left it so (R122, R123). -/
def State.gateRequested (s : State) : State :=
  (List.range 16).foldl (fun (s : State) g =>
    if (s.cluster g).greq = 0 then s
    else (clusterTiles g).foldl (fun (s : State) t => if (s.cluster g).greq.getLsbD (tileBit t) then s.closeTile t else s) s) s

/-- AUTOGATE_TIMER (R123): AUTOGATE is set and the tile has been unoccupied for 1 ms. -/
def execAutogateTimer (s : State) : Res :=
  let t := s.subject.1
  .next (if tileOk t && (s.cluster (clusterOf t)).autogate && max (s.tile t).unoccSince s.startTime + 1000000 ≤ s.now then s.closeTile t else s)

/-- GATE_OFF (R123): no accepted operation is outstanding; the supply is off, and SRAM and retained image are lost. -/
def execGateOff (s : State) : Res :=
  let t := s.subject.1
  let accepted := !(s.bankQueue t).isEmpty || (s.tile t).keptFor.any (fun a => (s.accs.find a).isSome)
  .next (if (s.tile t).gate == .closing && s.tileIdle t && !accepted then
    (s.forgetTile t).modTile t (fun x => { x with gate := .gated, sram := [], sramPoison := [] }) else s)

/-- UNGATE_DONE (R124): 20 µs have passed; the SRAM reads zero. -/
def execUngateDone (s : State) : Res :=
  let t := s.subject.1
  match (s.tile t).gate with
  | .ungating u => .next (if u ≤ s.now then
      s.modTile t (fun x => { x with gate := .powered, sram := [], sramPoison := [], unoccSince := s.now }) else s)
  | _ => .next s

end Sys2Proof.Machine
end

