-- ==== Sys2Proof/Machine/Graph.lean ====
section
/-! DEFINITION. Graph words (R61 to R63), LAUNCH and the admission walk (R33, R65, R66), and the other active messages that
name a launch (R34). -/

namespace Sys2Proof.Machine

/-! ## Graph words (R61 to R63) -/

/-- The graph word that 64 bytes hold. -/
def graphWordOf (b : List Byte) : GraphWord :=
  let w (i : Nat) : Nat := fieldOf b (8 * i) 8
  let flag (k : Nat) : Bool := bitsOf (w 0) k 1 = 1
  { taskId := bitsOf (w 0) 0 16, pri := bitsOf (w 0) 16 3, ordered := flag 19, cutOk := flag 20, leaseOk := flag 21, hardOk := flag 22,
    replicate := flag 23, w := bitsOf (w 0) 24 3, h := bitsOf (w 0) 27 3, instances := bitsOf (w 0) 30 5,
    configVa := bitsOf (w 1) 0 49, ttCount := bitsOf (w 2) 0 32, footprint := bitsOf (w 2) 32 14, paramVa := bitsOf (w 3) 0 49,
    completionVa := bitsOf (w 4) 0 49, succVa := bitsOf (w 5) 0 49, succN := bitsOf (w 5) 49 8, predN := bitsOf (w 6) 0 8,
    handler := bitsOf (w 6) 8 16, batonVa := bitsOf (w 6) 24 40 * 512 }

/-- What a graph word alone shows of R62 and R63. -/
def graphWordOk (b : List Byte) : Bool :=
  let w (i : Nat) : Nat := fieldOf b (8 * i) 8
  let g := graphWordOf b
  bitsOf (w 0) 35 29 = 0 && bitsOf (w 1) 49 15 = 0 && bitsOf (w 2) 46 18 = 0 && bitsOf (w 3) 49 15 = 0 && bitsOf (w 4) 49 15 = 0 &&
  bitsOf (w 5) 57 7 = 0 && 1 ≤ g.instances && g.instances ≤ 16 && 1 ≤ g.w && g.w ≤ 6 && 1 ≤ g.h && g.h ≤ 6 && g.footprint ≤ 8192 &&
  g.configVa % 64 = 0 && (g.configVa ≠ 0 || g.ttCount = 0) && g.completionVa % 64 = 0 && (g.succN = 0 || g.succVa % 8 = 0) &&
  (!g.hardOk || (g.leaseOk && g.handler ≠ 0xFFFF)) &&
  (total ((List.range 7).map w) + 0x54574E4752415048) % 2 ^ 64 = w 7

/-- The bytes of a graph word, where the Starter can read them for a VF. -/
def State.graphBytes (s : State) (v va : Nat) : Option (List Byte) :=
  if va % 64 ≠ 0 then none
  else match s.starterRead v va 64 .load with
    | .ok b => some b
    | .error _ => none

/-- The completion object and the statistics record translate for a store (R39, R65). -/
def State.objectOk (s : State) (v : Nat) (g : GraphWord) : Bool := s.storeOk v g.completionVa 64 && s.storeOk v (g.completionVa + 64) 64

/-! ## The walk (R65) -/

/-- A node visited. -/
structure GraphNode where
  va : Nat
  gw : GraphWord
  params : List Word
  succ : List Nat
deriving DecidableEq, Repr

/-- Why a visit does not come about: a read waits, or the node fails, with its word where the word is valid and its object may be
written. -/
inductive VisitStop where
  | waits (a : Reach)
  | fails (g : Option GraphWord)
deriving DecidableEq, Repr

/-- A read of n bytes by the Starter for a VF in a walk. -/
def State.walkRead (s : State) (v va n : Nat) (g : Option GraphWord) : Except VisitStop (List Byte) :=
  let a : Reach := { v, va, n }
  if s.askStops a then .error (.waits a)
  else match s.starterRead v va n .load with
    | .ok b => .ok b
    | .error _ => .error (.fails g)

/-- A visit. -/
def State.visit (s : State) (v va : Nat) (seen : List GraphNode) (room : Nat) : Except VisitStop GraphNode :=
  match if va % 64 ≠ 0 then .error (.fails none) else s.walkRead v va 64 none with
  | .error e => .error e
  | .ok b =>
    let g := graphWordOf b
    let object : Reach := { v, va := g.completionVa, n := 128, read := false }
    if !graphWordOk b || seen.any (fun n => n.gw.taskId = g.taskId) then .error (.fails none)
    else if s.askStops object then .error (.waits object)
    else if !s.objectOk v g then .error (.fails none)
    else
      match (if g.batonVa = 0 then .ok [] else s.walkRead v g.batonVa 52 (some g)),
            (if g.succN = 0 then .ok [] else s.walkRead v g.succVa (8 * g.succN) (some g)) with
      | .ok p, .ok l => if seen.length < room then .ok ⟨va, g, (chunks 4 (p.length / 4) p).map (BitVec.ofNat 32), chunks 8 g.succN l⟩
          else .error (.fails (some g))
      | .error e, _ => .error e
      | _, .error e => .error e

/-- The visit phase, breadth-first: the nodes in visit order, and the node at which it stops. -/
def State.visitAll (s : State) (v room : Nat) : Nat → List Nat → List GraphNode → List GraphNode × Option (Nat × VisitStop)
  | 0, _, seen => (seen, none)
  | _, [], seen => (seen, none)
  | fuel + 1, va :: queue, seen =>
    if seen.any (·.va = va) then s.visitAll v room fuel queue seen
    else match s.visit v va seen room with
      | .error g => (seen, some (va, g))
      | .ok n => s.visitAll v room fuel (queue ++ n.succ) (seen ++ [n])

/-- The nodes that edges lead to from some nodes. -/
def reachFrom (nodes : List GraphNode) : Nat → List Nat → List Nat → List Nat
  | 0, _, seen => seen
  | _, [], seen => seen
  | fuel + 1, va :: queue, seen =>
    if seen.contains va then reachFrom nodes fuel queue seen
    else
      let next := ((nodes.find? (·.va = va)).map (·.succ)).getD []
      reachFrom nodes fuel (queue ++ next) (va :: seen)

/-- Whether a graph word is invalid since its EXPIRY_HANDLER names no handler node of the launch (R62). -/
def danglingHandler (nodes : List GraphNode) (n : GraphNode) : Bool :=
  n.gw.handler ≠ 0xFFFF && !(nodes.any (fun m => m.gw.predN = 255 && m.gw.taskId = n.gw.handler))

/-- The node that the count phase names (R65): a handler that is none, a wrong PRED_N, then a cycle. -/
def countFault (nodes : List GraphNode) : Option GraphNode :=
  let edges := nodes.flatMap (·.succ)
  match nodes.find? (danglingHandler nodes) with
  | some n => some n
  | none =>
    match nodes.find? (fun n => n.gw.predN ≠ 255 && n.gw.predN ≠ (edges.filter (· = n.va)).length) with
    | some n => some n
    | none => nodes.find? (fun n => (reachFrom nodes (edges.length + 1) n.succ []).contains n.va)

/-- The task of a visited node. -/
def GraphNode.task (n : GraphNode) (nodes : List GraphNode) : Task :=
  { va := n.va, gw := n.gw, pending := n.gw.predN, params := n.params,
    succ := n.succ.filterMap (fun a => nodes.findIdx? (·.va = a)), final := n.gw.predN = 255 }

/-- The entries that a home Starter has free (R64). -/
def State.tableRoom (s : State) (q : Nat) : Nat :=
  1024 - total ((s.launches.filter (fun x => x.2.walked && s.homeOf x.2.part = q)).map (fun x => x.2.tasks.length))

/-- GRAPH_FAULT (R65): the record, the objects of the nodes reached but for the invalid ones, and after them the notices (R43). -/
def State.graphFault (s : State) (l : Nat) (x : Launch) (at_ : Nat) (reached : List Task) (invalid : List Nat)
    (root : Option GraphWord) : State :=
  let failed (t : Task) : Task :=
    { t with status := .faulted, reason := 1, failedN := t.gw.ttCount, firstFailed := if t.gw.ttCount = 0 then 0xFFFFFFFF else 0,
             end_ := s.now, final := true, stopped := true, ready := false }
  let s := s.modLaunch l (fun y => { y with tasks := reached.map failed, walked := true })
  let (n, s) := s.takeSeq 1 (s.homeOf x.part) x.part
  let f : FaultEvent := {
    kind := 1, src := s.homeOf x.part, family := fSYSTEM, code := 1, slot := none, word := 0, heads := 0, tokens := [], addr := at_,
    time := s.now, seq := n, ttidx := 0xFFFFFFFF, policy := (s.part x.part).active }
  let id := (root.map (·.taskId)).getD 0xFFFF
  let (va, s) := s.writeRecord x.part false (f.bytes (0, id, 0xFF))
  let s := s.operateFault x.part f (0, id, 0xFF)
  let s := s.modLaunch l (fun y => { y with tasks := y.tasks.map (fun t =>
    if t.va = x.root then { t with fchain := va.getD 0, lastRec := va.getD 0 } else t) })
  let s := (List.range reached.length).foldl (fun (s : State) k =>
    if ((reached[k]?).map (·.va)).any invalid.contains then s else s.writeObject l k) s
  let t : Task := { va := x.root, gw := root.getD { taskId := 0xFFFF } }
  let n := ((reached.map failed).filter (fun t => !t.isHandler)).length
  { s with launches := s.launches.drop l }.whenWritten (.graph x t (fSYSTEM, 1) (BitVec.ofNat 32 (Status.faulted.code + min n 0xFFFF * 2 ^ 16)))

/-- The read that a walk waits for. -/
def State.walkStop (s : State) (l : Nat) : Option Reach :=
  match s.launches.find l with
  | some x =>
    if x.walked then none
    else match (s.visitAll x.vf (s.tableRoom (s.homeOf x.part)) 300000 [x.root] []).2 with
      | some (_, .waits a) => some a
      | _ => none
  | none => none

/-- The walk of a launch ends: its tasks are known and the root is ready as from the acceptance, or the launch faults (R65,
R67). -/
def State.walkGraph (s : State) (l : Nat) : State :=
  match s.launches.find l with
  | none => s
  | some x =>
    if x.walked then s
    else
      let (nodes, bad) := s.visitAll x.vf (s.tableRoom (s.homeOf x.part)) 300000 [x.root] []
      let tasks := nodes.map (fun n => n.task nodes)
      let root := (s.graphBytes x.vf x.root).map graphWordOf
      match bad, countFault nodes with
      | some (va, stop), _ =>
        let own : List Task := match stop with
          | .fails (some g) => [{ va, gw := g }]
          | _ => []
        s.graphFault l x va (tasks ++ own) [] root
      | none, some n => s.graphFault l x n.va tasks ((nodes.filter (danglingHandler nodes)).map (·.va)) root
      | none, none =>
        let s := (s.modLaunch l (fun y => { y with tasks, walked := true })).makeReady l 0
        (s.modTask l 0 (fun t => { t with readySeq := x.order, levelSince := x.since })).settleOrders x.vf

/-- GRAPH_WALK (R65): it asks for what it waits for, or ends. -/
def execGraphWalk (s : State) : Res :=
  let l := s.subject.1
  match s.walkStop l with
  | some a => .next (s.ask (.graph l) a)
  | none => .next (s.walkGraph l)

/-! ## LAUNCH (R33, R65) -/

def execLaunch (m : Am) (s : State) : Res :=
  match s.amCheck m .tenant false with
  | .error s => .next s
  | .ok t =>
    let v := m.vf.toNat
    let op := m.operand.toNat
    let part := t.amPart m
    let override := bitsOf op 3 1 = 1
    let urgentOk := (t.vf v).urgentOk
    let live := (t.launches.filter (fun x => x.2.part = part && x.2.live)).length
    let object : List Reach := match t.graphBytes v m.cont.toNat with
      | some b => [{ v, va := (graphWordOf b).completionVa, n := 128, read := false }]
      | none => []
    if op / 32 ≠ 0 then .next (t.nak m nakOPERAND)
    else if override && op % 8 = 7 && !urgentOk then .next (t.nak m nakURGENT)
    else if 256 ≤ live then .next (t.nak m nakFULL)
    else s.orStall m ([contAsk m, { v, va := m.cont.toNat, n := 64 }] ++ object) <|
    let s := t
    if m.cont.toNat % 64 ≠ 0 || !s.contOk m then .next (s.nak m nakBADADDR)
    else match s.graphBytes v m.cont.toNat with
      | none => .next (s.nak m nakBADADDR)
      | some b =>
        let g := graphWordOf b
        if !graphWordOk b || g.predN ≠ 0 then .next (s.nak m nakOPERAND)
        else if !s.objectOk v g then .next (s.nak m nakBADADDR)
        else
          let s := (s.accept m).dropWalks v
          let (n, s) := s.newId
          let x : Launch := {
            vf := v, part, root := m.cont.toNat, override := if override then some (op % 8) else none, urgentOk,
            autorelease := bitsOf op 4 1 = 1, seq := n, since := s.now, order := s.readyN, walked := false,
            stopped := false, tasks := [] }
          .next { s with launches := s.launches.put n x, readyN := s.readyN + 1 }

/-! ## CANCEL, PREEMPT, RESUME (R34) -/

/-- The live launch of the sending VF that a message names. -/
def State.namedLaunch (s : State) (m : Am) : Option (Nat × Launch) :=
  s.launches.find? (fun x => x.2.vf = m.vf.toNat && x.2.root = m.cont.toNat && x.2.live)

/-- The checks that CANCEL, PREEMPT and RESUME share: reserved OPERAND bits, CONT, and a live launch, whose walk then comes
first (R31, R32, R34). -/
def State.launchNamed (s : State) (m : Am) (limit : Nat) : Except State (Nat × Launch × State) :=
  match s.amCheck m .tenant false with
  | .error s => .error s
  | .ok t =>
    if limit ≤ m.operand.toNat then .error (t.nak m nakOPERAND)
    else match s.firstStop [contAsk m] with
    | some a => .error (s.stall m a)
    | none =>
    if m.cont.toNat % 64 ≠ 0 || !t.contOk m then .error (t.nak m nakBADADDR)
    else match t.namedLaunch m with
      | none => .error (t.nak m nakNOTACTIVE)
      | some (l, _) =>
      match s.walkStop l with
      | some a => .error (s.stall m a)
      | none =>
        let s := t.walkGraph l
        match s.launches.find l with
        | none => .error (s.nak m nakNOTACTIVE)
        | some x => .ok (l, x, s)

/-- CANCEL of one task: no more batons, what it never issued and what its pre-empted instances hold is counted failed. -/
def State.cancelTask (s : State) (l k : Nat) : State :=
  match s.task? l k with
  | none => s
  | some t =>
    if t.final then s.modTask l k (fun t => { t with cancelled := true, runs := 0 })
    else
      let s := t.pre.foldl (fun (s : State) p => (s.failHeld l k p.held).freeContext p.ctx) s
      s.modTask l k (fun t => { t.failUnissued with
        pre := [], cancelled := true, stopped := true, ready := false, reserved := [], runs := 0,
        reason := if t.gw.ttCount = 0 then 4 else t.reason })

/-- CANCEL of one bound instance: without CUT its issued tile-tasks run to TDONE; one whose pre-emption by CUT has come is not bound
again, whatever CUT says (R34). -/
def State.cancelInst (s : State) (i : Nat) (cut : Bool) : State :=
  match s.insts.find i with
  | none => s
  | some x =>
    if x.phase == .relay || x.phase == .staged then s.unbind i x true
    else if cut || x.cutComes then s.preempt i (.cut true false)
    else s.preempt i .boundary

/-- Whether the last TDONE of a launch has taken effect: the launch ends DONE (R34). A handler node without a run due is not
waited for (R66). -/
def Launch.lastTdone (x : Launch) : Bool :=
  x.walked && x.tasks.any (fun t => t.gw.ttCount ≠ 0) &&
  x.tasks.all (fun t => (t.isHandler && t.final && t.runs = 0) || (t.failedN = 0 && t.doneN = t.gw.ttCount))

def execCancel (m : Am) (s : State) : Res :=
  match s.launchNamed m 2 with
  | .error s => .next s
  | .ok (l, x, s) =>
    if x.lastTdone then .next (s.nak m nakNOTACTIVE)
    else
    let cut := m.operand.toNat = 1
    let s := (List.range x.tasks.length).foldl (fun (s : State) k => s.cancelTask l k) (s.accept m)
    let s := (s.insts.filter (fun y => y.2.launch = l)).foldl (fun (s : State) y => s.cancelInst y.1 cut) s
    .next ((List.range x.tasks.length).foldl (fun (s : State) k => s.sweep l k) (s.decide x.part))

def execPreempt (m : Am) (s : State) : Res :=
  match s.launchNamed m 2 with
  | .error s => .next s
  | .ok (l, x, s) =>
    let ask : Ask := if m.operand.toNat = 1 then .cut false false else .boundary
    let s := (s.accept m).modLaunch l (fun y => { y with
      stopped := true, tasks := y.tasks.map (fun t => { t with reserved := [] }) })
    let s := (s.insts.filter (fun y => y.2.launch = l)).foldl (fun (s : State) y => s.preempt y.1 ask) s
    .next (s.decide x.part)

def execResume (m : Am) (s : State) : Res :=
  match s.launchNamed m 1 with
  | .error s => .next s
  | .ok (l, x, s) =>
    if !x.stopped then .next (s.nak m nakNOTACTIVE)
    else .next (((s.accept m).modLaunch l (fun y => { y with
      stopped := false, tasks := y.tasks.map (fun t => { t with levelSince := s.now }) })).decide x.part)

end Sys2Proof.Machine
end

