-- ==== Sys2Proof/Machine/HostAm.lean ====
section
/-! DEFINITION. The active messages that name no launch (R32, R35, R36, R38, R42), their delivery (R36, R42), and DBGHOLD and
DBGREAD (R230 to R232). -/

namespace Sys2Proof.Machine

/-! ## SIGNAL, ORDER, MAPROOT and undefined AMOPs -/

/-- SIGNAL writes SIGVAL alone (R38). -/
def execSignal (m : Am) (s : State) : Res :=
  match s.amCheck m .tenant false with
  | .error s => .next s
  | .ok t =>
    let va := m.cont.toNat
    s.orStall m [contAsk m, { v := m.vf.toNat, va := va + 0x14, n := 4, host := true, read := false }] <|
    if va % 64 ≠ 0 || !t.contOk m then .next (t.nak m nakBADADDR)
    else match t.writeFor m.vf.toNat (va + 0x14) (leBytes 4 m.operand.toNat) with
      | none => .next (t.nak m nakBADADDR)
      | some s => .next (s.accept m)

/-- ORDER answers with COMPLETE once every earlier message of the VF has taken effect; a host write is acknowledged only when it
has performed (R42). -/
def execOrder (m : Am) (s : State) : Res :=
  match s.amCheck m .any false with
  | .error s => .next s
  | .ok s =>
    if m.operand ≠ 0 then .next (s.nak m nakOPERAND)
    else
      let (name, s) := s.newId
      .next ((s.modVf m.vf.toNat (fun x => { x with orders := x.orders ++ [⟨name, m⟩] })).settleOrders m.vf.toNat)

/-- MAPROOT (R35). -/
def execMaproot (m : Am) (s : State) : Res :=
  match s.amCheck m .admin false with
  | .error s => .next s
  | .ok s =>
    let v := m.operand.toNat
    let c := m.cont.toNat
    if 512 ≤ v || v = 511 || c % 1024 ≠ 0 || 2 ^ 42 ≤ c then .next (s.nak m nakOPERAND)
    else if s.insts.any (fun x => x.2.vf = v) then .next (s.nak m nakBUSY)
    else .next (((s.accept m).modVf v (fun x => { x with root := BitVec.ofNat 34 (c / 1024) })).dropWalks v)

/-- Any other AMOP (R32). -/
def execAmUndefined (m : Am) (s : State) : Res :=
  match s.amCheck m .any false with
  | .error s => .next s
  | .ok s => .next (s.nak m nakUNDEFINED)

/-! ## User messages (R36) -/

/-- The bound instance that a handler entry serves: of the earliest launch, the lowest number. -/
def State.served? (s : State) (part taskId : Nat) : Option Inst :=
  let ls := (s.launches.filter (fun x => x.2.part = part && x.2.live)).map (fun x => (x.2.seq, x.1, x.2))
  let inst (l : Nat) (x : Launch) : Option Inst :=
    let is := (s.insts.filter (fun y => y.2.launch = l && ((x.tasks[y.2.task]?).map (·.gw.taskId)) == some taskId)).map (·.2)
    is.foldl (fun (m : Option Inst) y => match m with
      | none => some y
      | some z => if y.num < z.num then some y else some z) none
  (ls.foldl (fun (m : Option (Nat × Inst)) x =>
    match inst x.2.1 x.2.2, m with
    | none, m => m
    | some i, none => some (x.1, i)
    | some i, some b => if x.1 < b.1 then some (x.1, i) else some b) none).map (·.2)

/-- USER_AM: it waits in the entry's queue (R36). -/
def execUserAm (m : Am) (s : State) : Res :=
  match s.amCheck m .tenant false with
  | .error s => .next s
  | .ok s =>
    let p := s.amPart m
    let k := m.amop.toNat % 16
    let h := nth (s.part p).handlers k { }
    if !h.hen || (s.served? p h.task.toNat).isNone then .next (s.nak m nakNOHANDLER)
    else if 16 ≤ h.queue.length then .next (s.nak m nakBUSY)
    else
      let (name, s) := s.newId
      .next ((s.accept m).modPart p (fun x => { x with
        handlers := upd x.handlers k (fun h => { h with queue := h.queue ++ [⟨name, { m with part := BitVec.ofNat 4 p }⟩] }) }))

/-- The token that a handler task receives (R36). -/
def handlerToken (m : Am) : Token :=
  ⟨lanesOfList [m.amop.setWidth 32, m.vf.setWidth 32, m.seq.setWidth 32, m.operand, BitVec.ofNat 32 m.cont.toNat,
    BitVec.ofNat 32 (m.cont.toNat / 2 ^ 32)], 0, none⟩

/-- Whether some live launch of a partition has a task of that id. -/
def State.hasTask (s : State) (part taskId : Nat) : Bool :=
  s.launches.any (fun x => x.2.part = part && x.2.live && x.2.tasks.any (fun t => t.gw.taskId = taskId))

/-- USER_AM_DELIVERY (R36): the head of an entry's queue enters the handler port, waits, or is refused, by the TASK and PORT that the entry
has now, whether or not HEN still is set (log 155). -/
def execUserAmDelivery (p k : Nat) (s : State) : Res :=
  let h := nth (s.part p).handlers k { }
  match h.queue with
  | [] => .next s
  | q :: rest =>
    let m := q.am
    let pop (s : State) : State := s.modPart p (fun x => { x with handlers := upd x.handlers k (fun h => { h with queue := rest }) })
    match s.served? p h.task.toNat with
    | none => .next (if s.hasTask p h.task.toNat then s else ((pop s).nak m nakNOHANDLER).settleOrders m.vf.toNat)
    | some x =>
      match x.baton with
      | none => .next s
      | some (eid, _) =>
        if x.phase != .run || x.finInjected || !(s.elem eid).inRoom h.port.toNat || (s.tile (tileOf eid)).hopsStopped then .next s
        else .next (((pop s).acceptToken eid h.port.toNat (handlerToken m)).settleOrders m.vf.toNat)

/-- The 128 bits of an outgoing message (R29, R41). -/
def OutAm.word (o : OutAm) (v : Nat) (part : BitVec 4) : BitVec 128 :=
  o.amop ++ BitVec.ofNat 9 v ++ part ++ o.seq ++ o.operand ++ o.cont

/-- DEVICE_AM_DELIVERY (R42, R343): the card takes the oldest message of a VF; an AMSEND hears that it took effect. -/
def execDeviceAmDelivery (v : Nat) (s : State) : Res :=
  match (s.vf v).out with
  | [] => .next s
  | o :: rest =>
    let part : BitVec 4 := if v = 511 then 0 else (s.vf v).part
    let s := { s.modVf v (fun x => { x with out := rest }) with handed := s.handed ++ [(v, o.word v part)] }
    match o.sender with
    | some (eid, entry) => .next (s.answerSend eid entry 0 o.seq.toNat)
    | none => .next s

/-! ## DBGHOLD (R230, R232) -/

/-- What DBGHOLD finds of an element: its instance; or none, with whether a relay or commit covers it. -/
def State.debugInst (s : State) (eid : Nat) : Option (Nat × Inst) ⊕ Bool :=
  match (s.elem eid).inst with
  | some i => .inl ((s.insts.find i).map (fun x => (i, x)))
  | none => .inr ((s.holders (tileOf eid)).any (fun x => x.2.phase == .relay || x.2.phase == .staged || x.2.phase == .commit))

/-- A single step of an element of a held instance; one that is FAULTED, or that was stopping, has no eligible slot (R148, R232). -/
def State.singleStep (s : State) (i eid : Nat) : State :=
  let e := s.elem eid
  let fin := (List.range 4).any (fun q => (e.head? q).any (fun t => t.tag == tagFinish))
  let first := s.nextId
  let (s, slot) := if e.state == .held && e.before == .run && !fin then s.selectOne eid else (s, none)
  { s with stepWaits := s.stepWaits ++ [⟨eid, slot.getD 0x1F, first, s.nextId, i⟩] }

/-- The checks of both forms of DBGHOLD: administrative, reserved bits, an element of a bound instance outside relay and CUT. -/
def State.debugNamed (s : State) (m : Am) : Except State (Nat × Inst × State) :=
  match s.amCheck m .admin false with
  | .error s => .error s
  | .ok s =>
    if 2 ^ 17 ≤ m.operand.toNat then .error (s.nak m nakOPERAND)
    else match s.debugInst (m.operand.toNat % 65536) with
      | .inr true => .error (s.nak m nakBUSY)
      | .inr false => .error (s.nak m nakNOTACTIVE)
      | .inl none => .error (s.nak m nakNOTACTIVE)
      | .inl (some (i, x)) =>
        let cut : Bool := x.phase == .saving || (match x.stop with
          | .cut _ _ => true
          | _ => false)
        if cut then .error (s.nak m nakBUSY) else .ok (i, x, s)

/-- DBGHOLD with HOLD = 1: a hold wave starts, or a held element makes a single step. -/
def execDbghold (m : Am) (s : State) : Res :=
  match s.debugNamed m with
  | .error s => .next s
  | .ok (i, x, s) =>
    let eid := m.operand.toNat % 65536
    match x.stop with
    | .hold _ _ => .next (if x.holdDone then (s.accept m).singleStep i eid else s.nak m nakBUSY)
    | _ => .next ((s.accept m).startHold i eid false)

/-- DBGHOLD with HOLD = 0: a held instance returns to RUN and a pre-emption that waited is taken; a faulted one is released;
COMPLETE answers (R230). -/
def execDbgholdRelease (m : Am) (s : State) : Res :=
  match s.debugNamed m with
  | .error s => .next s
  | .ok (i, x, s) =>
    let s := s.accept m
    let held : Bool := x.stop != .none
    let s := if held then s.wake i else s
    let s := if x.faulted then s.modInst i (fun x => { x with releaseAsked := true }) else s.takeWaiting i
    .next ((s.sweep x.launch x.task).sendAm 511 amCOMPLETE 0 0 none)

/-! ## DBGREAD (R231) -/

/-- An element state as DBGREAD codes it. -/
def ElemState.code : ElemState → Nat
  | .unoccupied => 0
  | .run => 1
  | .stopping => 2
  | .held => 3
  | .cut => 4
  | .faulted => 5

/-- A token entry as fields: payload and mask are payload (R54, R219). -/
def tokenFields (t : Token) (kind idx eid : Nat) : List (Nat × Item) :=
  [(64, .payload (leNat (payloadBytes t.lanes))), (2, .payload (validMask t.lanes).toNat),
   (1, .plain (t.tag.toNat + if t.pacer.isSome then 16 else 0)), (1, .plain (kind * 32 + idx)), (2, .elem eid), (58, .plain 0)]

/-- The tokens of an element's queues and route buffers, in place order. -/
def Element.placed (e : Element) : List (Token × Nat × Nat) :=
  ((e.iq.mapIdx (fun q l => l.map (fun t => (t, 0, q)))).flatten) ++ ((e.oq.mapIdx (fun q l => l.map (fun t => (t, 1, q)))).flatten) ++
  ((e.rb.mapIdx (fun k t => (t.map (fun t => (t, 2, k))).toList)).flatten)

/-- A mask of the predicates in a state. -/
def Element.predMask (e : Element) (v : Pred) : Nat :=
  total ((List.range 8).map (fun k => if nth e.p k .no == v then 2 ^ k else 0))

/-- An item of an element as fields with their widths in bytes; none where R231 refuses it with OPERAND. -/
def State.debugItem (s : State) (eid item : Nat) : Option (List (Nat × Item)) :=
  let e := s.elem eid
  let ty := elemType eid
  let pad (n : Nat) : Nat × Item := (n, .plain 0)
  match item with
  | 0 => some ([(1, .plain e.state.code), (1, .plain (typeCode ty)), (2, .gen (s.tile (tileOf eid)).gen), (1, .payload (e.predMask .yes)),
      (1, .payload (e.predMask .pending)), (2, .payload e.en.toNat),
      (2, .payload (total ((List.range 4).map (fun p => nth e.last p 0 * 16 ^ p))))] ++ e.age.map (fun a => (1, .count a)) ++
      [(4, .plain e.headsWord.toNat), pad 2, (4, .payload e.flags.toNat), pad 28])
  | 1 => some ((e.bank.slots.take (slotCount ty)).map (fun w => (16, .payload w.toNat)))
  | 2 => some ([(8, .count e.placed.length), pad 56] ++ e.placed.flatMap (fun x => tokenFields x.1 x.2.1 x.2.2 eid))
  | 3 => if ty == .me then none
      else some ((e.v.take (vCount ty)).flatMap (fun v => tokenFields ⟨v, 0, none⟩ 0 0 eid))
  | 4 => some (e.a.map (fun w => (4, .payload (if ty == .me then 0 else w.toNat))) ++ e.bank.consts.map (fun w => (4, .payload w.toNat)) ++ [pad 16])
  | 5 => if ty != .pe then none
      else
        let flag (b : Bool) : Nat × Item := (1, .payload b.toNat)
        some (e.x.flatMap (fun a => a.regs.toList.map (fun r => (24, .payload r.toNat))) ++
          e.x.map (fun a => (2, .payload a.we.toNat)) ++ e.x.flatMap (fun a => [flag a.lost, flag (a.anyOv false)]) ++ [pad 8])
  | n => if 0x10 ≤ n && n ≤ 0x17 then
      let c := (s.group eid (n - 0x10)).c
      some ((List.range 7).map (fun k => (8, .count (nth c k 0))) ++ [(8, .time s.now)])
    else none

/-- DBGREAD: the item of the element goes to CONT through the filter of its partition (R50, R231). -/
def execDbgread (m : Am) (s : State) : Res :=
  match s.amCheck m .admin false with
  | .error s => .next s
  | .ok s =>
    let eid := m.operand.toNat % 65536
    let item := bitsOf m.operand.toNat 16 8
    let e := s.elem eid
    if 2 ^ 24 ≤ m.operand.toNat || !tileOk (tileOf eid) then .next (s.nak m nakOPERAND)
    else match s.debugItem eid item with
      | none => .next (s.nak m nakOPERAND)
      | some l =>
        if !s.contOk m then .next (s.nak m nakBADADDR)
        else if item < 6 && e.state != .held && e.state != .faulted then .next (s.nak m nakBUSY)
        else
          let answer (s : State) : State := (s.accept m).whenWritten (.complete 511 m.cont)
          match s.throughFilter (s.partOfCluster (clusterOf (tileOf eid))) (s.readPolicy eid) (if item < 6 then 12 else item - 0x10) l with
          | (none, s) => .next (answer s)
          | (some bs, s) => match s.writeFor 511 m.cont.toNat bs with
            | none => .next (s.nak m nakBADADDR)
            | some s => .next (answer s)

end Sys2Proof.Machine
end

