-- ==== Sys2Proof/Machine/Mmio.lean ====
section
/-! DEFINITION. The registers of device MMIO (R27): what each reads as, what a write of each does, and the host's accesses
(R28). A register is accessed whole; an access of some of its bytes leaves the others as they are (log 25). -/

namespace Sys2Proof.Machine

/-! ## Who may write (R27) -/

/-- A write that only VF 511 may make; any other is discarded and counted. -/
def State.admin (s : State) (who : BitVec 9) (f : State → State) : State := if who = 511 then f s else s.discard who

/-- A write that a VF of the partition or VF 511 may make. -/
def State.tenant (s : State) (who : BitVec 9) (p : Nat) (f : State → State) : State :=
  if who = 511 || (s.vf who.toNat).part.toNat = p then f s else s.discard who

/-- Whether a task of a partition is bound. -/
def State.bound (s : State) (p : Nat) : Bool := s.insts.any (fun x => x.2.part = p)

/-- Bits lo to lo + n - 1 of a written value. -/
def field (val : DWord) (lo n : Nat) : BitVec n := val.extractLsb' lo n

/-! ## VF table (R26) and clamps (R118) -/

def State.writeVfTable (s : State) (who : BitVec 9) (v : Nat) (val : DWord) : State :=
  s.admin who (fun s =>
    let x := s.vf v
    let en := val.getLsbD 63
    let part := field val 58 4
    let unfinished := s.launches.any (fun l => l.2.vf = v && l.2.live)
    if unfinished && (part ≠ x.part || (x.en && !en)) then s.discard who
    else s.modVf v (fun x =>
      let x := if en && !x.en then { x with expSeq := 0, outSeq := 0 } else x
      { x with en, urgentOk := val.getLsbD 62, part }))

def execVfTableWrite (who : BitVec 9) (v : Nat) (val : DWord) (s : State) : Res := .next (s.writeVfTable who v val)

/-- SATCNT one higher; it stops at 0xFFFF. -/
def satMore (n : BitVec 16) : BitVec 16 := if n = 0xFFFF then n else n + 1

def State.writeClamp (s : State) (who : BitVec 9) (v : Nat) (val : DWord) : State :=
  s.admin who (fun s => s.modVf v (fun x =>
    let op := field val 24 3
    let n := field val 27 4
    let sat := if val.getLsbD 47 then 0 else x.satcnt
    let sat := if op < 3 then satMore sat else sat
    let sat := if 8 < n then satMore sat else sat
    { x with satcnt := sat, maxop := if op < 3 then 3 else op, maxn := if 8 < n then 8 else n, maxus := field val 0 24 }))

def execVfClampWrite (who : BitVec 9) (v : Nat) (val : DWord) (s : State) : Res := .next (s.writeClamp who v val)

/-! ## Power registers (R108, R119, R120) and gates (R122 to R124) -/

def State.writeControl (s : State) (who : BitVec 9) (g : Nat) (val : DWord) : State :=
  s.admin who (fun s =>
    let rearm := field val 32 16
    let ceiling := field val 16 16
    if ceiling ≤ rearm then s.discard who
    else s.modCluster g (fun c =>
      { c with
        capw := field val 48 16, rearm, ceiling, autogate := val.getLsbD 5, hyst := val.getLsbD 3, baseop := field val 0 2,
        lim := if field val 48 16 = 0 then 0xFFFF else c.lim }.setPoint s.now))

def execClusterControlWrite (who : BitVec 9) (g : Nat) (val : DWord) (s : State) : Res := .next (s.writeControl who g val)

def State.writeSprint (s : State) (who : BitVec 9) (val : DWord) : State :=
  s.admin who (fun s =>
    let w := field val 0 16
    if 6000 < w then { s.discard who with sprintw := 6000 } else { s with sprintw := w })

def execSprintRegisterWrite (who : BitVec 9) (val : DWord) (s : State) : Res := .next (s.writeSprint who val)

def State.writeThrottle (s : State) (who : BitVec 9) (g : Nat) (val : DWord) : State :=
  s.admin who (fun s => s.modCluster g (fun c =>
    { c with hotw := field val 32 16, srdauto := val.getLsbD 4, srd := field val 0 4 }))

def execThrottleWrite (who : BitVec 9) (g : Nat) (val : DWord) (s : State) : Res := .next (s.writeThrottle who g val)

/-- A tile whose GREQ bit is cleared is ungated, unless it is retired (R124). -/
def State.ungateTile (s : State) (t : Nat) : State :=
  if (s.cluster (clusterOf t)).retired.getLsbD (tileBit t) then s
  else s.ungate t

/-- GREQ (R122, R123): a set bit gates the tile once it is unoccupied, a cleared one ungates it. -/
def State.writeGreq (s : State) (who : BitVec 9) (g : Nat) (val : DWord) : State :=
  s.admin who (fun s =>
    let old := (s.cluster g).greq
    let new := field val 0 36
    let s := s.modCluster g (fun c => { c with greq := new })
    (clusterTiles g).foldl (fun (s : State) t =>
      let b := tileBit t
      if new.getLsbD b then s.closeTile t else if old.getLsbD b then s.ungateTile t else s) s)

def execGateRequestWrite (who : BitVec 9) (g : Nat) (val : DWord) (s : State) : Res := .next (s.writeGreq who g val)

/-! ## Partition layout (R104) and retirement (R105) -/

/-- The lowest cluster whose PART names a partition. -/
def lowestCluster (cs : List Cluster) (p : Nat) : Option Nat := (List.range 16).find? (fun g => ((cs[g]?).map (·.part.toNat)) = some p)

def State.writeLayout (s : State) (who : BitVec 9) (g : Nat) (val : DWord) : State :=
  s.admin who (fun s =>
    let new := field val 0 8
    let c := s.cluster g
    let cs := upd s.clusters g (fun c => { c with part := new })
    let moved := s.launches.any (fun l => l.2.live && lowestCluster cs l.2.part ≠ lowestCluster s.clusters l.2.part)
    if (16 ≤ new.toNat && new ≠ 0xFF) || moved then s.discard who
    else if new = c.part then s
    else
      let former := c.old.getD c.part
      let s := { s with clusters := upd cs g (fun c => { c with old := some former }) }
      let s := if former.toNat < 16 then s.loseTiles former.toNat (clusterTiles g) else s
      s.joinPartition g)

def execPartitionLayoutWrite (who : BitVec 9) (g : Nat) (val : DWord) (s : State) : Res := .next (s.writeLayout who g val)

def State.writeRetired (s : State) (who : BitVec 9) (g : Nat) (val : DWord) : State :=
  s.admin who (fun s => (clusterTiles g).foldl (fun (s : State) t =>
    if val.getLsbD (tileBit t) then s.retireTile t else s) s)

def execRetirementWrite (who : BitVec 9) (g : Nat) (val : DWord) (s : State) : Res := .next (s.writeRetired who g val)

/-! ## Ownership (R163) and the save pool (R96) -/

/-- Whether a unit lies in the configured pool of a partition. -/
def Partition.poolHas (p : Partition) (u : Nat) : Bool :=
  p.poolSize ≠ 0 && p.poolBase.toNat * 2 ^ 16 / 2 ^ 30 ≤ u &&
  u ≤ (p.poolBase.toNat * 2 ^ 16 + p.poolSize.toNat * 2 ^ 16 - 1) / 2 ^ 30

def State.writeOwner (s : State) (who : BitVec 9) (u : Nat) (val : Byte) : State :=
  s.admin who (fun s =>
    let x := s.unit u
    let new := val.extractLsb' 0 5
    let old := x.owner
    let busy (o : BitVec 5) : Bool := o.toNat < 16 && s.bound o.toNat
    let pooled := (List.range 16).any (fun p => new.toNat ≠ p && (s.part p).poolHas u)
    if (17 ≤ new.toNat && new.toNat ≤ 30) || x.scrub || busy old || busy new || pooled then s.discard who
    else
      { s.modUnit u (fun x => { x with owner := new, scrub := old.toNat < 16 && new ≠ old }) with walkCache := [] })

def execOwnershipWrite (who : BitVec 9) (u : Nat) (val : Byte) (s : State) : Res := .next (s.writeOwner who u val)

/-- The ownership units that a pool touches. -/
def poolUnits (base size : Nat) : List Nat :=
  let u0 := base * 2 ^ 16 / 2 ^ 30
  (List.range ((base * 2 ^ 16 + size * 2 ^ 16 - 1) / 2 ^ 30 + 1 - u0)).map (u0 + ·)

def State.writePool (s : State) (who : BitVec 9) (p : Nat) (val : DWord) : State :=
  s.admin who (fun s =>
    let base := field val 36 28
    let size := field val 0 32
    let owned := size = 0 ||
      (base.toNat * 2 ^ 16 + size.toNat * 2 ^ 16 ≤ 2 ^ 42 &&
        (poolUnits base.toNat size.toNat).all (fun u => (s.unit u).owner.toNat = p))
    if s.bound p || !(s.part p).poolRuns.isEmpty || !owned then s.discard who
    else s.modPart p (fun x => { x with poolBase := base, poolSize := size }))

def execSavePoolWrite (who : BitVec 9) (part : Nat) (val : DWord) (s : State) : Res := .next (s.writePool who part val)

/-! ## Tenant key (R46) and attestation (R45) -/

/-- A value with its 64-bit word k replaced. -/
def setWord {n : Nat} (x : BitVec n) (k : Nat) (val : DWord) : BitVec n :=
  (x &&& ~~~(BitVec.ofNat n (2 ^ 64 - 1) <<< (64 * k))) ||| (BitVec.ofNat n val.toNat <<< (64 * k))

/-- Writing the key makes the active policy "none". -/
def State.writeTkey (s : State) (who : BitVec 9) (p idx : Nat) (val : DWord) : State :=
  s.admin who (fun s =>
    if s.bound p then s.discard who
    else (s.modPart p (fun x => { x with tkey := setWord x.tkey idx val, active := [] })).policySettle p)

def execTkeyWrite (who : BitVec 9) (part idx : Nat) (val : DWord) (s : State) : Res := .next (s.writeTkey who part idx val)

/-- Bytes 0x000 to 0x3BF of the report (R45). -/
def State.reportBody (s : State) (part : Nat) : List Byte :=
  let vfs (p : Nat) : Nat := ((List.range 511).filter (fun v => (s.vf v).part.toNat = p)).length
  let entry (p : Nat) : List Byte :=
    let x := s.part p
    (if x.tkey = 0 then List.replicate 32 0 else sha256 x.tkeyBytes) ++ leBytes 8 (policySeq x.active) ++ leBytes 2 (vfs p) ++ leBytes 6 0
  [0x41, 0x54, 0x52, 0x31] ++ leBytes 4 1 ++ leBytes 1 s.pkgId.toNat ++ leBytes 7 0 ++ leBytes 32 (s.part part).nonce.toNat ++
  leBytes 32 s.firmware.2.toNat ++ leBytes 32 Config.identityKeyHash.toNat ++ s.clusters.map (·.part) ++
  (List.range 16).flatMap entry ++ leBytes 8 s.now ++ leBytes 56 0

/-- The report with its signature. -/
def State.report1024 (s : State) (part : Nat) : List Byte :=
  let b := s.reportBody part
  b ++ leBytes 64 (Config.attestationSignature (BitVec.ofNat 256 (leNat (sha256 b)))).toNat

/-- A write to GO: with 1 the report goes to the destination, and once it is written COMPLETE to the writing VF (R45); a destination that is not
aligned or not writable gets none of both (log 26). -/
def State.writeGo (s : State) (who : BitVec 9) (part : Nat) (val : DWord) : State :=
  s.tenant who part (fun s =>
    let dest := (s.part part).attDest
    if !val.getLsbD 0 || dest.toNat % 64 ≠ 0 then s
    else match s.writeFor who.toNat dest.toNat (s.report1024 part) with
      | none => s
      | some s => s.whenWritten (.complete who.toNat dest))

def execAttestationGo (who : BitVec 9) (part : Nat) (val : DWord) (s : State) : Res := .next (s.writeGo who part val)

/-! ## Record buffers (R216) -/

def State.writeRecBuf (s : State) (who : BitVec 9) (p : Nat) (trace : Bool) (word : Nat) (val : DWord) : State :=
  s.tenant who p (fun s =>
    let put (s : State) (f : RecBuf → RecBuf) : State := s.modPart p (fun x => x.setBuf trace (f (x.buf trace)))
    let fresh (b : RecBuf) : RecBuf := { b with nextOff := 0, dropped := 0 }
    let size := field val 0 24
    match word with
    | 0 =>
      let v := field val 55 9
      if v = 511 || (s.vf v.toNat).part.toNat ≠ p || s.bound p then s.discard who
      else put s (fun b => fresh { b with vf := v, va := field val 6 43 })
    | 1 =>
      let s := if val.getLsbD 39 then put s fresh else s
      if s.bound p then (if size ≠ ((s.part p).buf trace).size then s.discard who else s)
      else put s (fun b => fresh { b with size })
    | _ => s)

def execRecordBufferWrite (who : BitVec 9) (part : Nat) (trace : Bool) (word : Nat) (val : DWord) (s : State) : Res :=
  .next (s.writeRecBuf who part trace word val)

/-! ## The other registers (R27, R36, R69, R85, R108) -/

/-- Where a register of device MMIO stands: one constructor for each block that a row of its own writes, and the plain
ones. -/
inductive Reg where
  | status (g : Nat) | control (g : Nat) | throttle (g : Nat) | sprint | factors (hi : Bool)
  | greq (g : Nat) | gated (g : Nat) | layout (g : Nat) | retired (g : Nat) | mac (k : Nat) | inject (g : Nat)
  | clamp (v : Nat) | owner (u : Nat) | vf (v : Nat)
  | handler (p k : Nat) | sched (p : Nat) | pool (p : Nat) | rec_ (p : Nat) (trace : Bool) (word : Nat)
  | nonce (p k : Nat) | dest (p : Nat) | go (p : Nat) | tkey (p k : Nat) | active (p k : Nat) | drops (p c : Nat)
  | window (n : Nat)
  /-- Inside the device control block, a partition page, or nowhere. -/
  | none_ (ctrl : Bool) (page : Option Nat)
deriving DecidableEq, Repr

/-- A register of a partition control page. -/
def pageReg (p r : Nat) : Reg :=
  if r < 0x40 then .handler p (r / 4)
  else if 0x80 ≤ r && r < 0x88 then .sched p
  else if 0xC0 ≤ r && r < 0xC8 then .pool p
  else if 0xC8 ≤ r && r < 0xE0 then .rec_ p false ((r - 0xC8) / 8)
  else if 0xE0 ≤ r && r < 0xF8 then .rec_ p true ((r - 0xE0) / 8)
  else if 0x100 ≤ r && r < 0x120 then .nonce p ((r - 0x100) / 8)
  else if 0x120 ≤ r && r < 0x128 then .dest p
  else if 0x128 ≤ r && r < 0x130 then .go p
  else if 0x200 ≤ r && r < 0x240 then .tkey p ((r - 0x200) / 8)
  else if 0x400 ≤ r && r < 0x600 then .active p ((r - 0x400) / 8)
  else if 0x600 ≤ r && r < 0x660 then .drops p ((r - 0x600) / 4)
  else .none_ false (some p)

/-- A register of the device control block. -/
def ctrlReg (o : Nat) : Reg :=
  if 0x1000 ≤ o && o < 0x1080 then .status ((o - 0x1000) / 8)
  else if 0x1080 ≤ o && o < 0x1100 then .control ((o - 0x1080) / 8)
  else if 0x1100 ≤ o && o < 0x1180 then .throttle ((o - 0x1100) / 8)
  else if 0x1180 ≤ o && o < 0x1188 then .sprint
  else if 0x1188 ≤ o && o < 0x1190 then .factors false
  else if 0x1190 ≤ o && o < 0x1198 then .factors true
  else if 0x1200 ≤ o && o < 0x1300 then (if o % 16 < 8 then .greq ((o - 0x1200) / 16) else .gated ((o - 0x1200) / 16))
  else if 0x1300 ≤ o && o < 0x1380 then .layout ((o - 0x1300) / 8)
  else if 0x1380 ≤ o && o < 0x1400 then .retired ((o - 0x1380) / 8)
  else if 0x1500 ≤ o && o < 0x1520 then .mac ((o - 0x1500) / 8)
  else if 0x2000 ≤ o && o < 0x2080 then .inject ((o - 0x2000) / 8)
  else if 0x4000 ≤ o && o < 0x5000 then .clamp ((o - 0x4000) / 8)
  else if 0x8000 ≤ o && o < 0x9000 then .owner (o - 0x8000)
  else .none_ true none

/-- The register that holds the byte at an offset of device MMIO. -/
def mmioRegAt (o : Nat) : Reg :=
  if o < 0x10000 then ctrlReg o
  else if o < 0x11000 then .vf ((o - 0x10000) / 8)
  else if 0x100000 ≤ o && o < 0x200000 then pageReg (o / 0x10000 - 0x10) (o % 0x10000)
  else if 0x10000000 ≤ o && o < 0x11000000 then .window (o - 0x10000000)
  else .none_ false none

/-- The width in bytes of a register. -/
def Reg.width : Reg → Nat
  | .owner _ | .window _ => 1
  | .handler _ _ | .drops _ _ => 4
  | _ => 8

/-- A handler table entry. -/
def Handler.code (h : Handler) : Nat := h.task.toNat + h.port.toNat * 2 ^ 16 + h.hen.toNat * 2 ^ 31

/-- Whether FWLOAD has opened the window. -/
def State.windowOpen (s : State) : Bool := match s.boot with
  | .receiver (some _) | .running (some _) => true
  | _ => false

/-- The residencies of a partition that have not reached its MINRES reach it later, though they reached an earlier value (R69, R71). -/
def State.rearmMinres (s : State) (p : Nat) : State :=
  { s with insts := s.insts.map (fun x =>
      (x.1, if x.2.part = p && s.now < x.2.commitTime + (s.part p).minres.toNat * 1000 then { x.2 with minresTaken := false } else x.2)) }

/-- REGISTER_WRITE: a register without behaviour of its own. A register that another row writes does nothing here. -/
def State.writePlain (s : State) (who : BitVec 9) (r : Reg) (val : DWord) : State :=
  match r with
  | .factors hi => s.admin who (fun s => { s with factors := s.factors.mapIdx (fun i f =>
      if (if hi then 4 ≤ i else i < 3) then field val (16 * (i % 4)) 16 else f) })
  | .inject g => s.admin who (fun s => s.modCluster g (fun c =>
      { c with injEn := val.getLsbD 63, injDepth := field val 16 16, injRefill := field val 0 16 }))
  | .handler p k => s.tenant who p (fun s => s.modPart p (fun x => { x with
      handlers := upd x.handlers k (fun h => { h with hen := val.getLsbD 31, port := field val 16 2, task := field val 0 16 }) }))
  | .sched p => s.admin who (fun s => (s.modPart p (fun x => { x with minres := field val 0 16 })).rearmMinres p)
  | .nonce p k => s.tenant who p (fun s => s.modPart p (fun x => { x with nonce := setWord x.nonce k val }))
  | .dest p => s.tenant who p (fun s => s.modPart p (fun x => { x with attDest := val }))
  | .window n => s.admin who (fun s =>
      if s.windowOpen then { s with window := putByte s.window n (field val 0 8) } else s.discard who)
  | .status _ | .gated _ | .mac _ | .none_ true _ => s.admin who id
  | .active p _ | .drops p _ | .none_ false (some p) => s.tenant who p id
  | _ => s

def execRegisterWrite (who : BitVec 9) (off : Nat) (val : DWord) (s : State) : Res := .next (s.writePlain who (mmioRegAt off) val)

/-- A write of a whole register, by whichever row it is. -/
def State.writeReg (s : State) (who : BitVec 9) (r : Reg) (val : DWord) : State :=
  match r with
  | .control g => s.writeControl who g val
  | .throttle g => s.writeThrottle who g val
  | .sprint => s.writeSprint who val
  | .greq g => s.writeGreq who g val
  | .layout g => s.writeLayout who g val
  | .retired g => s.writeRetired who g val
  | .clamp v => s.writeClamp who v val
  | .owner u => s.writeOwner who u (field val 0 8)
  | .vf v => s.writeVfTable who v val
  | .pool p => s.writePool who p val
  | .rec_ p t w => s.writeRecBuf who p t w val
  | .go p => s.writeGo who p val
  | .tkey p k => s.writeTkey who p k val
  | _ => s.writePlain who r val

/-! ## Reads -/

/-- The status register of a cluster (R108). -/
def State.statusReg (s : State) (who : BitVec 9) (g : Nat) : Nat :=
  let c := s.cluster g
  let p := s.partOfCluster g
  let live := (c.slots.filter (·.isSome)).length
  s.shown who p 14 (.plain c.pwr.toNat) * 2 ^ 48 + s.shown who p 14 (.plain c.cshare.toNat) * 2 ^ 32 +
  s.shown who p 15 (.count live) * 2 ^ 27 + s.shown who p 15 (.plain c.opnow) * 2 ^ 24 +
  s.shown who p 15 (.plain c.melt.code) * 2 ^ 16 + s.shown who p 15 (.plain c.melt16)

/-- Whether a tile shows as gated (R122). -/
def Gate.shows : Gate → Bool
  | .gated | .ungating _ => true
  | _ => false

/-- What a register reads as. -/
def State.readReg (s : State) (who : BitVec 9) (r : Reg) : Nat :=
  match r with
  | .status g => s.statusReg who g
  | .control g =>
    let c := s.cluster g
    c.capw.toNat * 2 ^ 48 + c.rearm.toNat * 2 ^ 32 + c.ceiling.toNat * 2 ^ 16 + c.autogate.toNat * 2 ^ 5 + c.hyst.toNat * 2 ^ 3 +
    c.baseop.toNat
  | .throttle g =>
    let c := s.cluster g
    c.hotw.toNat * 2 ^ 32 + s.shown who (s.partOfCluster g) 14 (.plain c.srdNow) * 2 ^ 8 + c.srdauto.toNat * 2 ^ 4 + c.srd.toNat
  | .sprint => s.pkgw.toNat * 2 ^ 32 + s.sprintw.toNat
  | .factors hi => total ((List.range 4).map (fun i => (nth s.factors (i + if hi then 4 else 0) 0).toNat * 2 ^ (16 * i)))
  | .greq g => (s.cluster g).greq.toNat
  | .gated g => total ((clusterTiles g).map (fun t =>
      if (s.cluster g).retired.getLsbD (tileBit t) then 2 ^ tileBit t
      else s.shown who (s.partOfCluster g) 14 (.plain (s.tile t).gate.shows.toNat) * 2 ^ tileBit t))
  | .layout g => (s.cluster g).part.toNat
  | .retired g => (s.cluster g).retired.toNat
  | .mac k => (Config.ethMac k).toNat
  | .inject g =>
    let c := s.cluster g
    c.injEn.toNat * 2 ^ 63 + s.shown who (s.partOfCluster g) 14 (.plain c.reff) * 2 ^ 32 + c.injDepth.toNat * 2 ^ 16 + c.injRefill.toNat
  | .clamp v =>
    let x := s.vf v
    s.shown who (if v = 511 then none else some x.part.toNat) 15 (.count x.satcnt.toNat) * 2 ^ 48 + x.maxn.toNat * 2 ^ 27 + x.maxop.toNat * 2 ^ 24 + x.maxus.toNat
  | .owner u => (s.unit u).scrub.toNat * 2 ^ 7 + (s.unit u).owner.toNat
  | .vf v =>
    let x := s.vf v
    x.en.toNat * 2 ^ 63 + x.urgentOk.toNat * 2 ^ 62 + x.part.toNat * 2 ^ 58 + x.root.toNat
  | .handler p k => (nth (s.part p).handlers k { }).code
  | .sched p =>
    s.shown who (some p) 16 (.count (min 0xFFFF (s.insts.filter (fun x => x.2.part = p)).length)) * 2 ^ 16 + (s.part p).minres.toNat
  | .pool p => (s.part p).poolBase.toNat * 2 ^ 36 + (s.part p).poolSize.toNat
  | .rec_ p t w =>
    let b := (s.part p).buf t
    let cls := if t then 8 else 12
    match w with
    | 0 => b.vf.toNat * 2 ^ 55 + b.va.toNat * 2 ^ 6
    | 1 => s.shown who (some p) cls (.count b.dropped.toNat) * 2 ^ 40 + b.size.toNat
    | _ => s.shown who (some p) cls (.count b.nextOff.toNat)
  | .nonce p k => bitsOf (s.part p).nonce.toNat (64 * k) 64
  | .dest p => (s.part p).attDest.toNat
  | .go _ => 0
  | .tkey p k => bitsOf (s.part p).tkey.toNat (64 * k) 64
  | .active p k => leNat (((s.part p).active.drop (8 * k)).take 8)
  | .drops p c => s.shown who (some p) c (.count (nth (s.part p).drops c 0))
  | .window n => (byteAt s.window n).toNat
  | .none_ _ _ => 0

/-! ## Accesses of bytes -/

/-- A byte of device MMIO as a VF reads it. -/
def State.mmioByte (s : State) (who : BitVec 9) (o : Nat) : Byte :=
  let r := mmioRegAt o
  BitVec.ofNat 8 (s.readReg who r / 2 ^ (8 * (o % r.width)))

/-- n bytes of device MMIO from a physical address on. -/
def State.mmioRead (s : State) (who : BitVec 9) (pa n : Nat) : List Byte := (List.range n).map (fun i => s.mmioByte who (pa % 2 ^ 42 + i))

/-- The bytes of a list that fall into the register of the first of them. -/
def regBytes (bs : List (Nat × Byte)) : List (Nat × Byte) :=
  match bs with
  | [] => []
  | b :: _ => bs.filter (fun x => mmioRegAt x.1 = mmioRegAt b.1 && x.1 / (mmioRegAt b.1).width = b.1 / (mmioRegAt b.1).width)

/-- A write of the bytes of one register; the bytes not written keep what the register holds. -/
def State.mmioReg (s : State) (who : BitVec 9) (bs : List (Nat × Byte)) : State :=
  match bs with
  | [] => s
  | b :: _ =>
    let r := mmioRegAt b.1
    let base := b.1 - b.1 % r.width
    let now := leBytes r.width (s.readReg 0 r)
    let val := now.mapIdx (fun i x => ((bs.find? (fun c => c.1 = base + i)).map (·.2)).getD x)
    s.writeReg who r (BitVec.ofNat 64 (leNat val))

/-- Bytes written to device MMIO, register by register, ascending. -/
def State.mmioPut : Nat → State → BitVec 9 → List (Nat × Byte) → State
  | 0, s, _, _ => s
  | fuel + 1, s, who, bs =>
    match bs with
    | [] => s
    | _ =>
      let one := regBytes bs
      State.mmioPut fuel (s.mmioReg who one) who (bs.filter (fun b => !one.contains b))

def State.mmioWrite (s : State) (who : BitVec 9) (bs : List (Nat × Byte)) : State :=
  State.mmioPut bs.length s who (bs.map (fun b => (b.1 % 2 ^ 42, b.2)))

/-! ## Host accesses (R28, R162 to R164) -/

/-- The parts of a host access with their homes, granule by granule; none where one fails. -/
def State.hostHomes (s : State) (v va n : Nat) (k : AccessWant) : Option (List (Nat × Nat × Home)) :=
  (granulesOf va n).foldr (fun g acc =>
    match acc, s.hostHome v g.1 k with
    | some l, some h => some ((g.1, g.2, h) :: l)
    | _, _ => none) (some [])

/-- Whether an access of a VF waits: for a unit under scrub, its page tables' or its home's, or for the link (R15, R16, R163). -/
def State.hostWaits (s : State) (v va : Nat) (k : AccessWant) : Bool :=
  s.tableWaits v va || ((s.hostHome v va k).map (s.homeWaits none)).getD false

/-- An access from outside waits; it comes again in the next ns. -/
def State.hold (s : State) (i : Instr) : State := { s with held := s.held ++ [i] }

/-- The host gets an answer. -/
def State.tellHost (s : State) (a : HostAnswer) : State := { s with hostLog := s.hostLog ++ [a] }

/-- The parts of a host access in other packages are asked for, once; whether all of them have been answered (R15, R16). -/
def State.hostAsk (s : State) (i : Instr) (write : Bool) (l : List (Nat × Nat × Home)) : Bool × State :=
  let s := if s.links.any (·.owner = .host i) then s
    else l.foldl (fun (s : State) x => match x.2.2 with
      | .remote pkg _ pa _ => s.postLink (.host i) pkg pa x.2.1 write
      | _ => s) s
  (s.links.all (fun r => r.owner ≠ .host i || r.answer.isSome), s)

/-- Whether no part of a host access was refused or lost with its port. -/
def State.hostTaken (s : State) (i : Instr) : Bool := s.links.all (fun r => r.owner ≠ .host i || (r.answer matches some (.done _)))

/-- A granule of a host read: bytes and poison. -/
def State.hostGet (s : State) (i : Instr) (v n : Nat) (h : Home) : List Byte × Bool :=
  match h with
  | .hbm pa => s.readHbm pa n
  | .mmio pa => (s.mmioRead (BitVec.ofNat 9 v) pa n, false)
  | .remote pkg _ pa _ => match (s.links.find? (fun r => r.owner = .host i && r.pkg = pkg && r.pa = pa)).bind (·.answer) with
    | some (.done x) => remoteBytes x pa n
    | _ => ([], false)
  | _ => ([], false)

/-- HOST_READ (R28). -/
def execHostRead (vf : BitVec 9) (va : DWord) (len : Nat) (s : State) : Res :=
  let v := vf.toNat
  let a := va.toNat
  let i : Instr := .hostRead vf va len
  if (granulesOf a len).any (fun g => s.hostWaits v g.1 .load) then .next (s.hold i)
  else match s.hostHomes v a len .load with
    | none => .next (s.tellHost (.error v a))
    | some l => match s.hostAsk i false l with
      | (false, s) => .next (s.hold i)
      | (true, s) =>
        let got := l.map (fun x => s.hostGet i v x.2.1 x.2.2)
        .next ((s.dropLinks (.host i)).tellHost (if s.hostTaken i then .data v a (got.flatMap (·.1)) (got.any (·.2)) else .error v a))

/-- A part of a host write at its home. -/
def State.hostPut (s : State) (v : Nat) (h : Home) (bs : List Byte) : State :=
  match h with
  | .hbm pa => s.writeHbm (spreadBytes pa bs)
  | .mmio pa => s.mmioWrite (BitVec.ofNat 9 v) (spreadBytes pa bs)
  | _ => s

/-- HOST_WRITE (R28): every part is translated, and what lies in other packages is written there, before any part is written here. -/
def execHostWrite (vf : BitVec 9) (va : DWord) (bytes : List Byte) (s : State) : Res :=
  let v := vf.toNat
  let a := va.toNat
  let i : Instr := .hostWrite vf va bytes
  if (granulesOf a bytes.length).any (fun g => s.hostWaits v g.1 .store) then .next (s.hold i)
  else match s.hostHomes v a bytes.length .store with
    | none => .next (s.tellHost (.error v a))
    | some l => match s.hostAsk i true l with
      | (false, s) => .next (s.hold i)
      | (true, s) =>
        if s.hostTaken i then
          .next ((l.foldl (fun (s : State) x => s.hostPut v x.2.2 ((bytes.drop (x.1 - a)).take x.2.1)) (s.dropLinks (.host i))).tellHost
            (.done v a))
        else .next ((s.dropLinks (.host i)).tellHost (.error v a))

end Sys2Proof.Machine
end

