-- ==== Sys2Proof/Machine/Home.lean ====
section
/-! DEFINITION. Accesses at their homes (R169 to R176, R182), the granules of copies (R156, R185), accesses of other packages
(R14, R162) and soft errors (R12, R173). -/

namespace Sys2Proof.Machine

/-! ## One event on HBM -/

/-- One lane of a read-modify-write on HBM: a marked word is not updated (R171, R182). -/
def State.rmwHbm (s : State) (pa : Nat) (new : Word → Option Word) (frozen : Bool) : Word × Bool × State :=
  let (bs, bad) := s.readHbm pa 4
  let old := wordOfBytes bs
  if bad || frozen then (old, bad, s)
  else match new old with
    | some v => (old, false, s.writeHbm (spreadBytes pa (leBytes 4 v.toNat)))
    | none => (old, false, s)

/-- Lanes of a read-modify-write on HBM in ascending order: old values and poison. -/
def State.rmwLanes (s : State) (l : List (Nat × Nat)) (new : Nat → Word → Option Word) (frozen : Bool) :
    List (Nat × Word) × Bool × State :=
  l.foldl (fun (acc : List (Nat × Word) × Bool × State) x =>
    let r := acc.2.2.rmwHbm x.2 (new x.1) frozen
    (acc.1 ++ [(x.1, r.1)], acc.2.1 || r.2.1, r.2.2)) ([], frozen, s)

/-- A masked write (R201): a byte written whole counts as a clean byte; one written in part keeps a marker. -/
def State.mergeHbm (s : State) (pa : Nat) (bs : List (Nat × Byte × Byte)) : State :=
  let whole := bs.filter (fun b => b.2.1 = 0xFF)
  let s := s.writeHbm (whole.map (fun b => (pa + b.1, b.2.2)))
  { s with hbm := bs.foldl (fun m b =>
      putByte m (pa + b.1) ((byteAt m (pa + b.1) &&& ~~~b.2.1) ||| (b.2.2 &&& b.2.1))) s.hbm }

/-- What an event gives its operation: data, old values, poison. -/
structure Got where
  data : List (Nat × Byte) := []
  old : List (Nat × Word) := []
  poison : Bool := false
deriving DecidableEq, Repr

/-- The operand of a lane. -/
def laneOp {α : Type} (l : List (Nat × α)) (d : α) (k : Nat) : α := ((l.find? (fun x => x.1 = k)).map (·.2)).getD d

/-- An event performs on HBM. -/
def State.performHbm (s : State) (pa : Nat) (k : AccKind) : Got × State :=
  match k with
  | .load off len =>
    let r := s.readHbm pa len
    ({ data := spreadBytes off r.1, poison := r.2 }, s)
  | .store bs true => ({ poison := true }, s.poisonHbm (bs.map (pa + ·.1)))
  | .store bs false => ({ }, s.writeHbm (bs.map (fun b => (pa + b.1, b.2))))
  | .merge bs true => ({ poison := true }, s.poisonHbm (bs.map (pa + ·.1)))
  | .merge bs false => ({ }, s.mergeHbm pa bs)
  | .atomic op l poison =>
    let r := s.rmwLanes (l.map (fun x => (x.1, pa + x.2.1)))
      (fun k old => some (atomicOp op old (laneOp (l.map (fun x => (x.1, x.2.2))) 0 k))) poison
    ({ old := r.1, poison := r.2.1 }, r.2.2)
  | .cas l poison =>
    let r := s.rmwLanes (l.map (fun x => (x.1, pa + x.2.1)))
      (fun k old => let o := laneOp (l.map (fun x => (x.1, x.2.2))) (0, 0) k
        casOp o.1 o.2 old) poison
    ({ old := r.1, poison := r.2.1 }, r.2.2)

/-- An event performs at device MMIO, register by register (R322). -/
def State.performMmio (s : State) (v pa : Nat) (k : AccKind) : Got × State :=
  match k with
  | .load off len => ({ data := spreadBytes off (s.mmioRead (BitVec.ofNat 9 v) pa len) }, s)
  | .store bs poison => ({ poison }, s.mmioWrite (BitVec.ofNat 9 v) (bs.map (fun b => (pa + b.1, b.2))))
  | _ => ({ }, s)

/-- An event performs at the bank of another tile (R311). -/
def State.performSram (s : State) (tile addr : Nat) (k : AccKind) : Got × State :=
  let t := s.tile tile
  match k with
  | .store bs poison =>
    ({ poison }, s.setTile tile ((t.write (bs.map (fun b => (addr + b.1, b.2))) poison).bankEvents 1 0 1))
  | .atomic op l poison =>
    let r := t.rmwLanes (l.map (fun x => (x.1, sramWrap (addr + x.2.1))))
      (fun k old => some (atomicOp op old (laneOp (l.map (fun x => (x.1, x.2.2))) 0 k))) poison
    ({ old := r.1, poison := r.2.1 }, s.setTile tile (r.2.2.bankEvents 1 1 1))
  | _ => ({ }, s)

/-- An event performs in another package at an address there: what it returns is that package's, and a poisoned word reads zero
(R14, R162, R169); none where it refuses. -/
def State.performRemote (s : State) (pa : Nat) (k : AccKind) : Option Got × State :=
  let (x, s) := s.takeFresh
  if Config.remoteRefuses x pa then (none, s)
  else
    let olds (ls : List (Nat × Nat)) (poison : Bool) : Got :=
      let words := ls.map (fun l => (l.1, remoteBytes x (pa + l.2) 4))
      { old := words.map (fun w => (w.1, wordOfBytes w.2.1)), poison := poison || words.any (·.2.2) }
    match k with
    | .load off len =>
      let r := remoteBytes x pa len
      (some { data := spreadBytes off r.1, poison := r.2 }, s)
    | .store _ poison | .merge _ poison => (some { poison }, s)
    | .atomic _ l poison => (some (olds (l.map (fun x => (x.1, x.2.1))) poison), s)
    | .cas l poison => (some (olds (l.map (fun x => (x.1, x.2.1))) poison), s)

/-! ## HOME_EVENT (R175) -/

/-- What an event gave enters its operation. -/
def MemOp.take (op : MemOp) (g : Got) : MemOp :=
  { op with
    data := op.data ++ g.data, poison := op.poison || g.poison,
    lanes := match op.result with
      | .old => lanesOf (fun k => match g.old.find? (fun x => x.1 = k) with
          | some x => some x.2
          | none => laneAt op.lanes k)
      | _ => op.lanes }

/-- An access has performed: its operation takes what it gave, and the access ends. -/
def State.endAccess (s : State) (a : Access) (f : MemOp → MemOp) : State :=
  let s := match s.ops.find a.op with
    | some op => { s with ops := s.ops.put a.op (f op) }
    | none => s
  { s with accs := s.accs.drop a.id }.settle a.op a.eid

/-- Whether the target tile of a remote SE operation takes it (R123, R311). -/
def State.sramOpen (s : State) (eid tile : Nat) : Bool :=
  (s.tile tile).gate == .powered && s.partOfCluster (clusterOf tile) == s.partOfCluster (clusterOf (tileOf eid))

/-- Whether a tile has accepted an access that waits at its bank: it performs, also where the tile has closed since (R123, R151). -/
def State.atBank (s : State) (tile acc : Nat) : Bool :=
  (s.tile tile).bankWaits.any (fun w => !w.copy && w.acc = acc) || (s.tile tile).keptFor.contains acc

/-- A remote SE operation refused: NULL where an answer was asked for, else a fault of the sender (R123, R311). -/
def State.refuseSram (s : State) (a : Access) (tile addr : Nat) : State :=
  let s := s.countTile tile 3 6 1
  match (s.ops.find a.op).bind (·.entry) with
  | some _ => s.endAccess a (fun op => { op with refused := true })
  | none => s.failOp a (fMEMORY, cGATED, tile * 2 ^ 32 + addr)

/-- The message of an access that is about to perform. -/
def State.accMsg (s : State) (a : Access) : Option Msg :=
  (s.track.find? (fun m => m.body == .access a.id)).bind (fun m => s.arriving m.id)

/-- An access reaches its home on the track. -/
def State.arrive (s : State) (a : Access) (m : Msg) : State :=
  match a.home with
  | .unset => s
  | .hbm pa =>
    if s.scrubbing pa then s
    else
      let (g, s) := (s.dropMsg m.id).performHbm pa a.kind
      s.endAccess a (·.take g)
  | .mmio pa =>
    let (g, s) := (s.dropMsg m.id).performMmio (s.vfOf a.eid) pa a.kind
    s.endAccess a (·.take g)
  | .sram t addr =>
    if s.sramOpen a.eid t || s.atBank t a.id then
      match s.askBank t false a.id (addr / 64) with
      | (false, s) => s
      | (true, s) =>
        let (g, s) := ((s.dropMsg m.id).countTile t 3 5 1).performSram t addr a.kind
        s.endAccess a (·.take g)
    else (s.dropMsg m.id).refuseSram a t addr
  | .remote pkg tag pa _ =>
    match s.aqricPort pkg (pa / 64) with
    | .down => (s.dropMsg m.id).failOp a (fLINK, cAQRIC, 0)
    | .waits => s
    | .port p =>
      let (n, s) := (s.dropMsg m.id).newId
      ({ s with accs := s.accs.put a.id { a with home := .remote pkg tag pa p, stage := .aqric n } }).settle a.op a.eid

/-- An access performs in the remote package and its answer comes back. -/
def State.remoteDone (s : State) (a : Access) (pa : Nat) : State :=
  match s.performRemote pa a.kind with
  | (some g, s) => s.endAccess a (·.take g)
  | (none, s) => s.failOp a (fMEMORY, cPERMREMOTE, a.va)

/-- Whether an access of this package to the same granule that the link was asked for earlier is still on it: their order holds
across it (R15, R176). -/
def State.overtakes (s : State) (pkg granule order : Nat) : Bool :=
  s.accs.any (fun x => match x.2.home, x.2.stage with
    | .remote p _ pa _, .aqric n => p = pkg && pa / 64 = granule && n < order
    | _, _ => false) ||
  s.links.any (fun r => r.answer.isNone && r.pkg = pkg && r.pa / 64 = granule && r.id < order)

/-- An access that no operation makes performs in the other package, or is refused there; a write is done with (R15, R162). -/
def State.linkDone (s : State) (r : LinkReq) : State :=
  if r.answer.isSome || r.port.isNone || s.overtakes r.pkg (r.pa / 64) r.id then s
  else
    let (x, s) := s.takeFresh
    let a : LinkAnswer := if Config.remoteRefuses x r.pa then .refused else .done x
    { s with links := if r.owner = .write then s.links.filter (·.id ≠ r.id)
        else s.links.map (fun y => if y.id = r.id then { y with answer := some a } else y) }

/-! ## Copies (R156, R171, R185) -/

/-- Whether an earlier access of the issuing element has still to perform: the fork of a copy (R185). -/
def State.forkWaits (s : State) (c : Copy) : Bool :=
  (s.elem c.eid).inflight.any (fun f => f.seq < c.id) || s.accs.any (fun a => a.2.eid = c.eid && a.2.op < c.id)

/-- A copy leaves its tile: its entry is free. -/
def State.dropCopy (s : State) (tile : Nat) (c : Copy) : State :=
  let s := s.modTile tile (fun t => { t with copies := t.copies.filter (fun d => d.id ≠ c.id) })
  s.modElem c.eid (·.freeEntry c.entry)

/-- A copy stops in a fault of its element, or in the fault of a port. -/
def State.failCopy (s : State) (tile : Nat) (c : Copy) (f : Nat × Nat × Nat) (port : Option Nat := none) : State :=
  let s := s.dropCopy tile c
  match port with
  | some p => s.takePortFault c.eid p f.2.1 (c.firing.entries c.eid 5)
  | none => s.takeFault c.eid f.1 f.2.1 f.2.2 (some c.firing.slot) c.firing.word (c.firing.entries c.eid 5)

/-- The eight words of a granule; a marked word is none. -/
def granuleWords (bytes : Nat → List Byte × Bool) : List (Option (List Byte)) :=
  (List.range 8).map (fun i => match bytes (8 * i) with
    | (bs, false) => some bs
    | (_, true) => none)

/-- The words of a granule written to HBM, markers included. -/
def State.putHbmWords (s : State) (pa : Nat) (ws : List (Option (List Byte))) : State :=
  (ws.mapIdx (fun i w => (pa + 8 * i, w))).foldl (fun (s : State) x => match x.2 with
    | some bs => s.writeHbm (spreadBytes x.1 bs)
    | none => s.poisonHbm [x.1]) s

/-- The words of a granule written to a tile's SRAM. -/
def Tile.putWords (t : Tile) (a : Nat) (ws : List (Option (List Byte))) : Tile :=
  (ws.mapIdx (fun i w => (a + 8 * i, w))).foldl (fun (t : Tile) x => match x.2 with
    | some bs => t.write (spreadBytes x.1 bs) false
    | none => t.write [(x.1, 0)] true) t

/-- The words that another package returned for a granule. -/
def remoteWords (x pa : Nat) : List (Option (List Byte)) := granuleWords (fun i => remoteBytes x (pa + i) 8)

/-- Granule n of a copy has performed; of one to global memory the bank gave it, of the other it took it. -/
def State.copied (s : State) (tile : Nat) (c : Copy) (n : Nat) : State :=
  s.modTile tile (fun t => { (t.count 7 1 1) with
    copies := t.copies.map (fun d => if d.id = c.id then { d with performed := d.performed ++ [n] } else d) })

/-- The bank of a tile serves granule n of a copy, where it may now. -/
def State.copyBank (s : State) (tile : Nat) (c : Copy) (n : Nat) : Bool × State :=
  match s.askBank tile true (c.acc0 + n) (sramWrap (c.laddr + 64 * n) / 64) with
  | (false, s) => (false, s)
  | (true, s) => (true, s.modTile tile (fun t => if c.dir = 1 then t.bankEvents 1 1 0 else t.bankEvents 1 0 1))

/-- Granule n of a copy performs: its page is translated, and its words move. A granule in another package is asked for over the link,
and performs with its answer (R15, R16). -/
def State.copyGranule (s : State) (tile : Nat) (c : Copy) (n : Nat) : State :=
  let va := c.va + 64 * n
  let la := sramWrap (c.laddr + 64 * n)
  let want : AccessWant := if c.dir = 1 then .store else .load
  let owner : LinkOwner := .copy (c.acc0 + n)
  let stop (s : State) (f : Nat × Nat) : State := s.failCopy tile c (f.1, f.2, if f.1 = fMEMORY then va else 0)
  let words (s : State) : List (Option (List Byte)) := granuleWords (fun i => (s.tile tile).read (la + i) 8)
  if c.performed.contains n || (s.tile tile).hopsStopped || s.forkWaits c then s
  else match s.links.find? (fun r => r.owner = owner) with
  | some r => match r.answer with
    | none => s
    | some .failed => stop (s.dropLinks owner) (fLINK, cAQRIC)
    | some .refused => stop (s.dropLinks owner) (fMEMORY, cPERMREMOTE)
    | some (.done x) =>
      if c.dir = 1 then (s.dropLinks owner).copied tile c n
      else match s.copyBank tile c n with
        | (false, s) => s
        | (true, s) => ((s.dropLinks owner).modTile tile (·.putWords la (remoteWords x r.pa))).copied tile c n
  | none =>
    if s.hostWaits (s.vfOf c.eid) va want then s
    else if 2 ^ 49 ≤ va then stop s (fMEMORY, cVARANGE)
    else match s.translate (quarterOf c.eid) (s.vfOf c.eid) va want false with
      | (.error e, s) => stop s (fMEMORY, e)
      | (.ok h, t) =>
        if s.homeWaits (some tile) h then s
        else match h with
          | .hbm pa => match t.copyBank tile c n with
            | (false, s) => s
            | (true, s) => (if c.dir = 1 then s.putHbmWords pa (words s)
                else s.modTile tile (·.putWords la (granuleWords (fun i => s.readHbm (pa + i) 8)))).copied tile c n
          | .remote pkg _ pa _ =>
            if c.dir = 1 then match t.copyBank tile c n with
              | (false, s) => s
              | (true, s) => s.postLink owner pkg pa 64 true
            else t.postLink owner pkg pa 64 false
          | _ => stop t (fMEMORY, cMMIOKIND)

/-- HOME_EVENT: an access reaches its home and performs, or the event of a copy, or an access of the link that no operation makes. -/
def execHomeEvent (acc : Nat) (s : State) : Res :=
  match s.accs.find acc with
  | some a =>
    match a.stage, s.accMsg a with
    | .track, some m => .next (s.arrive a m)
    | .aqric n, _ => match a.home with
      | .remote pkg _ pa _ => .next (if s.overtakes pkg (pa / 64) n then s else s.remoteDone a pa)
      | _ => .next s
    | _, _ => .next s
  | none =>
    match s.copyOf acc with
    | some (t, c) => .next (s.copyGranule t c (acc - c.acc0))
    | none => match s.links.find? (·.id = acc) with
      | some r => .next (s.linkDone r)
      | none => .next s

/-! ## REMOTE_ACCESS_RX (R162) -/

/-- The event of an access from another package. -/
def remoteAcc : RemoteKind → AccKind
  | .load len => .load 0 len
  | .store bs poison => .store (bs.mapIdx (fun i b => (i, b))) poison
  | .atomic op b => .atomic op [(0, 0, b)] false
  | .cas cmp new => .cas [(0, 0, cmp, new)] false

/-- Bytes that it covers. -/
def remoteSize : RemoteKind → Nat
  | .load len => len
  | .store bs _ => bs.length
  | _ => 4

/-- The answer to it. -/
def remoteAnswerOf (k : RemoteKind) (g : Got) : RemoteAnswer :=
  match k with
  | .load _ => .data (g.data.map (·.2)) g.poison
  | .store _ _ => .done
  | _ => .data (g.old.flatMap (fun x => leBytes 4 x.2.toNat)) g.poison

/-- REMOTE_ACCESS_RX: the owner check with the tag carried, and the event at its home; it covers one granule at most (R174). -/
def execRemoteAccessRx (r : RemoteAccess) (s : State) : Res :=
  let pa := r.pa.toNat
  let say (s : State) (a : RemoteAnswer) : State := { s with remoteOut := s.remoteOut ++ [a] }
  if 64 < pa % 64 + remoteSize r.kind then .next s
  else if s.scrubbing pa then .next (s.hold (.remoteAccessRx r))
  else if 2 ^ 42 ≤ pa || 16 < r.ptag.toNat || s.ownerOf pa ≠ r.ptag.toNat then .next (say s (.refused cPERMREMOTE))
  else
    let (g, s) := s.performHbm pa (remoteAcc r.kind)
    .next (say s (remoteAnswerOf r.kind g))

/-! ## SOFT_ERROR (R12, R173) -/

/-- The code of BUFFER-UE (R220). -/
def cBUFFERUE : Nat := 2

/-- A context whose record holds a physical address has become unreadable (R103). -/
def State.spoilContexts (s : State) (pa : Nat) : State :=
  { s with contexts := s.contexts.map (fun c =>
      let base := ((s.part c.2.inst.part).poolBase.toNat + c.2.unit0) * 2 ^ 16
      if base ≤ pa && pa < base + c.2.length then (c.1, { c.2 with bad := true }) else c) }

/-- SOFT_ERROR. -/
def execSoftError (place : SoftPlace) (s : State) : Res :=
  match place with
  | .corrected t => .next (s.countTile t 3 2 1)
  | .correctedHbm g =>
    let n := (s.cluster g).memErrors + 1
    let s := s.modCluster g (fun c => { c with memErrors := n })
    match s.partOfCluster g with
    | some p => .next (s.operate p 18 (s.part p).active 0 [.cluster g, .count n])
    | none => .next (s.handOver ⟨18, none, 0, s.now, [g, n], false⟩)
  | .buffer eid =>
    let e := s.elem eid
    .next (if e.inst.isNone || e.state == .faulted then s
      else (s.takeFault eid fSYSTEM cBUFFERUE 0 none 0 []).countUe (tileOf eid))
  | .sram t a => .next (s.modTile t (fun x => { x with sramPoison := mark x.sramPoison [sramWrap a / 8] }))
  | .hbm pa => .next (if pa < 2 ^ 42 then { s with hbmPoison := mark s.hbmPoison [pa / 8] }.spoilContexts pa else s)

end Sys2Proof.Machine
end

