-- ==== Sys2Proof/Machine/Links.lean ====
section
/-! DEFINITION. The Aqric ports (R13 to R16), the Ethernet ports (R17 to R20, R323) and the training of Lewen (R21). -/

namespace Sys2Proof.Machine

/-! ## Lewen (R21) -/

def execLewenTrain (allLanes : Bool) (s : State) : Res := .next { s with lewenLanes := if allLanes then 8 else 4 }

/-! ## Aqric ports (R13 to R16) -/

def State.modAqric (s : State) (p : Nat) (f : AqricPort → AqricPort) : State := { s with aqric := upd s.aqric p f }

/-- The accesses outstanding on a port. -/
def State.onPort (s : State) (p : Nat) : List Access :=
  (s.accs.filter (fun a => match a.2.home, a.2.stage with
    | .remote _ _ _ q, .aqric _ => q = p
    | _, _ => false)).map (·.2)

/-- The requests outstanding on a port. -/
def State.linksOn (s : State) (p : Nat) : List LinkReq := s.links.filter (fun r => r.port = some p && r.answer.isNone)

/-- A request completes with a link fault: the element that reads or copies takes it, any other asker finds its answer (R16). -/
def State.failLink (s : State) (p : Nat) (r : LinkReq) : State :=
  let lost (s : State) : State := { s with links := s.links.filter (·.id ≠ r.id) }
  match r.owner with
  | .stream inst eid _ _ =>
    if (s.elem eid).inst = some inst && (s.elem eid).state != .faulted then (lost s).takePortFault eid p cAQRIC [] else lost s
  | .copy acc => match s.copyOf acc with
    | some (t, c) => (lost s).failCopy t c (fLINK, cAQRIC, 0) (some p)
    | none => lost s
  | .write => lost s
  | _ => { s with links := s.links.map (fun y => if y.id = r.id then { y with answer := some .failed } else y) }

/-- AQRIC_PORT_FAIL: the port is down, and its outstanding accesses and active messages complete with a link fault (R16). -/
def execAqricPortFail (port : Nat) (s : State) : Res :=
  if !(nth s.aqric port { up := false }).up then .next s
  else
    let s := s.modAqric port (fun a => { a with up := false, draining := true })
    let s := (s.onPort port).foldl (fun (s : State) a => s.failOp a (fLINK, cAQRIC, 0) (some port)) s
    let s := (s.linksOn port).foldl (fun (s : State) r => s.failLink port r) s
    .next ((s.podAms.filter (·.port = some port)).foldl (fun (s : State) x => s.failPodAm x (some port)) s)

/-- AQRIC_REMAP: the hash runs over the remaining ports once nothing is outstanding on the failed one (R16). -/
def execAqricRemap (port : Nat) (s : State) : Res :=
  .next (if (nth s.aqric port { }).draining && (s.onPort port).isEmpty && (s.linksOn port).isEmpty then
    { s.modAqric port (fun a => { a with draining := false }) with remapped := s.remapped ++ [port] } else s)

/-- AQRIC_REPLAY: counted (R16). -/
def execAqricReplay (port : Nat) (s : State) : Res := .next (s.modAqric port (fun a => { a with replays := a.replays + 1 }))

/-! ## Frames received (R17, R18, R20) -/

/-- Fields of the Twithen transport header (R18). -/
def hdrVer (h : BitVec 128) : Nat := bitsOf h.toNat 0 4
def hdrType (h : BitVec 128) : Nat := bitsOf h.toNat 4 4
def hdrLast (h : BitVec 128) : Bool := h.getLsbD 8
def hdrFlow (h : BitVec 128) : BitVec 16 := h.extractLsb' 16 16
def hdrSeq (h : BitVec 128) : Word := h.extractLsb' 32 32
def hdrAckSeq (h : BitVec 128) : Word := h.extractLsb' 64 32
def hdrLen (h : BitVec 128) : Nat := bitsOf h.toNat 96 16

/-- The header's reserved fields and limits (R18). -/
def headerOk (h : BitVec 128) : Bool :=
  hdrVer h = 1 && bitsOf h.toNat 9 7 = 0 && bitsOf h.toNat 112 16 = 0 && hdrLen h ≤ 9088

/-- The UDP port by which a DATA frame is sent: an ACK of it returns there (R20). -/
def flowPort (h : BitVec 128) : Nat := 49152 + (hdrFlow h).toNat % 16384

/-- The receive filter up to the search for a stream (R17, R20). -/
def frameOk (port : Nat) (f : EthFrame) (type : Nat) : Bool :=
  !f.pause && f.size ≤ 9216 && f.dstMac = Config.ethMac port && f.version = 6 && f.nextHeader = 17 &&
  f.checksum.toNat = udpChecksum f && headerOk f.header &&
  hdrType f.header = type && hdrLen f.header ≤ f.payload.length &&
  (f.dstPort.toNat = 49810 || (type = 1 && f.dstPort.toNat = flowPort f.header))

def State.modEth (s : State) (port : Nat) (f : EthPort → EthPort) : State := { s with eth := upd s.eth port f }

/-- A frame discarded and counted. -/
def State.dropFrame (s : State) (port : Nat) : State := s.modEth port (fun p => { p with discarded := p.discarded + 1 })

/-- The streams of bound instances of a KIND, in order of element and stream. -/
def State.ethStreams (s : State) (kind : Nat) : List (Nat × Nat) :=
  s.elems.flatMap (fun x =>
    if x.2.inst.isNone || elemType x.1 != .ag then []
    else ((List.range 4).filter (fun k => let t := x.2.stream k
      t.cfg.v && t.cfg.kind = kind && t.cfg.setupFault.isNone)).map (fun k => (x.1, k)))

/-- The stream of a KIND that names a flow. -/
def State.streamOfFlow (s : State) (kind : Nat) (src dst : BitVec 128) (flow : BitVec 16) : Option (Nat × Nat) :=
  (s.ethStreams kind).find? (fun x => match s.template x.1 x.2 with
    | some t => namesFlow t src dst flow
    | none => false)

/-- Whether two frames are of one flow (R19). -/
def Flow.same (x : Flow) (f : EthFrame) : Bool := x.srcIp = f.srcIp && x.dstIp = f.dstIp && x.flow = hdrFlow f.header

/-- The flow of a frame. -/
def frameKey (f : EthFrame) : FlowKey := ⟨f.srcIp, f.dstIp, hdrFlow f.header⟩

/-- A flow owes an ACK from a frame on. -/
def EthPort.owe (p : EthPort) (f : EthFrame) (now : Nat) : EthPort :=
  let grow (x : Flow) : Flow :=
    { x with owed := x.owed + 1, since := if x.owed = 0 then now else x.since, sample := f }
  if p.flows.any (·.same f) then { p with flows := p.flows.map (fun x => if x.same f then grow x else x) }
  else { p with flows := p.flows ++ [⟨f.srcIp, f.dstIp, hdrFlow f.header, 1, now, f⟩] }

/-- Whether a stream takes frames: started, in an element that runs or is held. -/
def State.takesFrames (s : State) (eid k : Nat) : Bool :=
  let e := s.elem eid
  (e.state == .run || e.state == .held) && (e.stream k).mode == .prefetching

/-! ## Acknowledgements (R19, R20) -/

/-- The frame of an ACK of the frames before `next`: addresses and UDP ports swapped, the same FLOW, LEN 0, the port's own source MAC.
Its SEQ, which the spec does not state, is 0 (log 150). -/
def ackFrame (port : Nat) (x : Flow) (next : Word) : EthFrame :=
  EthFrame.sealed
    { dstMac := x.sample.srcMac, srcMac := Config.ethMac port, version := 6, ipLength := 0, nextHeader := 17, srcIp := x.dstIp,
      dstIp := x.srcIp, tclass := 0, flowLabel := x.flow.setWidth 20, hopLimit := 64, srcPort := x.sample.dstPort,
      dstPort := x.sample.srcPort, udpLength := 0, checksum := 0, pause := false, size := 82,
      header := ethHeader 0 (next - 1).toNat 0 x.flow.toNat false 1, payload := [] }

/-- The ACK of a port's flow number n is sent, where one is owed. -/
def State.sendAck (s : State) (port n : Nat) : State :=
  match (nth s.eth port { }).flows[n]? with
  | none => s
  | some x =>
    if x.owed = 0 then s
    else { s with ethOut := s.ethOut ++ [(port, ackFrame port x (s.rxNext ⟨x.srcIp, x.dstIp, x.flow⟩))] }.modEth port (fun p =>
      { p with flows := upd p.flows n (fun x => { x with owed := 0 }) })

/-- The flow of a port that owes sixteen frames, where one does, is acknowledged (R19). -/
def State.ackAtSixteen (s : State) (port : Nat) : State :=
  match (nth s.eth port { }).flows.findIdx? (fun x => 16 ≤ x.owed) with
  | some n => s.sendAck port n
  | none => s

/-- ETH_ACK_SEND: the ACK that a flow owes is sent. -/
def execEthAckSend (port flow : Nat) (s : State) : Res := .next (s.sendAck port flow)

/-- ETH_FRAME_RX (R19, R20, R323): a DATA frame in order enters its INGRESS stream, and with the sixteenth of its flow the ACK goes; one
that the stream does not take is discarded, and not acknowledged. -/
def execEthFrameRx (port : Nat) (f : EthFrame) (s : State) : Res :=
  if !frameOk port f 0 then .next (s.dropFrame port)
  else match s.streamOfFlow 6 f.srcIp f.dstIp (hdrFlow f.header) with
    | none => .next (s.dropFrame port)
    | some (eid, k) =>
      let n := hdrLen f.header
      let next := s.rxNext (frameKey f)
      if n % 4 ≠ 0 || !s.takesFrames eid k || hdrSeq f.header ≠ next then
        .next (s.countFlow eid k (fun c => { c with discarded := c.discarded + 1 }))
      else
        let s := (s.setRxNext (frameKey f) (next + 1)).modElem eid (·.modStream k (fun t =>
          { t with ingress := t.ingress ++ [(f.payload.take n, hdrLast f.header)] }))
        let s := s.countFlow eid k (fun c => { c with rxFrames := c.rxFrames + 1, rxBytes := c.rxBytes + n })
        .next ((s.modEth port (·.owe f s.now)).ackAtSixteen port)

/-- ETH_ACK_RX: the frames up to ACKSEQ are acknowledged; an ACK of no stream is discarded, and one that names no frame of its
flow without acknowledgement changes nothing (log 149). -/
def execEthAckRx (port : Nat) (f : EthFrame) (s : State) : Res :=
  if !frameOk port f 1 then .next (s.dropFrame port)
  else match s.streamOfFlow 5 f.dstIp f.srcIp (hdrFlow f.header) with
    | none => .next (s.dropFrame port)
    | some _ =>
      let x := s.txFlow ⟨f.dstIp, f.srcIp, hdrFlow f.header⟩
      match x.unacked.findIdx? (fun u => u.seq = hdrAckSeq f.header) with
      | none => .next s
      | some n =>
        let s := s.setTxFlow { x with unacked := x.unacked.drop (n + 1), lastAck := s.now, resends := 0 }
        .next ((x.unacked.take (n + 1)).foldl (fun s u => s.ackEntries u.eid u.entries) s)

/-- The code of an Ethernet link fault (R220). -/
def cETHERNET : Nat := 3

/-- The stream that a link fault of a flow falls on: its first unacknowledged frame's sender, or where that instance has gone, the
stream that names the flow now. -/
def State.flowSender (s : State) (eid : Nat) (x : TxFlow) : Nat :=
  match x.unacked.head? with
  | some u => if u.inst.isSome && (s.elem u.eid).inst = u.inst then u.eid else eid
  | none => eid

/-- ETH_RESEND: 100 µs in which no ACK advanced resend the flow of a stream from its first unacknowledged frame; the ninth time the
egress fails, and the count starts afresh. Frames of a flow that no bound stream names wait (log 148). -/
def execEthResend (eid strm : Nat) (s : State) : Res :=
  match s.template eid strm with
  | none => .next s
  | some tmpl =>
    let x := s.txFlow (templateKey tmpl)
    if (s.elem eid).inst.isNone || x.unacked.isEmpty || s.now < x.lastAck + 100000 then .next s
    else if 8 ≤ x.resends then
      let e := s.flowSender eid x
      let s := s.setTxFlow { x with lastAck := s.now, resends := 0 }
      .next (if (s.elem e).state == .faulted then s
        else s.takePortFault e (36 + ((x.unacked.head?).map (·.port)).getD 0) cETHERNET [])
    else
      .next ({ s with ethOut := s.ethOut ++ x.unacked.map (fun (u : SentFrame) => (u.port, u.frame)) }.setTxFlow
        { x with lastAck := s.now, resends := x.resends + 1 })

end Sys2Proof.Machine
end

