-- ==== Sys2Proof/Machine/Boot.lean ====
section
/-! DEFINITION. Power-up, the delivery of firmware and its start (R44, R105, R109). -/

namespace Sys2Proof.Machine

/-- POWER_UP: the boot ROM checks the flash image; it runs, or the device enters the boot receiver state (R44). -/
def execPowerUp (s : State) : Res :=
  .next (if s.boot != .powerUp then s
    else { s with boot := if s.flash.verifies then .starting else .receiver none })

/-! ## FWLOAD (R44) -/

/-- The open window's length, where the boot state has a window; none where FWLOAD finds no receiver. -/
def Boot.window? : Boot → Option (Option Nat)
  | .receiver o | .running o => some o
  | _ => none

/-- The boot state with the window as given. -/
def Boot.setWindow (b : Boot) (o : Option Nat) : Boot :=
  match b with
  | .receiver _ => .receiver o
  | .running _ => .running o
  | b => b

/-- What both messages of FWLOAD check: VF 511, a receiver (NOTREADY before the boot ROM has decided and in a start: log 157), and no task
bound where the firmware runs, before the length (log 156). CONT is not looked at (log 154). -/
def State.fwloadCheck (s : State) (m : Am) : Except State (Option Nat × State) :=
  match s.amCheck m .admin (m.vf == 511) with
  | .error s => .error s
  | .ok s => match s.boot.window? with
    | none => .error (s.nak m nakNOTREADY)
    | some o => if s.running && !s.insts.isEmpty then .error (s.nak m nakBUSY) else .ok (o, s)

/-- FWLOAD_OPEN: the window opens for an image of OPERAND bytes. -/
def execFwloadOpen (m : Am) (s : State) : Res :=
  match s.fwloadCheck m with
  | .error s => .next s
  | .ok (_, s) =>
    let n := m.operand.toNat
    if n = 0 || 16777216 < n then .next (s.nak m nakOPERAND)
    else .next { s.accept m with boot := s.boot.setWindow (some n), window := [] }

/-- FWLOAD_CLOSE: the window closes and the image is verified; one that passes replaces the flash image, and the firmware
restarts. -/
def execFwloadClose (m : Am) (s : State) : Res :=
  match s.fwloadCheck m with
  | .error s => .next s
  | .ok (o, s) =>
    match o, m.operand.toNat with
    | some n, 0 =>
      let image := bytesAt s.window 0 n
      if Config.firmwarePasses image then
        let v := Config.firmwareVersion image
        let s := { s.accept m with
          flash := { verifies := true, version := v, hash := BitVec.ofNat 256 (leNat (sha256 image)) }, boot := .starting }
        .next (s.sendAm 511 amCOMPLETE v 0 none)
      else .next ({ s with boot := s.boot.setWindow none }.nak m nakBADIMAGE)
    | _, _ => .next (s.nak m nakOPERAND)

/-! ## FIRMWARE_START (R14, R82, R105, R109, R222) -/

/-- A cluster as the firmware's start leaves it: its registers stay, its measurements and leases go. -/
def Cluster.restart (c : Cluster) (now : Nat) : Cluster :=
  { c with
    old := none, pwr := 0, cshare := 0, melt := .cool, msState := .cool, lastMs := none, heat := 0, lim := 0xFFFF,
    slots := List.replicate 16 none, opnow := c.baseop.toNat, volt := railOf c.baseop.toNat, rampEnd := now, steps := 0,
    phase := 0, memErrors := 0, refilled := now / 1000, granted := 0, refusedN := 0, serial := 0 }

/-- A partition with nothing in it. -/
def Partition.restart (p : Partition) : Partition :=
  { p with
    handlers := p.handlers.map (fun h => { h with queue := [] }), poolRuns := [], pendingPolicies := [], decide_ := false,
    powerSum := 0, flowCounts := [] }

/-- A message that waits for the card no longer has an element that waits for it; no ORDER waits any more. -/
def Vf.restart (v : Vf) : Vf := { v with out := v.out.map (fun o => { o with sender := none }), orders := [] }

/-- Every partition empty, every sequence and generation at 0. -/
def State.restart (s : State) (pkg : BitVec 8) : State :=
  { s with
    boot := .running none, firmware := (s.flash.version, s.flash.hash), pkgId := pkg, startTime := s.now,
    vfs := s.vfs.map (fun x => (x.1, x.2.restart)), parts := s.parts.map Partition.restart, walkCache := [],
    clusters := s.clusters.map (fun (c : Cluster) => c.restart s.now), pkgw := 0, lastMs := none, ctrlQ := [], grants := 0,
    accs := [], ops := [], elems := [], tiles := [], track := [], launches := [], insts := [], contexts := [], recSeq := [],
    stepWaits := [], readyN := 0, eth := s.eth.map (fun (p : EthPort) => { p with flows := [] }), txFlows := [], rxFlows := [], devAms := [], podAms := [],
    links := s.links.filter (fun r => r.owner matches .write | .host _), stalled := [] }

/-- A tile that is retired or asked to gate stands gated. -/
def State.gateAtStart (s : State) (t : Nat) : State :=
  let c := s.cluster (clusterOf t)
  if c.retired.getLsbD (tileBit t) || c.greq.getLsbD (tileBit t) then s.modTile t (fun x => { x with gate := .gated }) else s

/-- FIRMWARE_START: the package id is read, every partition is empty, a tile that fails its self-test is retired, and the
retired ones are gated. -/
def execFirmwareStart (pkg : BitVec 8) (bad : List Nat) (s : State) : Res :=
  .next (if s.boot != .starting then s
    else
      let s := (bad.filter tileOk).foldl State.retireTile (s.restart pkg)
      (List.range 16).foldl (fun (s : State) g => (clusterTiles g).foldl State.gateAtStart s) s)

end Sys2Proof.Machine
end

