-- ==== Sys2Proof/Machine/Dispatch.lean ====
section
/-! DEFINITION. The dispatch: one arm per constructor of Instr, each one call of its meaning. -/

namespace Sys2Proof.Machine

/-- The effect of an instruction or event on the state. -/
def exec (i : Instr) (s : State) : Host.Outcome State Fault Refusal :=
  match i with
  | .launch m => Sys2Proof.Machine.execLaunch m s
  | .cancel m => Sys2Proof.Machine.execCancel m s
  | .preempt m => Sys2Proof.Machine.execPreempt m s
  | .resume m => Sys2Proof.Machine.execResume m s
  | .signal m => Sys2Proof.Machine.execSignal m s
  | .order m => Sys2Proof.Machine.execOrder m s
  | .policy m => Sys2Proof.Machine.execPolicy m s
  | .maproot m => Sys2Proof.Machine.execMaproot m s
  | .fwloadOpen m => Sys2Proof.Machine.execFwloadOpen m s
  | .fwloadClose m => Sys2Proof.Machine.execFwloadClose m s
  | .dbgread m => Sys2Proof.Machine.execDbgread m s
  | .dbghold m => Sys2Proof.Machine.execDbghold m s
  | .dbgholdRelease m => Sys2Proof.Machine.execDbgholdRelease m s
  | .userAm m => Sys2Proof.Machine.execUserAm m s
  | .amUndefined m => Sys2Proof.Machine.execAmUndefined m s
  | .userAmDelivery part entry => Sys2Proof.Machine.execUserAmDelivery part entry s
  | .deviceAmDelivery vf => Sys2Proof.Machine.execDeviceAmDelivery vf s
  | .hostRead vf va len => Sys2Proof.Machine.execHostRead vf va len s
  | .hostWrite vf va bytes => Sys2Proof.Machine.execHostWrite vf va bytes s
  | .vfTableWrite who v val => Sys2Proof.Machine.execVfTableWrite who v val s
  | .attestationGo who part val => Sys2Proof.Machine.execAttestationGo who part val s
  | .tkeyWrite who part idx val => Sys2Proof.Machine.execTkeyWrite who part idx val s
  | .savePoolWrite who part val => Sys2Proof.Machine.execSavePoolWrite who part val s
  | .partitionLayoutWrite who g val => Sys2Proof.Machine.execPartitionLayoutWrite who g val s
  | .retirementWrite who g val => Sys2Proof.Machine.execRetirementWrite who g val s
  | .clusterControlWrite who g val => Sys2Proof.Machine.execClusterControlWrite who g val s
  | .sprintRegisterWrite who val => Sys2Proof.Machine.execSprintRegisterWrite who val s
  | .vfClampWrite who v val => Sys2Proof.Machine.execVfClampWrite who v val s
  | .throttleWrite who g val => Sys2Proof.Machine.execThrottleWrite who g val s
  | .gateRequestWrite who g val => Sys2Proof.Machine.execGateRequestWrite who g val s
  | .ownershipWrite who u val => Sys2Proof.Machine.execOwnershipWrite who u val s
  | .recordBufferWrite who part trace word val => Sys2Proof.Machine.execRecordBufferWrite who part trace word val s
  | .registerWrite who off val => Sys2Proof.Machine.execRegisterWrite who off val s
  | .firmwareStart pkg bad => Sys2Proof.Machine.execFirmwareStart pkg bad s
  | .lewenTrain allLanes => Sys2Proof.Machine.execLewenTrain allLanes s
  | .bindingDecision part => Sys2Proof.Machine.execBindingDecision part s
  | .finishArrival eid q => Sys2Proof.Machine.execFinishArrival eid q s
  | .finishForward eid => Sys2Proof.Machine.execFinishForward eid s
  | .elementFreed eid => Sys2Proof.Machine.execElementFreed eid s
  | .holdWaveArrival eid => Sys2Proof.Machine.execHoldWaveArrival eid s
  | .softError place => Sys2Proof.Machine.execSoftError place s
  | .trackLinkFault msg => Sys2Proof.Machine.execTrackLinkFault msg s
  | .update1ms pwr cshare pkgw => Sys2Proof.Machine.execUpdate1ms pwr cshare pkgw s
  | .tokenTransfer eid entry => Sys2Proof.Machine.execTokenTransfer eid entry s
  | .farTokenArrival msg => Sys2Proof.Machine.execFarTokenArrival msg s
  | .endpointDelivery tile ch => Sys2Proof.Machine.execEndpointDelivery tile ch s
  | .creditReturn msg => Sys2Proof.Machine.execCreditReturn msg s
  | .trackInject tile response => Sys2Proof.Machine.execTrackInject tile response s
  | .answerDelivery eid => Sys2Proof.Machine.execAnswerDelivery eid s
  | .homeEvent acc => Sys2Proof.Machine.execHomeEvent acc s
  | .prefetch eid strm => Sys2Proof.Machine.execPrefetch eid strm s
  | .walkDone acc => Sys2Proof.Machine.execWalkDone acc s
  | .copyComplete tile op => Sys2Proof.Machine.execCopyComplete tile op s
  | .remoteAccessRx r => Sys2Proof.Machine.execRemoteAccessRx r s
  | .aqricPortFail port => Sys2Proof.Machine.execAqricPortFail port s
  | .aqricRemap port => Sys2Proof.Machine.execAqricRemap port s
  | .ethFrameRx port f => Sys2Proof.Machine.execEthFrameRx port f s
  | .ethAckRx port f => Sys2Proof.Machine.execEthAckRx port f s
  | .ethAckSend port flow => Sys2Proof.Machine.execEthAckSend port flow s
  | .ethResend eid strm => Sys2Proof.Machine.execEthResend eid strm s
  | .rateCapSecond part => Sys2Proof.Machine.execRateCapSecond part s
  | .mov w => Sys2Proof.Machine.execMov w s
  | .nop w => Sys2Proof.Machine.execNop w s
  | .add w => Sys2Proof.Machine.execAdd w s
  | .sub w => Sys2Proof.Machine.execSub w s
  | .adds w => Sys2Proof.Machine.execAdds w s
  | .subs w => Sys2Proof.Machine.execSubs w s
  | .addus w => Sys2Proof.Machine.execAddus w s
  | .subus w => Sys2Proof.Machine.execSubus w s
  | .mul w => Sys2Proof.Machine.execMul w s
  | .mulh w => Sys2Proof.Machine.execMulh w s
  | .mulhu w => Sys2Proof.Machine.execMulhu w s
  | .mad w => Sys2Proof.Machine.execMad w s
  | .div w => Sys2Proof.Machine.execDiv w s
  | .divu w => Sys2Proof.Machine.execDivu w s
  | .rem w => Sys2Proof.Machine.execRem w s
  | .remu w => Sys2Proof.Machine.execRemu w s
  | .neg w => Sys2Proof.Machine.execNeg w s
  | .abs w => Sys2Proof.Machine.execAbs w s
  | .min w => Sys2Proof.Machine.execMin w s
  | .max w => Sys2Proof.Machine.execMax w s
  | .minu w => Sys2Proof.Machine.execMinu w s
  | .maxu w => Sys2Proof.Machine.execMaxu w s
  | .and w => Sys2Proof.Machine.execAnd w s
  | .or w => Sys2Proof.Machine.execOr w s
  | .xor w => Sys2Proof.Machine.execXor w s
  | .andn w => Sys2Proof.Machine.execAndn w s
  | .not w => Sys2Proof.Machine.execNot w s
  | .shl w => Sys2Proof.Machine.execShl w s
  | .shr w => Sys2Proof.Machine.execShr w s
  | .sar w => Sys2Proof.Machine.execSar w s
  | .rol w => Sys2Proof.Machine.execRol w s
  | .clz w => Sys2Proof.Machine.execClz w s
  | .popc w => Sys2Proof.Machine.execPopc w s
  | .brev w => Sys2Proof.Machine.execBrev w s
  | .bfx w => Sys2Proof.Machine.execBfx w s
  | .bfi w => Sys2Proof.Machine.execBfi w s
  | .sel w => Sys2Proof.Machine.execSel w s
  | .cmpeq w => Sys2Proof.Machine.execCmpeq w s
  | .cmpne w => Sys2Proof.Machine.execCmpne w s
  | .cmplt w => Sys2Proof.Machine.execCmplt w s
  | .cmple w => Sys2Proof.Machine.execCmple w s
  | .cmpltu w => Sys2Proof.Machine.execCmpltu w s
  | .cmpleu w => Sys2Proof.Machine.execCmpleu w s
  | .add64 w => Sys2Proof.Machine.execAdd64 w s
  | .sub64 w => Sys2Proof.Machine.execSub64 w s
  | .mul64 w => Sys2Proof.Machine.execMul64 w s
  | .cmplt64 w => Sys2Proof.Machine.execCmplt64 w s
  | .amov w => Sys2Proof.Machine.execAmov w s
  | .aadd w => Sys2Proof.Machine.execAadd w s
  | .fadd w => Sys2Proof.Machine.execFadd w s
  | .fsub w => Sys2Proof.Machine.execFsub w s
  | .fmul w => Sys2Proof.Machine.execFmul w s
  | .ffma w => Sys2Proof.Machine.execFfma w s
  | .ffms w => Sys2Proof.Machine.execFfms w s
  | .fnma w => Sys2Proof.Machine.execFnma w s
  | .fmin w => Sys2Proof.Machine.execFmin w s
  | .fmax w => Sys2Proof.Machine.execFmax w s
  | .fabs w => Sys2Proof.Machine.execFabs w s
  | .fneg w => Sys2Proof.Machine.execFneg w s
  | .fcopysgn w => Sys2Proof.Machine.execFcopysgn w s
  | .fcmpeq w => Sys2Proof.Machine.execFcmpeq w s
  | .fcmplt w => Sys2Proof.Machine.execFcmplt w s
  | .fcmple w => Sys2Proof.Machine.execFcmple w s
  | .fcmpun w => Sys2Proof.Machine.execFcmpun w s
  | .fdiv w => Sys2Proof.Machine.execFdiv w s
  | .fsqrt w => Sys2Proof.Machine.execFsqrt w s
  | .frcp w => Sys2Proof.Machine.execFrcp w s
  | .frsq w => Sys2Proof.Machine.execFrsq w s
  | .frint w => Sys2Proof.Machine.execFrint w s
  | .fclass w => Sys2Proof.Machine.execFclass w s
  | .fscale w => Sys2Proof.Machine.execFscale w s
  | .fexpn w => Sys2Proof.Machine.execFexpn w s
  | .xclr w => Sys2Proof.Machine.execXclr w s
  | .xadd w => Sys2Proof.Machine.execXadd w s
  | .xmac w => Sys2Proof.Machine.execXmac w s
  | .xmerge w => Sys2Proof.Machine.execXmerge w s
  | .xsend w => Sys2Proof.Machine.execXsend w s
  | .xrd w => Sys2Proof.Machine.execXrd w s
  | .xflag w => Sys2Proof.Machine.execXflag w s
  | .cvtfi w => Sys2Proof.Machine.execCvtfi w s
  | .cvtfu w => Sys2Proof.Machine.execCvtfu w s
  | .cvtif w => Sys2Proof.Machine.execCvtif w s
  | .cvtuf w => Sys2Proof.Machine.execCvtuf w s
  | .cvtsd w => Sys2Proof.Machine.execCvtsd w s
  | .cvtds w => Sys2Proof.Machine.execCvtds w s
  | .cvtdi w => Sys2Proof.Machine.execCvtdi w s
  | .cvtid w => Sys2Proof.Machine.execCvtid w s
  | .fsinpi w => Sys2Proof.Machine.execFsinpi w s
  | .fcospi w => Sys2Proof.Machine.execFcospi w s
  | .frred w => Sys2Proof.Machine.execFrred w s
  | .fexp2 w => Sys2Proof.Machine.execFexp2 w s
  | .flog2 w => Sys2Proof.Machine.execFlog2 w s
  | .ftanh w => Sys2Proof.Machine.execFtanh w s
  | .fsigm w => Sys2Proof.Machine.execFsigm w s
  | .lswap w => Sys2Proof.Machine.execLswap w s
  | .lrot w => Sys2Proof.Machine.execLrot w s
  | .lperm w => Sys2Proof.Machine.execLperm w s
  | .lbcast w => Sys2Proof.Machine.execLbcast w s
  | .lxor w => Sys2Proof.Machine.execLxor w s
  | .lcomp w => Sys2Proof.Machine.execLcomp w s
  | .lexp w => Sys2Proof.Machine.execLexp w s
  | .lshup w => Sys2Proof.Machine.execLshup w s
  | .vmask w => Sys2Proof.Machine.execVmask w s
  | .vvalid w => Sys2Proof.Machine.execVvalid w s
  | .vradd w => Sys2Proof.Machine.execVradd w s
  | .vrmin w => Sys2Proof.Machine.execVrmin w s
  | .vrmax w => Sys2Proof.Machine.execVrmax w s
  | .vrfadd w => Sys2Proof.Machine.execVrfadd w s
  | .vrfmax w => Sys2Proof.Machine.execVrfmax w s
  | .vscan w => Sys2Proof.Machine.execVscan w s
  | .vfscan w => Sys2Proof.Machine.execVfscan w s
  | .pass w => Sys2Proof.Machine.execPass w s
  | .dup w => Sys2Proof.Machine.execDup w s
  | .filt w => Sys2Proof.Machine.execFilt w s
  | .gate w => Sys2Proof.Machine.execGate w s
  | .merge w => Sys2Proof.Machine.execMerge w s
  | .zip w => Sys2Proof.Machine.execZip w s
  | .isect w => Sys2Proof.Machine.execIsect w s
  | .union w => Sys2Proof.Machine.execUnion w s
  | .retag w => Sys2Proof.Machine.execRetag w s
  | .tagsel w => Sys2Proof.Machine.execTagsel w s
  | .aloop w => Sys2Proof.Machine.execAloop w s
  | .cnt w => Sys2Proof.Machine.execCnt w s
  | .endgen w => Sys2Proof.Machine.execEndgen w s
  | .pset w => Sys2Proof.Machine.execPset w s
  | .sloten w => Sys2Proof.Machine.execSloten w s
  | .pack w => Sys2Proof.Machine.execPack w s
  | .lds w => Sys2Proof.Machine.execLds w s
  | .sts w => Sys2Proof.Machine.execSts w s
  | .ldsx w => Sys2Proof.Machine.execLdsx w s
  | .stsx w => Sys2Proof.Machine.execStsx w s
  | .atms w => Sys2Proof.Machine.execAtms w s
  | .cass w => Sys2Proof.Machine.execCass w s
  | .tas w => Sys2Proof.Machine.execTas w s
  | .hins w => Sys2Proof.Machine.execHins w s
  | .hfind w => Sys2Proof.Machine.execHfind w s
  | .lbput w => Sys2Proof.Machine.execLbput w s
  | .lbget w => Sys2Proof.Machine.execLbget w s
  | .lbstat w => Sys2Proof.Machine.execLbstat w s
  | .fences w => Sys2Proof.Machine.execFences w s
  | .cpy w => Sys2Proof.Machine.execCpy w s
  | .rsts w => Sys2Proof.Machine.execRsts w s
  | .ratm w => Sys2Proof.Machine.execRatm w s
  | .ldg w => Sys2Proof.Machine.execLdg w s
  | .stg w => Sys2Proof.Machine.execStg w s
  | .gath w => Sys2Proof.Machine.execGath w s
  | .scat w => Sys2Proof.Machine.execScat w s
  | .atmg w => Sys2Proof.Machine.execAtmg w s
  | .casg w => Sys2Proof.Machine.execCasg w s
  | .patld w => Sys2Proof.Machine.execPatld w s
  | .patst w => Sys2Proof.Machine.execPatst w s
  | .planeld w => Sys2Proof.Machine.execPlaneld w s
  | .wld w => Sys2Proof.Machine.execWld w s
  | .fenceg w => Sys2Proof.Machine.execFenceg w s
  | .patset w => Sys2Proof.Machine.execPatset w s
  | .pref w => Sys2Proof.Machine.execPref w s
  | .mcfg w => Sys2Proof.Machine.execMcfg w s
  | .mwload w => Sys2Proof.Machine.execMwload w s
  | .mexpt w => Sys2Proof.Machine.execMexpt w s
  | .mplane w => Sys2Proof.Machine.execMplane w s
  | .mdrain w => Sys2Proof.Machine.execMdrain w s
  | .mclr w => Sys2Proof.Machine.execMclr w s
  | .mswap w => Sys2Proof.Machine.execMswap w s
  | .mstat w => Sys2Proof.Machine.execMstat w s
  | .trap w => Sys2Proof.Machine.execTrap w s
  | .brk w => Sys2Proof.Machine.execBrk w s
  | .lease w => Sys2Proof.Machine.execLease w s
  | .leaseend w => Sys2Proof.Machine.execLeaseend w s
  | .meltrd w => Sys2Proof.Machine.execMeltrd w s
  | .cntrd w => Sys2Proof.Machine.execCntrd w s
  | .cntctl w => Sys2Proof.Machine.execCntctl w s
  | .pace w => Sys2Proof.Machine.execPace w s
  | .tstamp w => Sys2Proof.Machine.execTstamp w s
  | .tdone w => Sys2Proof.Machine.execTdone w s
  | .yield w => Sys2Proof.Machine.execYield w s
  | .amsend w => Sys2Proof.Machine.execAmsend w s
  | .flagrd w => Sys2Proof.Machine.execFlagrd w s
  | .flagclr w => Sys2Proof.Machine.execFlagclr w s
  | .policyrd w => Sys2Proof.Machine.execPolicyrd w s
  | .selection eid => Sys2Proof.Machine.execSelection eid s
  | .aqricReplay port => Sys2Proof.Machine.execAqricReplay port s
  | .complete => Sys2Proof.Machine.execComplete s
  | .faultnote => Sys2Proof.Machine.execFaultnote s
  | .powerUp => Sys2Proof.Machine.execPowerUp s
  | .graphWalk => Sys2Proof.Machine.execGraphWalk s
  | .aging => Sys2Proof.Machine.execAging s
  | .minresReached => Sys2Proof.Machine.execMinresReached s
  | .relayStaged => Sys2Proof.Machine.execRelayStaged s
  | .configFetchFault => Sys2Proof.Machine.execConfigFetchFault s
  | .commitWave => Sys2Proof.Machine.execCommitWave s
  | .commitDone => Sys2Proof.Machine.execCommitDone s
  | .baton => Sys2Proof.Machine.execBaton s
  | .tdoneAccounting => Sys2Proof.Machine.execTdoneAccounting s
  | .taskFinal => Sys2Proof.Machine.execTaskFinal s
  | .completionProgressWrite => Sys2Proof.Machine.execCompletionProgressWrite s
  | .watchdogDeadlock => Sys2Proof.Machine.execWatchdogDeadlock s
  | .bucketRefill => Sys2Proof.Machine.execBucketRefill s
  | .holdComplete => Sys2Proof.Machine.execHoldComplete s
  | .saveStart => Sys2Proof.Machine.execSaveStart s
  | .saveEnd => Sys2Proof.Machine.execSaveEnd s
  | .restoreDone => Sys2Proof.Machine.execRestoreDone s
  | .starterFault => Sys2Proof.Machine.execStarterFault s
  | .faultRelease => Sys2Proof.Machine.execFaultRelease s
  | .leaseRequest => Sys2Proof.Machine.execLeaseRequest s
  | .railReached => Sys2Proof.Machine.execRailReached s
  | .leaseExpiry => Sys2Proof.Machine.execLeaseExpiry s
  | .leaseendRequest => Sys2Proof.Machine.execLeaseendRequest s
  | .leaseBufferEnqueue => Sys2Proof.Machine.execLeaseBufferEnqueue s
  | .autogateTimer => Sys2Proof.Machine.execAutogateTimer s
  | .gateOff => Sys2Proof.Machine.execGateOff s
  | .ungateDone => Sys2Proof.Machine.execUngateDone s
  | .scrubDone => Sys2Proof.Machine.execScrubDone s

end Sys2Proof.Machine
end

