-- ==== Sys2Proof/Machine/Planner.lean ====
section
/-! DEFINITION. What moves next. A round of the planner is 1 ns of package time: it puts on the agenda the events that may
come about, each of which tests for itself whether it does (log 4); an event that may not come about changes nothing. -/

namespace Sys2Proof.Machine

/-! ## Step rates (R4, R5) -/

/-- Steps per µs of a point. -/
def rateOf (op : Nat) : Nat := nth [1600, 1870, 2130, 2400, 2670, 2870, 3030, 3200] op 1600

/-- The steps per µs of a cluster now; while the rail moves, the rate of the point at or below it. An end of a ramp above the present time
is one to come, also where package time has wrapped since (log 135). -/
def Cluster.rate (c : Cluster) (now : Nat) : Nat :=
  if c.rampEnd ≤ now then rateOf c.opnow
  else rateOf (((List.range 8).filter (fun k => railOf k ≤ c.rail now)).foldl max 0)

/-! ## Parts of a round -/

def ev (i : Instr) (a b : Nat) : Turn := .event i (a, b)

/-- An event whose time the spec leaves open, unless it waits. -/
def State.mayNow (s : State) (k : Nat) (l : List Turn) : List Turn := if Config.waits s.now k then [] else l

/-- Events that come from outside the part. -/
def isOutside : Instr → Bool
  | .hostRead _ _ _ | .hostWrite _ _ _ | .vfTableWrite _ _ _ | .attestationGo _ _ _ | .tkeyWrite _ _ _ _ | .savePoolWrite _ _ _
  | .partitionLayoutWrite _ _ _ | .retirementWrite _ _ _ | .clusterControlWrite _ _ _ | .sprintRegisterWrite _ _
  | .vfClampWrite _ _ _ | .throttleWrite _ _ _ | .gateRequestWrite _ _ _ | .ownershipWrite _ _ _ | .recordBufferWrite _ _ _ _ _
  | .registerWrite _ _ _ | .softError _ | .remoteAccessRx _ | .aqricPortFail _ | .aqricReplay _ | .trackLinkFault _
  | .ethFrameRx _ _ | .ethAckRx _ _ => true
  | _ => false

/-- Boot (R44), and what reaches the part. -/
def State.planOutside (s : State) : List Turn :=
  (match s.boot with
    | .powerUp => [ev (.lewenTrain Config.lewenAllLanes) 0 0, ev .powerUp 0 0]
    | .starting => [ev (.firmwareStart Config.podId Config.selfTestBad) 0 0]
    | _ => []) ++
  s.held.map (fun _ => .heldAccess) ++ ((s.stalled.map (·.vf.toNat)).dedup).map .stalledAm ++ ((Config.outside s.now).filter isOutside).map (fun i => ev i 0 0) ++ s.amIn.map (fun _ => .hostAm) ++
  s.devAms.map (fun _ => .deviceAm) ++ s.podAms.flatMap (fun x => s.mayNow x.id [.podAm x.id]) ++
  (s.vfs.filter (fun v => !v.2.out.isEmpty && !Config.cardHolds s.now v.1)).map (fun v => ev (.deviceAmDelivery v.1) v.1 0)

/-- What the power controller takes of a cluster at the end of a ns: the update; the ends, those asked for first; the requests (R111,
R115). -/
def State.planController (s : State) (g : Nat) : List Turn :=
  let ms := s.now / 1000000
  let reqs (ends : Bool) : List CtrlReq := s.ctrlQ.filter (fun r => r.cluster = g && r.ask.isLeft == ends)
  (if s.updateDue g then
    [ev (.update1ms ((List.range 16).map (Config.measuredPower ms)) ((List.range 16).map (Config.measuredCooling ms))
      (Config.measuredPackage ms)) g 0] else []) ++ [.leaseEnds g] ++
  (List.replicate (reqs true).length ((reqs true).map (fun r => ev .leaseendRequest r.inst 0))).flatten ++
  ((List.range 16).filter (fun k => (nth (s.cluster g).slots k none).any (fun l => l.expiry.any (· ≤ s.now)))).map
    (fun k => ev .leaseExpiry g k) ++
  (List.replicate (reqs false).length ((reqs false).map (fun r => ev .leaseRequest r.inst 0))).flatten

/-- The events of one ns come in increasing cluster index (R111); the requests that waited for the first update follow it (log 152). A
grant whose rail need not move begins at once. -/
def State.planPower (s : State) : List Turn :=
  let late := if s.lastMs.isSome then [] else s.ctrlQ.map (fun r => ev .leaseRequest r.inst 0)
  let slots := (List.range 16).flatMap (fun g => ((s.cluster g).slots.mapIdx (fun k l => (k, l))).filterMap (fun x =>
    x.2.map (fun l => (g, x.1, l))))
  let asked := ((List.range 16).filter (fun g => s.ctrlQ.any (fun r => r.cluster = g))).flatMap (fun g => (List.range 16).map (fun k => (g, k)))
  (List.range 16).flatMap s.planController ++ (List.replicate late.length late).flatten ++
  (asked ++ (slots.filter (fun x => x.2.2.begin_.isNone && !asked.contains (x.1, x.2.1))).map (fun x => (x.1, x.2.1))).map
    (fun x => ev .railReached x.1 x.2)

/-- The refills of the buckets (R86), and the seconds of the rate cap (R55). -/
def State.planCounts (s : State) : List Turn :=
  ((List.range 16).filter (fun g => (s.cluster g).refilled < s.now / 1000)).map (fun g => ev .bucketRefill g 0) ++
  (if s.now % 10 ^ 9 = 0 && 0 < s.now then (List.range 16).map (fun p => ev (.rateCapSecond p) p 0) else [])

/-- Gates (R123, R124) and scrubs (R163). -/
def State.planGates (s : State) : List Turn :=
  (List.range 16).flatMap (fun g => if (s.cluster g).autogate then
    (clusterTiles g).filterMap (fun t =>
      if (s.tile t).gate == .powered && max (s.tile t).unoccSince s.startTime + 1000000 ≤ s.now then some (ev .autogateTimer t 0) else none)
    else []) ++
  s.tiles.filterMap (fun t => match t.2.gate with
    | .closing => some (ev .gateOff t.1 0)
    | .ungating u => if u ≤ s.now then some (ev .ungateDone t.1 0) else none
    | _ => none) ++
  (s.units.filter (·.2.scrub)).flatMap (fun u => s.mayNow u.1 [ev .scrubDone u.1 0])

/-- The events of an instance. -/
def State.planInst (s : State) (i : Nat) (x : Inst) : List Turn :=
  (if x.faults.isEmpty then [] else x.faults.map (fun _ => ev .starterFault i 0)) ++
  (if x.faulted then [ev .faultRelease i 0] else []) ++ x.tdones.map (fun _ => ev .tdoneAccounting i 0) ++
  (match x.phase with
    | .relay => s.mayNow i [ev .configFetchFault i 0, ev .relayStaged i 0, ev .restoreDone i 0]
    | .staged => [ev .commitWave i 0]
    | .commit => [ev .commitDone i 0]
    | .run => [ev .minresReached i 0, ev .baton i 0, ev .leaseBufferEnqueue i 0]
    | .teardown => [ev .leaseBufferEnqueue i 0]
    | .saving => s.mayNow i [ev .saveEnd i 0]) ++
  (match x.stop with
    | .none => []
    | .cut _ _ => [ev .saveStart i 0]
    | .hold _ _ => [ev .holdComplete i 0]) ++
  (if 2 ^ 20 ≤ x.watchdog then [ev .watchdogDeadlock i 0] else [])

/-- The events of a launch and its tasks. -/
def State.planLaunch (s : State) (l : Nat) (x : Launch) : List Turn :=
  if !x.walked then s.mayNow l [ev .graphWalk l 0]
  else (x.tasks.mapIdx (fun k t => (k, t))).flatMap (fun y =>
    let t := y.2
    (if s.ages l t then [ev .aging l y.1] else []) ++
    (if s.canEnd l y.1 t || (t.telling && s.writesDone) then [ev .taskFinal l y.1] else []) ++
    (if t.dirty && !t.final && t.wrote + 1000000 ≤ s.now then [ev .completionProgressWrite l y.1] else []) ++
    (if t.note.isSome && !t.noted then [ev .faultnote l y.1] else [])) ++
    (if x.live then [] else [ev .complete l 0])

/-- The Starters. -/
def State.planStarter (s : State) : List Turn :=
  s.insts.flatMap (fun x => s.planInst x.1 x.2) ++ s.stepWaits.map (fun w => ev .holdComplete w.inst 0) ++ s.launches.flatMap (fun x => s.planLaunch x.1 x.2) ++
  ((List.range 16).filter (fun p => (s.part p).decide_)).map (fun p => ev (.bindingDecision p) p 0) ++
  (List.range 16).flatMap (fun p => ((s.part p).handlers.mapIdx (fun k h => (k, h))).filterMap (fun x =>
    if x.2.queue.isEmpty then none else some (ev (.userAmDelivery p x.1) p x.1)))

/-- Memory, the track, the copy engines and the links: every event whose time the spec leaves open. -/
def State.planMemory (s : State) : List Turn :=
  s.tiles.flatMap (fun t =>
    (if t.2.egressReq.isEmpty then [] else s.mayNow t.1 (t.2.egressReq.map (fun _ => ev (.trackInject t.1 false) t.1 0))) ++
    (if t.2.egressResp.isEmpty then [] else s.mayNow t.1 (t.2.egressResp.map (fun _ => ev (.trackInject t.1 true) t.1 0)))) ++
  s.tiles.flatMap (fun t => t.2.keptFor.map (fun acc => ev (.homeEvent acc) 0 0)) ++
  s.accs.flatMap (fun a => s.mayNow a.1 [if a.2.stage == .walk then ev (.walkDone a.1) a.1 0 else ev (.homeEvent a.1) a.1 0]) ++
  s.tiles.flatMap (fun t => t.2.copies.flatMap (fun c =>
    s.mayNow c.id (((List.range (c.len / 64)).filter (fun n => !c.performed.contains n)).map (fun n =>
      ev (.homeEvent (c.acc0 + n)) 0 0) ++ [ev (.copyComplete t.1 c.id) t.1 c.id]))) ++
  (s.links.filter (·.answer.isNone)).flatMap (fun r => s.mayNow r.id [ev (.homeEvent r.id) 0 0]) ++
  s.track.flatMap (fun m => match m.body with
    | .far _ _ => s.mayNow m.id [ev (.farTokenArrival m.id) 0 0]
    | .credit _ _ _ => s.mayNow m.id [ev (.creditReturn m.id) 0 0]
    | .access _ => []) ++
  ((List.range 36).filter (fun p => (nth s.aqric p { }).draining)).map (fun p => ev (.aqricRemap p) p 0) ++
  (s.eth.mapIdx (fun p e => (p, e))).flatMap (fun x => (x.2.flows.mapIdx (fun k f => (k, f))).filterMap (fun y =>
    if 16 ≤ y.2.owed || (0 < y.2.owed && y.2.since + 20000 ≤ s.now) then some (ev (.ethAckSend x.1 y.1) x.1 y.1) else none)) ++
  s.txFlows.filterMap (fun x => if x.unacked.isEmpty || s.now < x.lastAck + 100000 then none
    else (s.streamOfFlow 5 x.key.src x.key.dst x.key.flow).map (fun y => ev (.ethResend y.1 y.2) y.1 y.2))

/-! ## A step of a cluster (R144) -/

/-- The transfer phase of an element: a route buffer gives its token, then takes the next; a prefetch; an answer for each
output queue. -/
def State.planTransfer (s : State) (eid : Nat) (e : Element) : List Turn :=
  ((List.range 16).filter (fun k => (nth e.bank.routes k 0).getLsbD 31 &&
    ((nth e.rb k none).isSome || !(nth e.oq (k / 4) []).isEmpty))).flatMap (fun k =>
      [ev (.tokenTransfer eid k) eid k, ev (.tokenTransfer eid k) eid k]) ++
  ((List.range 4).filter (fun k => e.mayPrefetch (e.stream k) || e.needsTemplate (e.stream k))).flatMap (fun k => s.mayNow eid [ev (.prefetch eid k) eid k]) ++
  (if e.ans.isEmpty then [] else List.replicate 4 (ev (.answerDelivery eid) eid 0))

/-- The elements of a cluster's instances. -/
def State.fabricOf (s : State) (g : Nat) : List (Nat × Element) :=
  s.elems.filter (fun x => x.2.inst.isSome && clusterOf (tileOf x.1) = g)

/-- The elements that a hold wave reaches in this step, one hop further than in the last (R91). -/
def State.planWave (s : State) (g : Nat) : List Turn :=
  s.insts.flatMap (fun x => if x.2.cluster = g && x.2.stop != .none then
    (x.2.waveLeft.filter x.2.waveNext).map (fun e => ev (.holdWaveArrival e) e 0) else [])

/-- What comes before the selections of a cluster: hold waves, and the transfer phase. -/
def State.planStepTransfer (s : State) (g : Nat) : List Turn :=
  s.planWave g ++
  (s.tiles.filter (fun x => clusterOf x.1 = g)).flatMap (fun t =>
    ((List.range 16).filter (fun c => (nth t.2.endpoints c 0).getLsbD 31 && !(nth t.2.epBuf c []).isEmpty)).map (fun c =>
      ev (.endpointDelivery t.1 c) t.1 c)) ++
  (s.fabricOf g).flatMap (fun x => s.planTransfer x.1 x.2) ++ [.stepSelect g]

/-- The selection phase: a FINISH at a head is taken, and each element may select a firing. -/
def State.planStepSelect (s : State) (g : Nat) : List Turn :=
  let es := s.fabricOf g
  es.flatMap (fun x =>
    ((List.range 4).filter (fun q => x.2.finWait.getLsbD q || (x.2.head? q).any (fun t => t.tag == tagFinish))).map (fun q =>
      ev (.finishArrival x.1 q) x.1 q) ++
    (if x.2.state == .stopping then [ev (.finishForward x.1) x.1 0, ev (.elementFreed x.1) x.1 0] else [])) ++
  (es.filter (fun x => x.2.state == .run)).map (fun x => ev (.selection x.1) x.1 0) ++ [.stepWrite g]

/-- The write-back phase: one turn for each firing that is due. -/
def State.planStepWrite (s : State) (g : Nat) : List Turn :=
  (s.fabricOf g).flatMap (fun x => (x.2.inflight.filter (fun f => f.remaining = 0)).map (fun _ => .writeBack x.1)) ++
  [.fabricStep g]

/-- Whether a cluster has an instance. -/
def State.clusterBusy (s : State) (g : Nat) : Bool := s.insts.any (fun x => x.2.cluster = g)

/-- The steps that a cluster takes in this ns. -/
def State.planFabric (s : State) : List Turn :=
  (List.range 16).flatMap (fun g => if s.clusterBusy g then
    List.replicate ((s.cluster g).phase / 1000) (.stepTransfer g) else [])

/-- A round: the events of 1 ns, and the tick that ends it. The second of the rate cap begins before anything that it counts (R55). -/
def State.planRound (s : State) : List Turn :=
  (if s.running then s.planCounts else []) ++ s.planOutside ++
  (if s.running then s.planGates ++ s.planStarter ++ s.planMemory ++ s.planFabric ++ [.power] else []) ++ [.tick 1]

/-! ## Turns -/

/-- Whether who asked for an access of the link still waits for its answer. -/
def State.awaits (s : State) (o : LinkOwner) : Bool :=
  match o with
  | .stream inst eid k mark =>
    let e := s.elem eid
    e.inst = some inst && (if mark % 2 = 0 then e.needsTemplate (e.stream k) || (e.mayPrefetch (e.stream k) && (e.stream k).fetch = mark / 2)
      else e.inflight.any (·.seq = mark / 2))
  | .copy acc => (s.copyOf acc).isSome
  | .host i => s.held.contains i
  | .message m => s.stalled.contains m
  | .graph l => (s.launches.find l).any (fun x => !x.walked)
  | .image i => (s.insts.find i).any (·.phase == .relay)
  | .report i => (s.insts.find i).any (fun x => !x.tdones.isEmpty)
  | .bind p => (s.part p).decide_
  | .write => false

/-- Accesses that wait for a port find it where the hash is remapped, and answers that nobody waits for go. -/
def State.settleLinks (s : State) : State :=
  { s with links := (s.links.map s.portFor).filter (fun r => r.answer.isNone || s.awaits r.owner) }

/-- Package time, a 64-bit count, advances (R4); each cluster comes nearer to its next step. The messages that the card and other
packages deliver arrive, what waited for a scrub or a port that has come performs, and tiles that GREQ names begin to gate. -/
def State.tick (s : State) (ns : Nat) : State :=
  { s.unpark.settleLinks.closeAll.gateRequested with
    now := (s.now + ns) % 2 ^ 64, amIn := s.amIn ++ Config.hostMessages s.now,
    devAms := s.devAms ++ (Config.podMessages s.now).map (fun m => amOfWord (.remote m.1) m.2),
    clusters := s.clusters.mapIdx (fun g (c : Cluster) =>
      let p := c.phase + ns * c.rate s.now
      if s.clusterBusy g then { c with phase := p } else { c with phase := p % 1000, steps := c.steps + p / 1000 }) }

/-- A step of a cluster has passed; the fences whose last access has performed in it are done (R309). -/
def State.endOfStep (s : State) (g : Nat) : State :=
  let s := (s.fabricStep g).modCluster g (fun c => { c with phase := c.phase - 1000 })
  ((s.elems.filter (fun x => clusterOf (tileOf x.1) = g && !x.2.fences.isEmpty)).map (·.1)).foldl State.settleFences s

/-- Whether a firing stands behind a PATST that has not written back: a PATST or PATSET of the same stream, or a FENCEG (R180, R319,
R323). -/
def Element.behindPut (e : Element) (f : Firing) : Bool :=
  let same (g : Firing) : Bool := g.word.extractLsb' 28 2 = f.word.extractLsb' 28 2
  e.inflight.any (fun g => g.opc = 0x117 && g.seq < f.seq && (f.opc = 0x11A || ((f.opc = 0x117 || f.opc = 0x11B) && same g)))

/-- The firing of an element that writes back next: of those due this step a FLAGCLR first, else the oldest (R146, R345). -/
def Element.dueFiring (e : Element) : Option Firing :=
  let due := e.inflight.filter (fun f => f.remaining = 0 && !e.behindPut f)
  match due.find? (fun f => f.opc = 0x18D) with
  | some f => some f
  | none => due.head?

/-- What a step of the machine does. -/
inductive Move where
  /-- It runs an instruction on a state. -/
  | run (i : Instr) (s : State)
  /-- It only moves on. -/
  | on (s : State)
  /-- The word in focus is no instruction. -/
  | illegal

/-- The instruction of the firing in focus. -/
def State.focused (s : State) (word : BitVec 128) : Move :=
  match decodeSlot word with
  | .ok i => .run i s
  | .error _ => .illegal

/-- The device replaces PART by the VF table's (R29). -/
def State.stampPart (s : State) (m : Am) : Am := { m with part := if m.vf = 511 then 0 else (s.vf m.vf.toNat).part }

/-- A message is taken, or waits behind one of its VF that waits (R42). -/
def State.takeAm (s : State) (m : Am) : Move :=
  if s.stalled.any (·.vf = m.vf) then .on { s with stalled := s.stalled ++ [m] } else .run (amInstr (s.stampPart m)) s

/-- The turn at the head of the agenda is taken. -/
def State.takeTurn (s : State) (t : Turn) : Move :=
  match t with
  | .event i subject => .run i { s with subject }
  | .writeBack eid =>
    match (s.elem eid).dueFiring with
    | none => .on s
    | some f =>
      let s := s.modElem eid (fun e => { e with inflight := e.inflight.filter (fun x => x.seq ≠ f.seq) })
      { s with focus := some ⟨eid, f⟩ }.focused f.word
  | .hostAm =>
    match s.amIn with
    | [] => .on s
    | w :: rest => { s with amIn := rest }.takeAm (amOfWord .host w)
  | .deviceAm =>
    match s.devAms with
    | [] => .on s
    | m :: rest => { s with devAms := rest }.takeAm m
  | .stalledAm v =>
    match s.stalled.find? (·.vf.toNat = v) with
    | none => .on s
    | some m => .run (amInstr (s.stampPart m)) { s with stalled := s.stalled.erase m }
  | .podAm id => .on (s.podTurn id)
  | .heldAccess =>
    match s.held with
    | [] => .on s
    | i :: rest => .run i { s with held := rest }
  | .power => .on { s with agenda := s.planPower ++ s.agenda }
  | .leaseEnds g => .on (s.takeAsked g)
  | .stepTransfer g => .on { s with agenda := s.planStepTransfer g ++ s.agenda }
  | .stepSelect g => .on { s with agenda := s.planStepSelect g ++ s.agenda }
  | .stepWrite g =>
    let s := s.arbitrate g
    .on { s with agenda := s.planStepWrite g ++ s.agenda }
  | .fabricStep g => .on (s.endOfStep g)
  | .tick ns => .on (s.tick ns)

/-- What comes next: the firing in focus, else the head of the agenda, else a new round. -/
def State.move (s : State) : Move :=
  match s.focus with
  | some f => s.focused f.firing.word
  | none =>
    match s.agenda with
    | [] => .on { s with agenda := s.planRound }
    | t :: rest => { s with agenda := rest }.takeTurn t

/-! ## Placing an instruction -/

/-- An element, of the first type that accepts an opcode. -/
def elemFor (opc : Nat) : Nat :=
  if accepts .pe opc then eidAt 0 1 0 else if accepts .se opc then eidAt 0 2 0 else if accepts .ag opc then eidAt 0 0 0
  else eidAt 0 7 0

/-- A slot word is selected by an element and stands in focus at its write-back. -/
def State.placeSlot (s : State) (word : BitVec 128) : State :=
  match slotView 0 word with
  | none => s
  | some v =>
    let eid := elemFor v.opc
    let s := (s.fire eid (s.elem eid) v).1
    match (s.elem eid).inflight.getLast? with
    | none => s
    | some f =>
      { s.modElem eid (fun e => { e with inflight := e.inflight.dropLast }) with focus := some ⟨eid, { f with remaining := 0 }⟩ }

/-- A host message is next. -/
def State.placeAm (s : State) (word : BitVec 128) : State := { s with focus := none, agenda := [.hostAm], amIn := [word] }

end Sys2Proof.Machine
end

