-- ==== Sys2Proof/Machine/Step.lean ====
section
/-! DEFINITION. The step of the machine, and the placing of an instruction where the next step runs it. -/

namespace Sys2Proof.Machine

/-- One step: the next instruction or event runs, or time and the agenda move on. -/
def step (s : State) : Host.Outcome State Fault Refusal :=
  match s.move with
  | .run i t => exec i t
  | .on t => .next t
  | .illegal => .refused .illegalWord

/-- The state with an instruction placed where the next step runs it: a slot word, which has bit 127 set, at its
write-back, and any other word as a message of the host (log 8). -/
def State.withFetchWord (s : State) (nbits w : Nat) : State :=
  let word := BitVec.ofNat 128 (w % 2 ^ nbits)
  if word.getLsbD 127 then s.placeSlot word else s.placeAm word

end Sys2Proof.Machine
end

