-- ==== Sys2Proof/Safety.lean ====
section
/-! DEFINITION. What counts as a safe step, and the words that the statements are written in: what the write-back
of a firing leaves in its element and in the rest of the part. -/

namespace Sys2Proof

/-- A step from the state answers a next state. -/
def Safe (s : Machine.State) : Prop := ∃ t, Machine.step s = .next t

namespace Claims

open Sys2Proof.Machine

/-- A result as it reaches a destination: lanes and tag. -/
abbrev Result := Option (Lanes × Tag)

/-- A v register after a result has gone to a destination (R236). -/
def vAfter (dst : Dst) (r : Result) (n : Nat) (old : Lanes) : Lanes :=
  match dst, r with
  | .v m, some x => if m.val = n then x.1 else old
  | _, _ => old

/-- An a-register after it: lane 0, or under D the words of pair 0 in the register and the one behind it (R236). -/
def aAfter (d : Bool) (dst : Dst) (r : Result) (n : Nat) (old : Word) : Word :=
  match dst, r with
  | .a m, some x =>
    if d then
      if n = m.val + 1 then ((pairAt x.1 0).getD 0).extractLsb' 32 32
      else if n = m.val then ((pairAt x.1 0).getD 0).extractLsb' 0 32
      else old
    else if n = m.val then wordAt x.1 0 else old
  | _, _ => old

/-- An output queue after it: the token at the tail (R236). -/
def qAfter (dst : Dst) (r : Result) (log : Option PacerLog) (n : Nat) (old : List Token) : List Token :=
  match dst, r with
  | .o q, some x => if q.val = n then old ++ [⟨x.1, x.2, log⟩] else old
  | _, _ => old

/-- What a firing gives to its write-back. -/
structure Effect where
  /-- For DA and for DB. -/
  da : Result
  db : Result
  /-- The lanes that PM tests. -/
  tested : Option Lanes
  flags : Word
  /-- Predicates written besides PD, and a token enqueued behind the results: its queue, lanes and tag. -/
  preds : List (Nat × Pred) := []
  spill : Option (Nat × Lanes × Tag) := none
  /-- A log for the first token enqueued, in place of the dequeued one (R340). -/
  log : Option PacerLog := none

/-- One result for both destinations (R236). -/
def Effect.one (r : Result) (flags : Word) : Effect := { da := r, db := r, tested := r.map (·.1), flags }

/-- Two results. -/
def Effect.two (a b : Result) (flags : Word) : Effect := { da := a, db := b, tested := a.map (·.1), flags }

/-- No result. -/
def Effect.nothing : Effect := { da := none, db := none, tested := none, flags := 0 }

/-- The log that the first token enqueued carries on, and the one that DB's token then carries (R227). -/
def logA (fo : Focus) (w : Slot) (r : Effect) : Option PacerLog :=
  if w.da.isOut && r.da.isSome then r.log.or fo.firing.logs.head? else none

def logB (fo : Focus) (w : Slot) (r : Effect) : Option PacerLog :=
  if w.da.isOut && r.da.isSome then none else r.log.or fo.firing.logs.head?

/-- The log that the token behind the results then carries. -/
def logS (fo : Focus) (w : Slot) (r : Effect) : Option PacerLog :=
  if (w.da.isOut && r.da.isSome) || (w.db.isOut && r.db.isSome) then none else r.log.or fo.firing.logs.head?

/-- An output queue after the token behind the results (R307). -/
def spillAfter (x : Option (Nat × Lanes × Tag)) (log : Option PacerLog) (n : Nat) (old : List Token) : List Token :=
  match x with
  | some y => if y.1 = n then old ++ [⟨y.2.1, y.2.2, log⟩] else old
  | none => old

/-- A predicate after writes of several. -/
def predAfter (l : List (Nat × Pred)) (n : Nat) (old : Pred) : Pred :=
  l.foldl (fun old x => if n = x.1 then x.2 else old) old

/-- The registers, output queues, flags and predicates that the write-back leaves in an element that stood as `e` (R146,
R236 to R239, R213): DA is written, then DB. -/
structure Wrote (e : Element) (t : State) (fo : Focus) (w : Slot) (r : Effect) : Prop where
  done : t.focus = none
  v : ∀ n, (t.elem fo.eid).v[n]? = (e.v[n]?).map (fun x => vAfter w.db r.db n (vAfter w.da r.da n x))
  a : ∀ n, (t.elem fo.eid).a[n]? = (e.a[n]?).map (fun x => aAfter w.d w.db r.db n (aAfter w.d w.da r.da n x))
  q : ∀ n, (t.elem fo.eid).oq[n]? = (e.oq[n]?).map
    (fun x => spillAfter r.spill (logS fo w r) n (qAfter w.db r.db (logB fo w r) n (qAfter w.da r.da (logA fo w r) n x)))
  flags : (t.elem fo.eid).flags = e.flags ||| r.flags
  p : ∀ n, (t.elem fo.eid).p[n]? = (e.p[n]?).map (fun x => predAfter r.preds n (
    if w.pm ≠ .keep ∧ n = w.pd.val then
      predValue w.pm w.d r.tested (fo.firing.deqd.head?.map (·.2.tag)) fo.firing.oldPd
    else x))

/-- Everything of the element but its registers, predicates, output queues, flags and counters is as in `e`. -/
def ElemKept (e : Element) (t : State) (eid : Nat) : Prop :=
  { t.elem eid with v := e.v, a := e.a, p := e.p, oq := e.oq, flags := e.flags, counters := e.counters } = e

/-- Every other element is as it was. -/
def OthersKept (s t : State) (eid : Nat) : Prop := ∀ n, n ≠ eid → t.elem n = s.elem n

/-- Of the part outside the elements, all of memory with it, only counters of tiles differ (R337). -/
structure RestKept (s t : State) : Prop where
  tiles : ∀ n, { t.tile n with counters := (s.tile n).counters } = s.tile n
  rest : { t with focus := s.focus, elems := s.elems, tiles := s.tiles } = s

/-! ## Firings and their results -/

/-- The tag of a result that is built (R238). -/
def builtTag (w : Slot) (f : Firing) : Tag :=
  if f.poisoned w then tagPoison else if w.kt then f.ktTag w else w.otag

/-- Nothing that must not take POISON takes a result of a tag: no register destination, and no predicate test (R170). -/
def TagFits (w : Slot) (tag : Tag) : Prop :=
  tag = tagPoison → Dst.isReg w.da = false ∧ Dst.isReg w.db = false ∧ PredMode.tests w.pm = false

/-- A firing of a slot word is about to write back, and no fault was found at its selection (R146). -/
structure Due (s : State) (fo : Focus) : Prop where
  focus : s.focus = some fo
  clean : fo.firing.fault = none

/-- A built result of the firing may go where the word says. -/
def BuiltFits (w : Slot) (fo : Focus) : Prop := TagFits w (builtTag w fo.firing)

/-- Lane l is valid in every named source (R237). -/
def sourcesValid (w : Slot) (f : Firing) (l : Nat) : Bool :=
  (w.sa = .none || validAt f.a.lanes l) && (w.sb = .none || validAt f.b.lanes l) &&
  (w.sc = .none || validAt f.c.lanes l)

/-- The lanes of a lane-wise result: computed where every named source is valid (R237, R257). -/
def perLane (w : Slot) (f : Firing) (op : Word → Word → Word → Word) : Lanes :=
  lanesOf (fun l => if sourcesValid w f l then
    some (op (wordAt f.a.lanes l) (wordAt f.b.lanes l) (wordAt f.c.lanes l)) else none)

/-- The flags of the valid lanes together (R257). -/
def perLaneFlags (w : Slot) (f : Firing) (fl : Word → Word → Word → Word) : Word :=
  (List.range 16).foldl (fun acc l => if sourcesValid w f l then
    acc ||| fl (wordAt f.a.lanes l) (wordAt f.b.lanes l) (wordAt f.c.lanes l) else acc) 0

/-- The lanes of a pair-wise result: pair k is valid where both its lanes are in every named source (R190, R262). -/
def perPair (w : Slot) (f : Firing) (op : DWord → DWord → DWord) : Lanes :=
  lanesOfPairs (fun k => if sourcesValid w f (2 * k) && sourcesValid w f (2 * k + 1) then
    some (op (wordAt f.a.lanes (2 * k + 1) ++ wordAt f.a.lanes (2 * k))
      (wordAt f.b.lanes (2 * k + 1) ++ wordAt f.b.lanes (2 * k))) else none)

/-- The pacer logs that end at a write-back, each with its END (R227, R340): where a token of the result carries the first one
on, the others, as dropped; with a fresh log, all, and the log of a head that A names and the firing leaves; with no token enqueued,
the first in the instruction's own way. -/
def endedLogs (fo : Focus) (w : Slot) (r : Effect) (own : Nat) : List (PacerLog × Nat) :=
  match r.log with
  | some _ => (fo.firing.kept.toList ++ fo.firing.logs).map (fun l => (l, 2))
  | none =>
    if (w.da.isOut && r.da.isSome) || (w.db.isOut && r.db.isSome) || r.spill.isSome then (fo.firing.logs.drop 1).map (fun l => (l, 2))
    else (fo.firing.logs.take 1).map (fun l => (l, own)) ++ (fo.firing.logs.drop 1).map (fun l => (l, 2))

/-- The logs that end do so in `u` and leave `t`: each writes its pacer record, and hands it to the operator, as `State.endLog`
says, and nothing else changes (R227, R229). -/
def LogsEnd (u t : State) (fo : Focus) (w : Slot) (r : Effect) : Prop :=
  ∃ own, t = (endedLogs fo w r own).foldl (fun (s : State) (l : PacerLog × Nat) => s.endLog fo.eid l.1 l.2) u

/-- The part outside the elements is as in `x`, but for counters of tiles (R337) and the records of the logs that end. -/
def RestIs (x t : State) (fo : Focus) (w : Slot) (r : Effect) : Prop := ∃ u, RestKept x u ∧ LogsEnd u t fo w r

/-- As `RestIs`, and then changed as `f` says. -/
def RestThen (s t : State) (fo : Focus) (w : Slot) (r : Effect) (f : State → State) : Prop := ∃ u, RestIs s u fo w r ∧ t = f u

/-- An instruction answers a next state: the element, changed as `change` says, has the effect; the rest of it and
every other element stay; the part outside the elements is as `rest` says. -/
def Gives (i : Instr) (s : State) (fo : Focus) (w : Slot) (r : Effect) (change : Element → Element)
    (rest : State → Prop) : Prop :=
  ∃ t, exec i s = .next t ∧ Wrote (change (s.elem fo.eid)) t fo w r ∧ ElemKept (change (s.elem fo.eid)) t fo.eid ∧
    OthersKept s t fo.eid ∧ rest t

/-- What an instruction gives, and when. -/
structure SlotRule where
  instr : Slot → Instr
  pre : Slot → State → Focus → Prop
  effect : Slot → State → Focus → Effect
  change : Slot → State → Focus → Element → Element := fun _ _ _ => id
  rest : Slot → State → Focus → Effect → State → Prop := fun w s fo r t => RestIs s t fo w r

/-- Each instruction of a list answers a next state with its effect. -/
def Holds (rules : List SlotRule) : Prop :=
  ∀ x ∈ rules, ∀ (w : Slot) (s : State) (fo : Focus), Due s fo → x.pre w s fo →
    Gives (x.instr w) s fo w (x.effect w s fo) (x.change w s fo) (x.rest w s fo (x.effect w s fo))

/-- No result that is POISON goes to a register or is tested by PM (R170). -/
def Fits (w : Slot) (r : Effect) : Prop :=
  (∀ x, r.da = some x → x.2 = tagPoison → Dst.isReg w.da = false ∧ PredMode.tests w.pm = false) ∧
  (∀ x, r.db = some x → x.2 = tagPoison → Dst.isReg w.db = false ∧ (w.da = .none → PredMode.tests w.pm = false))

/-- The rule of an instruction whose results carry their own tags: it runs where `ok` holds and its results fit. -/
def freeRule (i : Slot → Instr) (ok : Slot → State → Focus → Prop) (effect : Slot → State → Focus → Effect)
    (change : Slot → State → Focus → Element → Element := fun _ _ _ => id)
    (rest : Slot → State → Focus → Effect → State → Prop := fun w s fo r t => RestIs s t fo w r) : SlotRule where
  instr := i
  pre := fun w s fo => ok w s fo ∧ Fits w (effect w s fo)
  effect := effect
  change := change
  rest := rest

/-- What a lane-wise instruction computes. -/
structure LaneRule where
  instr : Slot → Instr
  op : Slot → Word → Word → Word → Word
  flags : Slot → Word → Word → Word → Word := fun _ _ _ _ => 0

/-- Its rule: one built result. -/
def LaneRule.rule (x : LaneRule) : SlotRule where
  instr := x.instr
  pre := fun w _ fo => BuiltFits w fo
  effect := fun w _ fo =>
    .one (some (perLane w fo.firing (x.op w), builtTag w fo.firing)) (perLaneFlags w fo.firing (x.flags w))

/-- The rule of an instruction that builds one result. -/
def builtRule (i : Slot → Instr) (lanes : Slot → State → Focus → Lanes) (flags : Slot → State → Focus → Word := fun _ _ _ => 0) :
    SlotRule where
  instr := i
  pre := fun w _ fo => BuiltFits w fo
  effect := fun w s fo => .one (some (lanes w s fo, builtTag w fo.firing)) (flags w s fo)

/-- Element k is valid in every named source: a lane, or under D a pair (R190, R237). -/
def elemPresent (w : Slot) (f : Firing) (k : Nat) : Bool :=
  if w.d then sourcesValid w f (2 * k) && sourcesValid w f (2 * k + 1) else sourcesValid w f k

/-- The rule of an instruction that computes every valid element as bits, with flags (R280, R281). -/
def elemRule (i : Slot → Instr) (op : Slot → Nat → Nat → Nat → Nat × Word) : SlotRule :=
  builtRule i
    (fun w _ fo =>
      let f := fo.firing
      lanesOfElems w.d (fun k => if elemPresent w f k then
        some (op w (elemBits w.d f.a.lanes k) (elemBits w.d f.b.lanes k) (elemBits w.d f.c.lanes k)).1 else none))
    (fun w _ fo =>
      let f := fo.firing
      (List.range (elemCount w.d)).foldl (fun acc k => if elemPresent w f k then
        acc ||| (op w (elemBits w.d f.a.lanes k) (elemBits w.d f.b.lanes k) (elemBits w.d f.c.lanes k)).2 else acc) 0)

/-- A firing takes a fault at its write-back (R223): the element enters FAULTED with its registers, predicates and queues
as they are, memory is as the records of the dequeued tokens' pacer logs leave it, which end as dropped (R227), and the instance holds
one more record, of that family, code and address, with the tokens the firing dequeued (kind 5, or kind 6 where an AG withholds them
for a translation, permission or alignment fault; R167, R219). -/
structure TookFault (s t : State) (fo : Focus) (family code addr : Nat) : Prop where
  done : t.focus = none
  state : (t.elem fo.eid).state = .faulted
  kept : { t.elem fo.eid with state := (s.elem fo.eid).state, ans := (s.elem fo.eid).ans } = s.elem fo.eid
  others : OthersKept s t fo.eid
  memory : (s.endLogs fo.eid (fo.firing.deqd.map (·.2)) 2).hbm = t.hbm ∧
    (s.endLogs fo.eid (fo.firing.deqd.map (·.2)) 2).hbmPoison = t.hbmPoison ∧
    (s.endLogs fo.eid (fo.firing.deqd.map (·.2)) 2).tiles = t.tiles
  record : ∀ i x, (s.elem fo.eid).inst = some i → s.insts.find i = some x → ∃ y ev, t.insts.find i = some y ∧
    y.faults = x.faults ++ [ev] ∧ ev.kind = 0 ∧ ev.src = fo.eid ∧ ev.family = family ∧ ev.code = code ∧
    ev.addr = addr ∧ ev.slot = some fo.firing.slot ∧ ev.word = fo.firing.word ∧ ev.time = s.now ∧
    ev.heads = (s.elem fo.eid).headsWord ∧
    ev.tokens = fo.firing.entries fo.eid (if elemType fo.eid = .ag ∧ family = 3 ∧ withheld family code then 6 else 5)

/-- An instruction takes a fault. -/
def Faults (i : Instr) (s : State) (fo : Focus) (family code addr : Nat) : Prop :=
  ∃ t, exec i s = .next t ∧ TookFault s t fo family code addr

end Claims

end Sys2Proof
end

