-- ==== Sys2Proof/Certificates/Slice0/Obligations.lean ====
section
/-! DEFINITION. The statements about the model, each with the rules of spec/ that it follows. -/

namespace Sys2Proof.Claims

open Sys2Proof.Machine

/-! ## Integer lanes -/

/-- An integer brought into a range by its nearest bound. -/
def into (lo hi x : Int) : Word := BitVec.ofInt 32 (max lo (min hi x))

/-- OF where an integer lies outside a range (R213, R258). -/
def overflow (lo hi x : Int) : Word := if lo ≤ x ∧ x ≤ hi then 0 else 0x04

def minS : Int := -(2 ^ 31)
def maxS : Int := 2 ^ 31 - 1
def maxU : Int := 2 ^ 32 - 1

/-- All ones where a condition holds (R261). -/
def ones (c : Bool) : Word := if c then 0xFFFFFFFF else 0

/-- An operation that saturates under SAT and wraps without it (R258). -/
def satRule (i : Slot → Instr) (exact : Word → Word → Word → Int) : LaneRule where
  instr := i
  op := fun w a b c => if w.sat then into minS maxS (exact a b c) else BitVec.ofInt 32 (exact a b c)
  flags := fun w a b c => if w.sat then overflow minS maxS (exact a b c) else 0

/-- The lane-wise integer instructions (R258 to R261). -/
def integerRules : List LaneRule :=
  [ { instr := .mov, op := fun _ a _ _ => a },
    { instr := .add, op := fun _ a b _ => BitVec.ofNat 32 (a.toNat + b.toNat) },
    { instr := .sub, op := fun _ a b _ => BitVec.ofInt 32 (a.toInt - b.toInt) },
    { instr := .adds, op := fun _ a b _ => into minS maxS (a.toInt + b.toInt),
      flags := fun _ a b _ => overflow minS maxS (a.toInt + b.toInt) },
    { instr := .subs, op := fun _ a b _ => into minS maxS (a.toInt - b.toInt),
      flags := fun _ a b _ => overflow minS maxS (a.toInt - b.toInt) },
    { instr := .addus, op := fun _ a b _ => into 0 maxU ((a.toNat : Int) + b.toNat),
      flags := fun _ a b _ => overflow 0 maxU ((a.toNat : Int) + b.toNat) },
    { instr := .subus, op := fun _ a b _ => into 0 maxU ((a.toNat : Int) - b.toNat),
      flags := fun _ a b _ => overflow 0 maxU ((a.toNat : Int) - b.toNat) },
    satRule .mul (fun a b _ => a.toInt * b.toInt),
    { instr := .mulh, op := fun _ a b _ => BitVec.ofInt 32 (a.toInt * b.toInt / 2 ^ 32) },
    { instr := .mulhu, op := fun _ a b _ => BitVec.ofNat 32 (a.toNat * b.toNat / 2 ^ 32) },
    satRule .mad (fun a b c => a.toInt * b.toInt + c.toInt),
    satRule .neg (fun a _ _ => -a.toInt),
    satRule .abs (fun a _ _ => |a.toInt|) ] ++
  [ { instr := .div,
      op := fun _ a b _ => if b = 0 then 0xFFFFFFFF else BitVec.ofInt 32 (Int.tdiv a.toInt b.toInt),
      flags := fun _ a b _ => if b = 0 then 0x20 else if a = 0x80000000 ∧ b = 0xFFFFFFFF then 0x04 else 0 },
    { instr := .divu, op := fun _ a b _ => if b = 0 then 0xFFFFFFFF else BitVec.ofNat 32 (a.toNat / b.toNat),
      flags := fun _ _ b _ => if b = 0 then 0x20 else 0 },
    { instr := .rem, op := fun _ a b _ => if b = 0 then a else BitVec.ofInt 32 (Int.tmod a.toInt b.toInt),
      flags := fun _ _ b _ => if b = 0 then 0x20 else 0 },
    { instr := .remu, op := fun _ a b _ => if b = 0 then 0xFFFFFFFF else BitVec.ofNat 32 (a.toNat % b.toNat),
      flags := fun _ _ b _ => if b = 0 then 0x20 else 0 },
    { instr := .min, op := fun _ a b _ => BitVec.ofInt 32 (min a.toInt b.toInt) },
    { instr := .max, op := fun _ a b _ => BitVec.ofInt 32 (max a.toInt b.toInt) },
    { instr := .minu, op := fun _ a b _ => BitVec.ofNat 32 (min a.toNat b.toNat) },
    { instr := .maxu, op := fun _ a b _ => BitVec.ofNat 32 (max a.toNat b.toNat) } ] ++
  [ { instr := .and, op := fun _ a b _ => a &&& b },
    { instr := .or, op := fun _ a b _ => a ||| b },
    { instr := .xor, op := fun _ a b _ => a ^^^ b },
    { instr := .andn, op := fun _ a b _ => a &&& ~~~b },
    { instr := .not, op := fun _ a _ _ => ~~~a },
    { instr := .shl, op := fun _ a b _ => BitVec.ofNat 32 (a.toNat * 2 ^ (b.toNat % 32)) },
    { instr := .shr, op := fun _ a b _ => BitVec.ofNat 32 (a.toNat / 2 ^ (b.toNat % 32)) },
    { instr := .sar, op := fun _ a b _ => BitVec.ofInt 32 (a.toInt / 2 ^ (b.toNat % 32)) },
    { instr := .rol, op := fun _ a b _ => (a <<< (b.toNat % 32)) ||| (a >>> (32 - b.toNat % 32)) },
    { instr := .clz, op := fun _ a _ _ =>
        BitVec.ofNat 32 (((List.range 32).takeWhile (fun k => !a.getLsbD (31 - k))).length) },
    { instr := .popc, op := fun _ a _ _ => BitVec.ofNat 32 (((List.range 32).filter (fun k => a.getLsbD k)).length) },
    { instr := .brev, op := fun _ a _ _ => a.reverse } ] ++
  [ { instr := .bfx, op := fun w a _ _ =>
        let pos := w.imm.toNat % 32
        let width := w.imm.toNat / 32 % 64
        let v := (a &&& BitVec.ofNat 32 ((2 ^ width - 1) * 2 ^ pos)) >>> pos
        if w.rnd = 1 ∧ v.getLsbD (width - 1) = true then v ||| BitVec.ofNat 32 (2 ^ 32 - 2 ^ width) else v },
    { instr := .bfi, op := fun w a b _ =>
        let pos := w.imm.toNat % 32
        let m := BitVec.ofNat 32 ((2 ^ (w.imm.toNat / 32 % 64) - 1) * 2 ^ pos)
        (a &&& ~~~m) ||| ((b <<< pos) &&& m) },
    { instr := .cmpeq, op := fun _ a b _ => ones (a.toNat = b.toNat) },
    { instr := .cmpne, op := fun _ a b _ => ones (a.toNat ≠ b.toNat) },
    { instr := .cmplt, op := fun _ a b _ => ones (a.toInt < b.toInt) },
    { instr := .cmple, op := fun _ a b _ => ones (a.toInt ≤ b.toInt) },
    { instr := .cmpltu, op := fun _ a b _ => ones (a.toNat < b.toNat) },
    { instr := .cmpleu, op := fun _ a b _ => ones (a.toNat ≤ b.toNat) } ]

/-- The pair-wise integer instructions (R262), and the scalar ones (R261, R263, R264). -/
def pairRules : List SlotRule :=
  [ (Instr.add64, fun a b => BitVec.ofNat 64 (a.toNat + b.toNat)),
    (Instr.sub64, fun a b => BitVec.ofInt 64 (a.toInt - b.toInt)),
    (Instr.mul64, fun a b => BitVec.ofNat 64 (a.toNat * b.toNat)),
    (Instr.cmplt64, fun a b => if a.toInt < b.toInt then 0xFFFFFFFFFFFFFFFF else 0) ].map
    (fun (x : (Slot → Instr) × (DWord → DWord → DWord)) => builtRule x.1 (fun w _ fo => perPair w fo.firing x.2))

def scalarRules : List SlotRule :=
  [ { instr := .nop, pre := fun _ _ _ => True, effect := fun _ _ _ => .nothing },
    builtRule .sel (fun _ _ fo => lanesOf (fun l =>
      if validAt fo.firing.c.lanes l then
        if wordAt fo.firing.c.lanes l ≠ 0 then laneAt fo.firing.a.lanes l else laneAt fo.firing.b.lanes l
      else none)),
    builtRule .amov (fun w _ fo => lanesOf (fun _ => laneAt fo.firing.a.lanes (w.imm.toNat % 16))),
    { builtRule .aadd (fun w _ fo =>
        let sum := BitVec.ofNat 32 ((wordAt fo.firing.a.lanes 0).toNat + (wordAt fo.firing.b.lanes 0).toNat)
        let c := wordAt fo.firing.c.lanes 0
        if sourcesValid w fo.firing 0 then
          Lanes.all (if w.x = true ∧ c.toNat ≤ sum.toNat then sum - c else sum)
        else Lanes.empty) with
      pre := fun w _ fo => BuiltFits w fo ∧
        ¬(w.x = true ∧ wordAt fo.firing.c.lanes 0 = 0 ∧ sourcesValid w fo.firing 0 = true) } ]

/-! ## Floats -/

/-- The value of an element. -/
def valOf (w : Slot) (a : Nat) : FVal := (fmtOf w.d).unpack a

/-- The class 1 arithmetic (R281): an exact value rounded once in RND. -/
def floatArithRules : List SlotRule :=
  [ elemRule .fadd (fun w a b _ => roundExact w (addVal (rndOf w.rnd) (valOf w a) (valOf w b))),
    elemRule .fsub (fun w a b _ => roundExact w (addVal (rndOf w.rnd) (valOf w a) (valOf w b).negate)),
    elemRule .fmul (fun w a b _ => roundExact w (mulVal (valOf w a) (valOf w b))),
    elemRule .ffma (fun w a b c => roundExact w (fmaVal (rndOf w.rnd) (valOf w a) (valOf w b) (valOf w c))),
    elemRule .ffms (fun w a b c => roundExact w (fmaVal (rndOf w.rnd) (valOf w a) (valOf w b) (valOf w c).negate)),
    elemRule .fnma (fun w a b c => roundExact w (fmaVal (rndOf w.rnd) (valOf w a).negate (valOf w b) (valOf w c))),
    elemRule .fdiv (fun w a b _ => (fmtOf w.d).div (rndOf w.rnd) (valOf w a) (valOf w b)),
    elemRule .fsqrt (fun w a _ _ => (fmtOf w.d).sqrt (rndOf w.rnd) (valOf w a)),
    elemRule .frcp (fun w a _ _ => (fmtOf w.d).rcp (rndOf w.rnd) (valOf w a)),
    elemRule .frsq (fun w a _ _ => (fmtOf w.d).rsq (rndOf w.rnd) (valOf w a)),
    elemRule .frint (fun w a _ _ => (fmtOf w.d).rint (rndOf w.rnd) a),
    elemRule .fscale (fun w a b _ => (fmtOf w.d).scale (rndOf w.rnd) a
      (if w.d then (BitVec.ofNat 64 b).toInt else (BitVec.ofNat 32 b).toInt)) ]

/-- The bits below the sign bit of an element, and its sign bit. -/
def magnitude (w : Slot) (a : Nat) : Nat := a % (if w.d then 2 ^ 63 else 2 ^ 31)
def signPart (w : Slot) (a : Nat) : Nat := a - magnitude w a

/-- All ones in every word of an element (R282). -/
def elemOnes (w : Slot) (c : Bool) : Nat := if c then (if w.d then 2 ^ 64 - 1 else 2 ^ 32 - 1) else 0

/-- The class of an element, as the number of the bit that FCLASS sets (R283). -/
def classBit (w : Slot) (a : Nat) : Nat :=
  match valOf w a with
  | .nan true => 8
  | .nan false => 9
  | .inf true => 0
  | .inf false => 7
  | .num n m _ =>
    if m = 0 then (if n then 3 else 4)
    else if m < (if w.d then 2 ^ 52 else 2 ^ 23) then (if n then 2 else 5)
    else (if n then 1 else 6)

/-- The class 1 instructions that select, compare and classify (R282, R283). -/
def floatSelectRules : List SlotRule :=
  [ elemRule .fmin (fun w a b _ => (fmtOf w.d).minMax false a b),
    elemRule .fmax (fun w a b _ => (fmtOf w.d).minMax true a b),
    elemRule .fabs (fun w a _ _ => (magnitude w a, 0)),
    elemRule .fneg (fun w a _ _ => (if signPart w a = 0 then a + (if w.d then 2 ^ 63 else 2 ^ 31) else magnitude w a, 0)),
    elemRule .fcopysgn (fun w a b _ => (magnitude w a + signPart w b, 0)),
    elemRule .fcmpeq (fun w a b _ => let r := (fmtOf w.d).compare .eq a b; (elemOnes w r.1, r.2)),
    elemRule .fcmplt (fun w a b _ => let r := (fmtOf w.d).compare .lt a b; (elemOnes w r.1, r.2)),
    elemRule .fcmple (fun w a b _ => let r := (fmtOf w.d).compare .le a b; (elemOnes w r.1, r.2)),
    elemRule .fcmpun (fun w a b _ => (elemOnes w ((valOf w a).isNan || (valOf w b).isNan),
      if (valOf w a).isSig ∨ (valOf w b).isSig then 0x01 else 0)),
    elemRule .fexpn (fun w a _ _ =>
      let r := (fmtOf w.d).expn (if w.d then 64 else 32) a
      ((if w.d then (BitVec.ofInt 64 r.1).toNat else (BitVec.ofInt 32 r.1).toNat), r.2)) ]

/-- The conversions (R284, R285) and FRRED (R286). -/
def convertRules : List SlotRule :=
  [ elemRule .cvtfi (fun w a _ _ =>
      let r := fmtS.toInt (rndOf w.rnd) (-(2 ^ 31)) (2 ^ 31 - 1) a; ((BitVec.ofInt 32 r.1).toNat, r.2)),
    elemRule .cvtfu (fun w a _ _ =>
      let r := fmtS.toInt (rndOf w.rnd) 0 (2 ^ 32 - 1) a; ((BitVec.ofInt 32 r.1).toNat, r.2)),
    elemRule .cvtif (fun w a _ _ => fmtS.ofInt (rndOf w.rnd) (BitVec.ofNat 32 a).toInt),
    elemRule .cvtuf (fun w a _ _ => fmtS.ofInt (rndOf w.rnd) (a : Int)),
    elemRule .cvtdi (fun w a _ _ =>
      let r := fmtD.toInt (rndOf w.rnd) (-(2 ^ 63)) (2 ^ 63 - 1) a; ((BitVec.ofInt 64 r.1).toNat, r.2)),
    elemRule .cvtid (fun w a _ _ => fmtD.ofInt (rndOf w.rnd) (BitVec.ofNat 64 a).toInt),
    elemRule .frred (fun w a _ _ => (fmtOf w.d).rred a),
    builtRule .cvtds
      (fun w _ fo => lanesOf (fun l =>
        (pairAt (if l < 8 then fo.firing.a.lanes else fo.firing.b.lanes) (l % 8)).map
          (fun d => BitVec.ofNat 32 (narrowDS (rndOf w.rnd) d.toNat).1)))
      (fun w _ fo => (List.range 16).foldl (fun acc l =>
        match pairAt (if l < 8 then fo.firing.a.lanes else fo.firing.b.lanes) (l % 8) with
        | some d => acc ||| (narrowDS (rndOf w.rnd) d.toNat).2
        | none => acc) 0),
    { instr := .cvtsd,
      pre := fun w _ fo => BuiltFits w fo,
      effect := fun w _ fo =>
        let half (base : Nat) : Lanes := lanesOfPairs (fun k =>
          (laneAt fo.firing.a.lanes (base + k)).map (fun a => BitVec.ofNat 64 (widenSD a.toNat).1))
        .two (some (half 0, builtTag w fo.firing)) (some (half 8, builtTag w fo.firing))
          ((List.range (if w.db = .none then 8 else 16)).foldl (fun acc l =>
            match laneAt fo.firing.a.lanes l with
            | some a => acc ||| (widenSD a.toNat).2
            | none => acc) 0) } ]

/-- The special functions (R287), with the part's own value where the spec only bounds it (log 6). -/
def specialRules : List SlotRule :=
  [ elemRule .fsinpi (fun _ a _ _ => SpecialFn.sinpi.result 0x088 a),
    elemRule .fcospi (fun _ a _ _ => SpecialFn.cospi.result 0x089 a),
    elemRule .fexp2 (fun _ a _ _ => SpecialFn.exp2.result 0x08B a),
    elemRule .flog2 (fun _ a _ _ => SpecialFn.log2.result 0x08C a),
    elemRule .ftanh (fun _ a _ _ => SpecialFn.tanh.result 0x08D a),
    elemRule .fsigm (fun _ a _ _ => SpecialFn.sigm.result 0x08E a) ]

/-- The functions of R287 with their opcodes. -/
def specialFns : List (SpecialFn × Nat) :=
  [(.sinpi, 0x088), (.cospi, 0x089), (.exp2, 0x08B), (.log2, 0x08C), (.tanh, 0x08D), (.sigm, 0x08E)]

/-- R287: a result that the spec only bounds lies within the bound and the range of its function, and sets NX. -/
def SpecialBounded : Prop :=
  ∀ f ∈ specialFns, ∀ a neg lo hi, f.1.of a = .near neg lo hi →
    f.1.allows neg lo hi (f.1.result f.2 a).1 = true ∧ (f.1.result f.2 a).2 &&& flagNX = flagNX

/-- R287: what the functions give NaNs, infinities and zeros. -/
def SpecialInputs : Prop :=
  (∀ f ∈ specialFns, ∀ a s, fmtS.unpack a = .nan s → f.1.result f.2 a = (0x7FC00000, if s = true then 0x01 else 0)) ∧
  (∀ a n, fmtS.unpack a = .inf n →
    SpecialFn.sinpi.result 0x088 a = (0x7FC00000, 0x01) ∧ SpecialFn.cospi.result 0x089 a = (0x7FC00000, 0x01) ∧
    SpecialFn.exp2.result 0x08B a = (if n = true then 0 else 0x7F800000, 0) ∧
    SpecialFn.log2.result 0x08C a = (if n = true then (0x7FC00000, 0x01) else (0x7F800000, 0)) ∧
    SpecialFn.tanh.result 0x08D a = (if n = true then 0xBF800000 else 0x3F800000, 0) ∧
    SpecialFn.sigm.result 0x08E a = (if n = true then 0 else 0x3F800000, 0)) ∧
  ∀ a, a = 0 ∨ a = 0x80000000 →
    SpecialFn.sinpi.result 0x088 a = (a, 0) ∧ SpecialFn.cospi.result 0x089 a = (0x3F800000, 0) ∧
    SpecialFn.exp2.result 0x08B a = (0x3F800000, 0) ∧ SpecialFn.log2.result 0x08C a = (0xFF800000, 0x02) ∧
    SpecialFn.tanh.result 0x08D a = (a, 0) ∧ SpecialFn.sigm.result 0x08E a = (0x3F000000, 0)

/-- R287: the arguments with an exact result, and those that overflow. -/
def SpecialExact : Prop :=
  ∀ a neg m e, fmtS.unpack a = .num neg m e → m ≠ 0 →
    (∀ n : Nat, (m : ℚ) * 2 ^ e = n →
      SpecialFn.sinpi.result 0x088 a = (if neg = true then 0x80000000 else 0, 0) ∧
      SpecialFn.cospi.result 0x089 a = (if n % 2 = 1 then 0xBF800000 else 0x3F800000, 0) ∧
      (neg = false → SpecialFn.exp2.result 0x08B a = if n < 128 then ((127 + n) * 2 ^ 23, 0) else (0x7F800000, 0x14)) ∧
      (neg = true → n ≤ 149 → SpecialFn.exp2.result 0x08B a = (if n ≤ 126 then (127 - n) * 2 ^ 23 else 2 ^ (149 - n), 0))) ∧
    (∀ n : Nat, (m : ℚ) * 2 ^ e = n + 1 / 2 →
      SpecialFn.sinpi.result 0x088 a = (if (n % 2 = 1) = (neg = true) then 0x3F800000 else 0xBF800000, 0) ∧
      SpecialFn.cospi.result 0x089 a = (0, 0)) ∧
    (neg = false → (128 : ℚ) ≤ m * 2 ^ e → SpecialFn.exp2.result 0x08B a = (0x7F800000, 0x14)) ∧
    (neg = true → SpecialFn.log2.result 0x08C a = (0x7FC00000, 0x01)) ∧
    ∀ k : Int, neg = false → (m : ℚ) * 2 ^ e = 2 ^ k →
      SpecialFn.log2.result 0x08C a = ((fmtS.round .rne (decide (k < 0)) k.natAbs 0 false).1, 0)

/-! ## Lanes, reductions and scans -/

/-- The lane moves (R288) and the valid masks (R289). -/
def laneMoveRules : List SlotRule :=
  [ builtRule .lswap (fun w _ fo => lanesOf (fun l => laneAt fo.firing.a.lanes (Nat.xor l (2 ^ w.rnd.toNat) % 16))),
    builtRule .lrot (fun _ _ fo => lanesOf (fun l =>
      (laneAt fo.firing.b.lanes 0).bind (fun n => laneAt fo.firing.a.lanes ((l + 16 - n.toNat % 16) % 16)))),
    builtRule .lperm (fun w _ fo => lanesOf (fun l => (laneAt fo.firing.b.lanes l).bind (fun i =>
      laneAt (if w.x = true ∧ i.getLsbD 4 = true then fo.firing.c.lanes else fo.firing.a.lanes) (i.toNat % 16)))),
    builtRule .lbcast (fun _ _ fo => lanesOf (fun _ =>
      (laneAt fo.firing.b.lanes 0).bind (fun n => laneAt fo.firing.a.lanes (n.toNat % 16)))),
    builtRule .lxor (fun _ _ fo => lanesOf (fun l =>
      (laneAt fo.firing.b.lanes 0).bind (fun n => laneAt fo.firing.a.lanes (Nat.xor l (n.toNat % 16) % 16)))),
    builtRule .lcomp (fun w _ fo => lanesOf (fun l =>
      laneAt (if l < 8 then fo.firing.a.lanes else fo.firing.b.lanes) (2 * (l % 8) + w.rnd.toNat))),
    builtRule .lexp (fun w _ fo => lanesOf (fun l =>
      let k := (if w.x then 8 else 0) + l / 2
      let a := laneAt fo.firing.a.lanes k
      if l % 2 = 0 then a
      else if w.rnd = 0 then a.map (fun x => if x.toInt < 0 then 0xFFFFFFFF else 0)
      else if w.rnd = 1 then a.map (fun _ => 0)
      else if w.rnd = 2 then a
      else laneAt fo.firing.b.lanes k)),
    { builtRule .lshup (fun _ _ fo => lanesOf (fun l => (laneAt fo.firing.b.lanes 0).bind (fun n =>
        if n.toNat ≤ l then laneAt fo.firing.a.lanes (l - n.toNat)
        else laneAt fo.firing.c.lanes (l + 16 - n.toNat)))) with
      pre := fun w _ fo => BuiltFits w fo ∧ ∀ n, laneAt fo.firing.b.lanes 0 = some n → n.toNat ≤ 16 },
    builtRule .vmask (fun _ _ fo => lanesOf (fun l =>
      if (wordAt fo.firing.b.lanes 0).getLsbD l then laneAt fo.firing.a.lanes l else none)),
    builtRule .vvalid (fun w _ fo => Lanes.all
      (if w.rnd = 1 then BitVec.ofNat 32 ((List.range 16).filter (validAt fo.firing.a.lanes)).length
       else (validMask fo.firing.a.lanes).setWidth 32)) ]

/-- The elements of A that are valid, in order. -/
def presentElems (w : Slot) (f : Firing) : List Nat :=
  ((List.range (elemCount w.d)).filter (elemValid w.d f.a.lanes)).map (elemBits w.d f.a.lanes)

/-- An element as a number: unsigned under MOD 001, signed otherwise (R290). -/
def orderOf (w : Slot) (a : Nat) : Int :=
  if w.rnd = 1 then (a : Int) else if w.d then (BitVec.ofNat 64 a).toInt else (BitVec.ofNat 32 a).toInt

/-- A reduction of the valid elements, in every element; where none is valid no element is (R290). -/
def reduceRule (i : Slot → Instr) (op : Slot → Nat → Nat → Nat) : SlotRule :=
  builtRule i (fun w _ fo =>
    match presentElems w fo.firing with
    | [] => lanesOfElems w.d (fun _ => none)
    | x :: l => lanesOfElems w.d (fun _ => some (l.foldl (op w) x)))

/-- Reductions (R290, R291) and scans (R292). -/
def reductionRules : List SlotRule :=
  [ reduceRule .vradd (fun w a b => (a + b) % (if w.d then 2 ^ 64 else 2 ^ 32)),
    reduceRule .vrmin (fun w a b => if orderOf w b < orderOf w a then b else a),
    reduceRule .vrmax (fun w a b => if orderOf w a < orderOf w b then b else a),
    builtRule .vrfadd (fun w _ fo => spreadElem w.d ((treeRoot (addElem w) (if w.d then 3 else 4)
        ((elemsOf w.d fo.firing.a.lanes).map (fun x => (x, 0)))).1.map (canonical w.d)))
      (fun w _ fo => (treeRoot (addElem w) (if w.d then 3 else 4)
        ((elemsOf w.d fo.firing.a.lanes).map (fun x => (x, 0)))).2),
    builtRule .vrfmax (fun w _ fo => spreadElem w.d ((treeRoot ((fmtOf w.d).minMax true) (if w.d then 3 else 4)
        ((elemsOf w.d fo.firing.a.lanes).map (fun x => (x, 0)))).1.map (canonical w.d)))
      (fun w _ fo => (treeRoot ((fmtOf w.d).minMax true) (if w.d then 3 else 4)
        ((elemsOf w.d fo.firing.a.lanes).map (fun x => (x, 0)))).2),
    { instr := .vscan,
      pre := fun w _ fo => BuiltFits w fo,
      effect := fun w _ fo =>
        let m := if w.d then 2 ^ 64 else 2 ^ 32
        let v (k : Nat) : Nat := if elemValid w.d fo.firing.a.lanes k then elemBits w.d fo.firing.a.lanes k else 0
        let c := (carryOf w fo.firing).getD 0
        let sum (n : Nat) : Nat := (c + ((List.range n).map v).sum) % m
        .two
          (some (lanesOfElems w.d (fun k => if elemValid w.d fo.firing.a.lanes k then
            some (sum (if w.x then k else k + 1)) else none), builtTag w fo.firing))
          (some (lanesOfElems w.d (fun _ => some (sum (elemCount w.d))), builtTag w fo.firing)) 0 },
    { instr := .vfscan,
      pre := fun w _ fo => BuiltFits w fo,
      effect := fun w _ fo =>
        let c := carryOf w fo.firing
        let l := (if w.d then [1, 2, 4] else [1, 2, 4, 8]).foldl
          (fun (l : List Node) (dist : Nat) => doubling (addElem w) dist l)
          ((elemsOf w.d fo.firing.a.lanes).map (fun x => (x, 0)))
        let l := if c.isSome then l.map (fun x => combineNode (addElem w) (c, 0) x) else l
        let val (x : Option Nat) : Nat := (x.map (canonical w.d)).getD 0
        let at_ (k : Nat) : Nat := val (nth l k (none, 0)).1
        .two
          (some (lanesOfElems w.d (fun k => if elemValid w.d fo.firing.a.lanes k then
            some (if !w.x then at_ k else if k = 0 then val c else at_ (k - 1)) else none), builtTag w fo.firing))
          (some (lanesOfElems w.d (fun _ => some (at_ (elemCount w.d - 1))), builtTag w fo.firing))
          (flagsOr (l.map (·.2))) } ]

/-! ## Exact-window accumulators -/

/-- The value of an element as a term; none where it is NaN or infinite (R208, R295). -/
def termValue (int d : Bool) (b : Nat) : Option ℚ :=
  if int then some (if d then (BitVec.ofNat 64 b).toInt else (BitVec.ofNat 32 b).toInt)
  else match (fmtOf d).unpack b with
    | .num n m e => some ((if n then -1 else 1) * m * (2 : ℚ) ^ e)
    | _ => none

/-- A register of N = n bits after a term t is taken, and the LOST and TOV that this sets (R208). -/
def takeIn (n : Nat) (we : Int) (reg : Nat) (t : ℚ) : Nat × Bool × Bool :=
  let v : Int := ⌊t / (2 : ℚ) ^ we⌋
  if v < -(2 ^ (n - 1)) ∨ 2 ^ (n - 1) - 1 < v then (reg, decide ((v : ℚ) * (2 : ℚ) ^ we ≠ t), true)
  else (((reg + v) % 2 ^ (n + 32)).toNat, decide ((v : ℚ) * (2 : ℚ) ^ we ≠ t), false)

/-- The same for an accumulator of a processing element, where an element may be no number. -/
def takeValue (d : Bool) (we : Int) (reg : Nat) (t : Option ℚ) : Nat × Bool × Bool :=
  match t with
  | none => (reg, false, true)
  | some t => takeIn (if d then 352 else 160) we reg t

/-- An accumulator after a term for each element that has one (R295). -/
def takeAll (w : Slot) (f : Firing) (t : Nat → Option ℚ) (x : Acc) : Acc :=
  let take (e : Nat) : Nat × Bool × Bool := takeValue w.d x.we.toInt (x.reg w.d e) (t e)
  let es := (List.range (elemCount w.d)).filter (elemPresent w f)
  { x.setRegs w.d (fun e => if elemPresent w f e then (take e).1 else x.reg w.d e) with
    lost := x.lost || es.any (fun e => (take e).2.1), tov := x.tov || es.any (fun e => (take e).2.2) }

/-- The accumulator that DA names is changed; no result, flag or other register. -/
def accRule (i : Slot → Instr) (ok : Slot → State → Focus → Prop) (f : Slot → Focus → Acc → Acc) : SlotRule :=
  freeRule i ok (fun _ _ _ => .nothing)
    (fun w _ fo e => { e with x := upd e.x (match w.da with | .x n => n.val | _ => 0) (f w fo) })

/-- No source token is POISON. -/
def Clean (w : Slot) (_ : State) (fo : Focus) : Prop := fo.firing.poisoned w = false

/-- The index of XSEND and XMERGE: lane 0 of B, 0 to 5 (R296, R297). -/
def IndexIs (fo : Focus) (j : Nat) : Prop := laneAt fo.firing.b.lanes 0 = some (BitVec.ofNat 32 j) ∧ j < 6

/-- The accumulator that SA names, as SELECTION read it (R235, R242). -/
def sentAcc (_ : Slot) (_ : State) (fo : Focus) : Acc := fo.firing.acc.getD Acc.zero

/-- OV of a register: TOV, or the register outside N bits of two's complement (R208, R293). -/
def overflows (x : Acc) (d : Bool) (e : Nat) : Bool :=
  let n := if d then 352 else 160
  let v : Int := if x.reg d e < 2 ^ (n + 31) then x.reg d e else (x.reg d e : Int) - 2 ^ (n + 32)
  x.tov || v < -(2 ^ (n - 1)) || 2 ^ (n - 1) - 1 < v

/-- XLOST and XOV as XRD and XFLAG set them (R298). -/
def accFlags (x : Acc) (d : Bool) : Word :=
  (if x.lost then 0x40 else 0) ||| (if (List.range (elemCount d)).any (overflows x d) then 0x80 else 0)

/-- XCLR, XADD, XMAC (R295), XMERGE (R297). -/
def accRules : List SlotRule :=
  [ accRule .xclr (fun _ _ _ => True) (fun w _ _ =>
      { regs := Lanes.ofFn (fun _ => 0), we := BitVec.ofNat 12 w.imm.toNat, lost := false, tov := false }),
    accRule .xadd Clean (fun w fo => takeAll w fo.firing (fun e => termValue w.x w.d (elemBits w.d fo.firing.a.lanes e))),
    accRule .xmac Clean (fun w fo => takeAll w fo.firing (fun e =>
      match termValue w.x w.d (elemBits w.d fo.firing.a.lanes e), termValue w.x w.d (elemBits w.d fo.firing.b.lanes e) with
      | some t, some u => some (t * u)
      | _, _ => none)) ]

/-- XMERGE with index j (R297). -/
def mergeRule (j : Nat) : SlotRule :=
  freeRule .xmerge
    (fun w s fo => Clean w s fo ∧ IndexIs fo j ∧ (if j = 0 then 1 ≤ fo.firing.a.passTag.toNat ∧ fo.firing.a.passTag.toNat ≤ 4
      else fo.firing.a.passTag = 0))
    (fun w _ fo => .two none (some (Lanes.all (BitVec.ofNat 32 ((j + 1) % 6)), builtTag w fo.firing)) 0)
    (fun w _ fo e => { e with x := upd e.x (match w.da with | .x n => n.val | _ => 0) (fun x =>
      let word (l : Nat) : Nat := (wordAt fo.firing.a.lanes l).toNat * 2 ^ (32 * j)
      let y := x.setRegs w.d (fun k =>
        if w.d then (x.reg true k + word (2 * k) + word (2 * k + 1) * 2 ^ 192) % 2 ^ 384 else (x.reg false k + word k) % 2 ^ 192)
      let tag := fo.firing.a.passTag.toNat - 1
      if j = 0 then { y with lost := y.lost || tag.testBit 0, tov := y.tov || tag.testBit 1 } else y) })

/-- XSEND with index j (R209, R296). -/
def sendRule (j : Nat) : SlotRule :=
  freeRule .xsend (fun _ _ fo => IndexIs fo j)
    (fun w s fo =>
      let x := sentAcc w s fo
      .two (some (Lanes.all (BitVec.ofNat 32 ((j + 1) % 6)), builtTag w fo.firing))
        (some (lanesOf (fun l => some (BitVec.ofNat 32 (x.reg false l / 2 ^ (32 * j)))),
          if fo.firing.poisoned w then tagPoison
          else if j = 0 then BitVec.ofNat 4 (1 + (if x.lost then 1 else 0) + (if x.tov then 2 else 0)) else 0)) 0)

/-- XRD and XFLAG (R211, R298). -/
def accReadRules : List SlotRule :=
  [ freeRule .xrd (fun w _ fo => fo.firing.poisoned w = false)
      (fun w s fo =>
        let x := sentAcc w s fo
        let n := if w.d then 352 else 160
        let r (e : Nat) : Nat × Word :=
          if overflows x w.d e then ((fmtOf w.d).nan, 0x01)
          else
            let v : Int := if x.reg w.d e % 2 ^ n < 2 ^ (n - 1) then (x.reg w.d e % 2 ^ n : Nat)
              else ((x.reg w.d e % 2 ^ n : Nat) : Int) - 2 ^ n
            (fmtOf w.d).round (rndOf w.rnd) (v < 0) v.natAbs x.we.toInt false
        .one (some (lanesOfElems w.d (fun k => some (r k).1), builtTag w fo.firing))
          ((List.range (elemCount w.d)).foldl (fun acc k => acc ||| (r k).2) 0 ||| accFlags x w.d)),
    freeRule .xflag (fun w _ fo => fo.firing.poisoned w = false)
      (fun w s fo =>
        let x := sentAcc w s fo
        .one (some (lanesOfElems w.d (fun k => some ((if x.lost then 1 else 0) + (if overflows x w.d k then 2 else 0) +
          (if x.tov then 4 else 0))), builtTag w fo.firing)) (accFlags x w.d)) ]

/-! ## Streams of tokens -/

/-- A source's token as it is passed: its own tag from an input head, DATA otherwise (R265). -/
def pass (v : View) : Result := some (v.lanes, v.tag.getD 0)

/-- Control operands that are not POISON (R265). -/
def Controls (vs : Firing → List View) (_ : Slot) (_ : State) (fo : Focus) : Prop :=
  ∀ v ∈ vs fo.firing, v.tag ≠ some tagPoison

/-- A head counts as an end of ZIP against the other (R271). -/
def endAgainst (a b : Tag) : Bool := isEnd a && !(isEnd b && a.toNat < b.toNat)

/-- PASS and DUP (R267), FILT (R268), GATE (R269), MERGE (R270), ZIP (R271). -/
def passRules : List SlotRule :=
  [ freeRule .pass (fun _ _ _ => True) (fun _ _ fo => .one (pass fo.firing.a) 0),
    freeRule .dup (Controls (fun f => [f.c]))
      (fun _ _ fo => .two (pass fo.firing.a) (some (Lanes.all (
        if (wordAt fo.firing.b.lanes 0).toNat ≤ 1 then wordAt fo.firing.c.lanes 0
        else BitVec.ofNat 32 ((wordAt fo.firing.b.lanes 0).toNat - 1)), 0)) 0),
    freeRule .filt (fun w s fo => Controls (fun f => [f.b]) w s fo ∧
        ¬(fo.firing.a.tag = some tagPoison ∧ PredMode.tests w.pm = true))
      (fun w _ fo =>
        let keep (l : Nat) : Bool := validAt fo.firing.b.lanes l && wordAt fo.firing.b.lanes l != 0
        let part (d : Dst) (k : Bool) : Result :=
          let l := lanesOf (fun l => if keep l = k then laneAt fo.firing.a.lanes l else none)
          if Dst.isOut d = true ∧ (List.range 16).all (fun i => !validAt l i) = true then none
          else some (l, fo.firing.a.tag.getD 0)
        .two (part w.da true) (part w.db false) 0),
    freeRule .gate (Controls (fun f => [f.b]))
      (fun w _ fo =>
        let cond := validAt fo.firing.b.lanes 0 && wordAt fo.firing.b.lanes 0 != 0
        .one (if cond = decide (w.rnd = 0) then pass fo.firing.a else none) 0),
    freeRule .merge (Controls (fun f => [f.c]))
      (fun _ _ fo => .one (pass (if nth fo.firing.extra 0 0 = 1 then fo.firing.a else fo.firing.b)) 0),
    freeRule .zip (fun w _ fo => w.rnd = 0 →
        endAgainst (fo.firing.a.tag.getD 0) (fo.firing.b.tag.getD 0) = endAgainst (fo.firing.b.tag.getD 0) (fo.firing.a.tag.getD 0))
      (fun w _ fo =>
        let f := fo.firing
        let ta := f.a.tag.getD 0
        let tb := f.b.tag.getD 0
        if endAgainst ta tb = endAgainst tb ta then .two (pass f.a) (pass f.b) 0
        else if w.rnd = 1 then .two none none 0
        else if endAgainst ta tb then .two (some (f.c.lanes, tb)) (pass f.b) 0
        else .two (pass f.a) (some (f.c.lanes, ta)) 0) ]

/-- The decision that an ISECT or UNION firing took at its selection, from the heads and cursors (R273). -/
def joined (union : Bool) (fo : Focus) : Join :=
  joinOf union fo.firing.a fo.firing.b fo.firing.c (nth fo.firing.extra 0 0) (nth fo.firing.extra 1 0)

/-- ISECT and UNION (R273): the pairs of the decision, or the end tokens, or nothing. -/
def joinRule (i : Slot → Instr) (union : Bool) : SlotRule :=
  freeRule i
    (fun _ _ fo => ((joined union fo).readA = true → fo.firing.a.tag ≠ some tagPoison) ∧
      ((joined union fo).readB = true → fo.firing.b.tag ≠ some tagPoison))
    (fun w _ fo =>
      let j := joined union fo
      let tag := if w.kt then fo.firing.ktTag w else w.otag
      let side (g : Word × Word × Word → Word) : Lanes := lanesOf (fun l =>
        (j.out[l / 2]?).map (fun x => if l % 2 = 0 then x.1 else g x))
      if j.ends then .two (pass fo.firing.a) (pass fo.firing.b) 0
      else if j.out = [] then .two none none 0
      else .two (some (side (fun x => x.2.1), tag)) (some (side (fun x => x.2.2), tag)) 0)

/-- RETAG and TAGSEL (R274), CNT and ENDGEN (R276). -/
def tagRules : List SlotRule :=
  [ freeRule .retag (fun _ _ _ => True) (fun w _ fo =>
      let t := fo.firing.a.tag.getD 0
      let entry (n : Nat) : Tag := BitVec.ofNat 4 (w.imm.toNat / 16 ^ n)
      let first := if w.rnd = 0 then 0 else 8
      let count := if w.rnd = 0 then 8 else 6
      .one (some (fo.firing.a.lanes, if first ≤ t.toNat ∧ t.toNat < first + count then entry (t.toNat - first) else t)) 0),
    freeRule .tagsel (fun _ _ _ => True) (fun w _ fo =>
      if w.imm.toNat.testBit (fo.firing.a.tag.getD 0).toNat then .two (pass fo.firing.a) none 0
      else .two none (pass fo.firing.a) 0),
    freeRule .cnt (Controls (fun f => [f.a, f.b])) (fun w _ fo =>
      let n : Nat := if w.rnd.toNat % 2 = 1 then 1 else ((List.range 16).filter (validAt fo.firing.a.lanes)).length
      let b := (wordAt fo.firing.b.lanes 0).toNat
      .two (some (Lanes.all (BitVec.ofInt 32 (if w.rnd.toNat / 2 % 2 = 1 then (b : Int) - n else (b : Int) + n)),
        if w.kt then fo.firing.ktTag w else w.otag)) (pass fo.firing.a) 0),
    freeRule .endgen (Controls (fun f => [f.b, f.c])) (fun w _ fo =>
      let k := (wordAt fo.firing.b.lanes 0).toNat + 1
      if (wordAt fo.firing.c.lanes 0).toNat ≤ k then
        .two (some (fo.firing.a.lanes, if fo.firing.a.tag = some tagPoison then tagPoison else w.otag))
          (some (Lanes.all 0, 0)) 0
      else .two (pass fo.firing.a) (some (Lanes.all (BitVec.ofNat 32 k), 0)) 0) ]

/-- Bit k that PSET or SLOTEN writes (R277). -/
def writtenBit (w : Slot) (f : Firing) (k : Nat) : Bool :=
  if w.rnd = 1 then (wordAt f.a.lanes 0).toNat.testBit k else w.imm.toNat.testBit k

/-- The remainder that PACK keeps in vK: its lanes up to the first invalid one (R278). -/
def packed (v : Lanes) : List Word := (((List.range 16).map (laneAt v)).takeWhile Option.isSome).filterMap id

/-- ALOOP (R275), PSET and SLOTEN (R277), PACK (R278). -/
def shapeRules : List SlotRule :=
  [ freeRule .aloop (fun _ _ _ => True)
      (fun w s fo =>
        let e := s.elem fo.eid
        let dims := w.imm.toNat % 4 + 1
        let j := ((List.range dims).takeWhile (fun k => (nth e.bank.consts k 0).toNat ≤ (nth e.a k 0).toNat + 1)).length
        .one (some (lanesOf (fun l => if l < dims then e.a[l]? else none),
          if j = 0 then 0 else if j < dims then BitVec.ofNat 4 (7 + j) else tagEnd)) 0)
      (fun w s fo e =>
        let dims := w.imm.toNat % 4 + 1
        let j := ((List.range dims).takeWhile (fun k =>
          (nth (s.elem fo.eid).bank.consts k 0).toNat ≤ (nth (s.elem fo.eid).a k 0).toNat + 1)).length
        { e with a := e.a.mapIdx (fun k v => if k < j then 0 else if k = j ∧ j < dims then v + 1 else v) }),
    freeRule .pset (Controls (fun f => [f.a])) (fun w _ fo =>
      { Effect.nothing with
        preds := ((List.range 8).filter (fun k => w.imm.toNat.testBit (8 + k))).map
          (fun k => (k, if writtenBit w fo.firing k then Pred.yes else Pred.no)) }),
    freeRule .sloten (Controls (fun f => [f.a])) (fun _ _ _ => .nothing)
      (fun w _ fo e => { e with en := BitVec.ofFnLE (fun (n : Fin 16) =>
        if w.imm.toNat.testBit (16 + n.val) then writtenBit w fo.firing n.val else e.en.getLsbD n.val) }),
    freeRule .pack
      (fun _ _ fo => isEnd (fo.firing.a.tag.getD 0) = false → fo.firing.a.tag ≠ some tagPoison)
      (fun w _ fo =>
        let r := packed fo.firing.b.lanes
        let tag := if w.kt then fo.firing.ktTag w else w.otag
        let rest (l : List Word) : Result := some (lanesOf (fun k => l[k]?), 0)
        if isEnd (fo.firing.a.tag.getD 0) then
          if r = [] then .two (pass fo.firing.a) (rest []) 0
          else .two (some (lanesOf (fun k => r[k]?), tag)) (rest []) 0
        else
          let l := r ++ (List.range 16).filterMap (laneAt fo.firing.a.lanes)
          if 16 ≤ l.length then .two (some (lanesOf (fun k => l[k]?), tag)) (rest (l.drop 16)) 0
          else .two none (rest l) 0) ]

/-! ## The scratchpad -/

/-- The word at a local address, and whether it holds a poison marker (R150, R169). -/
def sramWord (t : Tile) (a : Nat) : Word := wordOfBytes (t.read a 4).1
def sramBad (t : Tile) (a : Nat) : Bool := (t.read a 4).2

/-- The tile after words are written to local addresses in order; POISON data marks them (R171, R304). -/
def storeWords (t : Tile) (l : List (Nat × Word)) (poison : Bool) : Tile :=
  if l = [] then t else t.write (l.flatMap (fun x => spreadBytes x.1 (leBytes 4 x.2.toNat))) poison

/-- The tag of a result that is POISON where `bad` holds (R169, R238). -/
def tagUnless (w : Slot) (fo : Focus) (bad : Bool) : Tag :=
  if bad then tagPoison else if w.kt then fo.firing.ktTag w else w.otag

/-- The tile of the SE has become `x`; nothing else outside the element has changed. -/
def TileIs (x : Tile) (s : State) (fo : Focus) (w : Slot) (r : Effect) (t : State) : Prop :=
  RestIs (s.setTile (tileOf fo.eid) x) t fo w r

/-- The SE's own tile. -/
def own (s : State) (fo : Focus) : Tile := s.tile (tileOf fo.eid)

/-- The accesses of an SE instruction: each lane with its local address. -/
abbrev Places := List (Nat × Nat)

/-- What the lanes gave whose granule events a bank served before the write-back, and the lanes that perform with it (R151, R304). -/
def served (fo : Focus) : List (Nat × Word) := fo.firing.early.map (fun x => (x.1, x.2.1))
def unserved (fo : Focus) (l : Places) : Places := l.filter (fun x => fo.firing.early.all (fun y => y.1 ≠ x.1))

/-- The address token is not POISON, and every address is a multiple of 4 (R170, R300). -/
def Aligned (places : Slot → Firing → Places) (w : Slot) (_ : State) (fo : Focus) : Prop :=
  fo.firing.a.tag ≠ some tagPoison ∧ ∀ x ∈ places w fo.firing, x.2 % 4 = 0

/-- The offset field (R299). -/
def offset (w : Slot) : Nat := w.imm.toNat % 2 ^ 23

/-- Lane l at TA + 4l, where A.lane(0) gives TA; none where it is invalid (R300, R304). -/
def tokenPlaces (ok : Firing → Nat → Bool) (w : Slot) (f : Firing) : Places :=
  match laneAt f.a.lanes 0 with
  | some a => ((List.range 16).filter (ok f)).map (fun l => (l, ((a.toNat + offset w) % 2 ^ 23 + 4 * l) % 2 ^ 23))
  | none => []

/-- Lane l at A.lane(l) + OFF (R304). -/
def indexPlaces (ok : Slot → Firing → Nat → Bool) (w : Slot) (f : Firing) : Places :=
  ((List.range 16).filter (ok w f)).map (fun l => (l, ((wordAt f.a.lanes l).toNat + offset w) % 2 ^ 23))

/-- What a lane has in a list of lanes. -/
def laneIn {α : Type} (l : List (Nat × α)) (g : α → Word) : Lanes :=
  lanesOf (fun k => (l.find? (fun x => x.1 = k)).map (fun x => g x.2))

/-- LDS and LDSX. -/
def loadRule (i : Slot → Instr) (places : Slot → Firing → Places) : SlotRule :=
  freeRule i (Aligned places) (fun w s fo =>
    let l := unserved fo (places w fo.firing)
    .one (some (laneIn (served fo ++ l.map (fun x => (x.1, sramWord (own s fo) x.2))) id,
      tagUnless w fo (fo.firing.earlyBad || l.any (fun x => sramBad (own s fo) x.2)))) 0)

/-- STS and STSX; `addr` is what the acknowledgement holds, and `checked` the addresses that must be aligned (R302). -/
def storeRule (i : Slot → Instr) (places checked : Slot → Firing → Places) (addr : Slot → Firing → Option Nat) : SlotRule :=
  freeRule i (Aligned checked)
    (fun w _ fo => .one (if w.ack then some (match addr w fo.firing with
      | some a => lanesOf (fun l => if l = 0 then some (BitVec.ofNat 32 a) else if l = 1 then some (BitVec.ofNat 32 (a / 2 ^ 32)) else none)
      | none => lanesOf (fun _ => none), tagUnless w fo (fo.firing.b.tag = some tagPoison)) else none) 0)
    (fun _ _ _ => id)
    (fun w s fo => TileIs (storeWords (own s fo) ((unserved fo (places w fo.firing)).map (fun x => (x.2, wordAt fo.firing.b.lanes x.1)))
      (fo.firing.b.tag = some tagPoison)) s fo w)

/-- Read-modify-writes in lane order: a later lane sees an earlier one's write; a marked word is not updated, and
nothing is where `frozen` (R171, R305). The answer is each old value, whether a word was marked, and the tile. -/
def inTurn (new : Nat → Word → Option Word) (frozen : Bool) : Tile → Places → List (Nat × Word) × Bool × Tile
  | t, [] => ([], false, t)
  | t, (l, a) :: rest =>
    let next := if frozen || sramBad t a then t
      else match new l (sramWord t a) with
        | some v => storeWords t [(a, v)] false
        | none => t
    let r := inTurn new frozen next rest
    ((l, sramWord t a) :: r.1, sramBad t a || r.2.1, r.2.2)

/-- ATMS, CASS and TAS. -/
def rmwRule (i : Slot → Instr) (places checked : Slot → Firing → Places) (new : Slot → Firing → Nat → Word → Option Word)
    (frozen : Firing → Bool) (res : Firing → Nat → Word → Word) : SlotRule :=
  let turn (w : Slot) (s : State) (fo : Focus) : List (Nat × Word) × Bool × Tile :=
    inTurn (new w fo.firing) (frozen fo.firing) (own s fo) (unserved fo (places w fo.firing))
  freeRule i (Aligned checked)
    (fun w s fo =>
      let r := turn w s fo
      .one (some (laneIn ((served fo ++ r.1).map (fun x => (x.1, res fo.firing x.1 x.2))) id,
        tagUnless w fo (frozen fo.firing || fo.firing.earlyBad || r.2.1))) 0)
    (fun _ _ _ => id) (fun w s fo => TileIs (turn w s fo).2.2 s fo w)

/-- The new value of an atomic by X and MOD (R305). -/
def atomicValue (w : Slot) (old b : Word) : Word :=
  if w.x then b
  else match w.rnd.toNat with
    | 0 => BitVec.ofNat 32 (old.toNat + b.toNat)
    | 1 => BitVec.ofInt 32 (min old.toInt b.toInt)
    | 2 => BitVec.ofInt 32 (max old.toInt b.toInt)
    | 3 => BitVec.ofNat 32 (min old.toNat b.toNat)
    | 4 => BitVec.ofNat 32 (max old.toNat b.toNat)
    | 5 => old &&& b
    | 6 => old ||| b
    | _ => old ^^^ b

/-- A view is POISON. -/
def poisonView (v : View) : Bool := v.tag == some tagPoison

/-- LDS, STS, LDSX, STSX (R304), ATMS, CASS (R305), TAS (R306). -/
def sramRules : List SlotRule :=
  [ loadRule .lds (tokenPlaces (fun _ _ => true)),
    loadRule .ldsx (indexPlaces (fun _ f => validAt f.a.lanes)),
    storeRule .sts (tokenPlaces (fun f => validAt f.b.lanes)) (tokenPlaces (fun _ l => l == 0))
      (fun w f => (laneAt f.a.lanes 0).map (fun a => (a.toNat + offset w) % 2 ^ 23)),
    storeRule .stsx (indexPlaces (fun _ f l => validAt f.a.lanes l && validAt f.b.lanes l))
      (indexPlaces (fun _ f l => validAt f.a.lanes l && validAt f.b.lanes l))
      (fun w f => pickAddr f.seq (indexPlaces (fun _ f l => validAt f.a.lanes l && validAt f.b.lanes l) w f)),
    rmwRule .atms (indexPlaces sourcesValid) (indexPlaces sourcesValid)
      (fun w f l old => some (atomicValue w old (wordAt f.b.lanes l))) (fun f => poisonView f.b) (fun _ _ old => old),
    rmwRule .cass (indexPlaces sourcesValid) (indexPlaces sourcesValid)
      (fun _ f l old => if old = wordAt f.b.lanes l then some (wordAt f.c.lanes l) else none)
      (fun f => poisonView f.b || poisonView f.c) (fun _ _ old => old),
    rmwRule .tas
      (fun w f => ((List.range 16).filter (validAt f.a.lanes)).map (fun l =>
        (l, (offset w + 4 * ((wordAt f.a.lanes l).toNat / 32)) % 2 ^ 23)))
      (fun _ _ => [])
      (fun _ f l old => some (old ||| BitVec.ofNat 32 (2 ^ ((wordAt f.a.lanes l).toNat % 32)))) (fun _ => false)
      (fun f l old => if old.getLsbD ((wordAt f.a.lanes l).toNat % 32) then 1 else 0) ]

/-- The keys of HFIND: each valid lane with its key (R307). -/
def keysOf (w : Slot) (c : HashCfg) (f : Firing) : Places :=
  ((List.range 16).filter (sourcesValid w f)).map (fun l => (l, (wordAt f.a.lanes l).toNat % 2 ^ c.keyw))

/-- The keys of HINS: the valid lanes of A (R307). -/
def insertKeys (c : HashCfg) (f : Firing) : Places :=
  ((List.range 16).filter (fun l => validAt f.a.lanes l)).map (fun l => (l, (wordAt f.a.lanes l).toNat % 2 ^ c.keyw))

/-- Keys inserted in lane order: what each gives, whether poison was met, and the tile (R155, R171, R307). -/
def insertAll (c : HashCfg) (value : Nat → Word) (frozen : Bool) : Tile → Places → List HashLane × Bool × Tile
  | t, [] => ([], false, t)
  | t, (l, k) :: rest =>
    let x := t.hins c l k (value l) frozen
    let r := insertAll c value frozen x.2.2 rest
    (x.1 :: r.1, x.2.1 || r.2.1, r.2.2)

/-- What the keys gave that the banks served before the write-back: a HINS key is FULL at 0xFFFFFFFF (R307). -/
def servedKeys (c : HashCfg) (fo : Focus) : List HashLane :=
  fo.firing.early.map (fun x => ⟨x.1, (wordAt fo.firing.a.lanes x.1).toNat % 2 ^ c.keyw, x.2.1, x.2.2, x.2.1 == 0xFFFFFFFF⟩)

def inserted (w : Slot) (s : State) (fo : Focus) : List HashLane × Bool × Tile :=
  let c := (s.elem fo.eid).hashCfg w
  let r := insertAll c (wordAt fo.firing.b.lanes) (fo.firing.poisoned w) (own s fo) (unserved fo (insertKeys c fo.firing))
  (servedKeys c fo ++ r.1, fo.firing.earlyBad || r.2.1, r.2.2)

/-- The FULL keys of a HINS. -/
def fullKeys (w : Slot) (s : State) (fo : Focus) : List HashLane :=
  if fo.firing.poisoned w then [] else (inserted w s fo).1.filter (·.full)

/-- The descriptor of the instruction is set up. -/
def TableSet (w : Slot) (s : State) (fo : Focus) : Prop := ((s.elem fo.eid).hashCfg w).v = true

/-- HINS and HFIND (R155, R307). -/
def hashRules : List SlotRule :=
  [ freeRule .hins TableSet
      (fun w s fo =>
        let c := (s.elem fo.eid).hashCfg w
        let r := inserted w s fo
        let tag := tagUnless w fo (fo.firing.poisoned w || r.2.1)
        let full := fullKeys w s fo
        let shown := r.1.filter (fun x => sourcesValid w fo.firing x.lane)
        { Effect.two (some (laneIn (shown.map (fun x => (x.lane, x.res))) id, tag))
            (some (laneIn (shown.map (fun x => (x.lane, x.res2))) id, tag)) 0 with
          spill := if c.spen = true ∧ full ≠ [] then
            some (c.spq, laneIn (full.map (fun x => (x.lane, BitVec.ofNat 32 x.key))) id, 0) else none })
      (fun w s fo e =>
        let n := (fullKeys w s fo).length
        { e with ovf := upd e.ovf (w.imm.toNat / 2 ^ 27 % 8) (fun v => min (v + n) 0xFFFFFFFF),
                 counts := { e.counts with hovf := e.counts.hovf + n } })
      (fun w s fo => TileIs (inserted w s fo).2.2 s fo w),
    freeRule .hfind TableSet
      (fun w s fo =>
        let c := (s.elem fo.eid).hashCfg w
        let keys := unserved fo (keysOf w c fo.firing)
        let look (k : Nat) : Probe × Bool := (own s fo).probe c k c.probes 0
        let found (k : Nat) : Word × Word := match (look k).1 with
          | .present _ v => (0xFFFFFFFF, v)
          | _ => (0, 0)
        let all := fo.firing.early ++ keys.map (fun x => (x.1, found x.2))
        let tag := tagUnless w fo (fo.firing.poisoned w || fo.firing.earlyBad || keys.any (fun x => (look x.2).2))
        .two (some (laneIn all (·.1), tag)) (some (laneIn all (·.2), tag)) 0) ]

/-- The lap-buffer descriptor is set up, and OFF lies in a slot (R152, R308). -/
def SlotSet (w : Slot) (s : State) (fo : Focus) : Prop :=
  ((s.elem fo.eid).lapCfg (seDesc w)).v = true ∧ offset w ≤ ((s.elem fo.eid).lapCfg (seDesc w)).slotg

/-- The local address of granule OFF of the slot that SELECTION chose (R152, R308). -/
def slotBase (w : Slot) (s : State) (fo : Focus) : Nat :=
  let c := (s.elem fo.eid).lapCfg (seDesc w)
  (c.base + nth fo.firing.extra 0 0 * (c.slotg + 1) + offset w) * 64 % 2 ^ 23

/-- LBPUT, LBGET and LBSTAT (R153, R308). -/
def lapRules : List SlotRule :=
  [ freeRule .lbput SlotSet (fun _ _ _ => .nothing)
      (fun w s fo e => { e with laps := upd e.laps (seDesc w) (fun p =>
        if w.x then { p with filled := p.filled + 1,
                             wridx := (p.wridx + 1) % ((s.elem fo.eid).lapCfg (seDesc w)).nslot } else p) })
      (fun w s fo => TileIs (storeWords (own s fo) (((List.range 16).filter (validAt fo.firing.a.lanes)).map (fun l =>
        ((slotBase w s fo + 4 * l) % 2 ^ 23, wordAt fo.firing.a.lanes l))) (fo.firing.a.tag = some tagPoison)) s fo w),
    freeRule .lbget SlotSet
      (fun w s fo =>
        let at_ (l : Nat) : Nat := (slotBase w s fo + 4 * l) % 2 ^ 23
        .one (some (lanesOf (fun l => some (sramWord (own s fo) (at_ l))),
          tagUnless w fo ((List.range 16).any (fun l => sramBad (own s fo) (at_ l))))) 0)
      (fun w s fo e => { e with laps := upd e.laps (seDesc w) (fun p =>
        if w.x then
          let next := (p.rdidx + 1) % ((s.elem fo.eid).lapCfg (seDesc w)).nslot
          { p with filled := p.filled - 1, rdidx := next, lap := if next = 0 then (p.lap + 1) % 256 else p.lap }
        else p) }),
    freeRule .lbstat (fun w s fo => ((s.elem fo.eid).lapCfg (seDesc w)).v = true)
      (fun w _ fo => .one (some (lanesOf (fun l => if l < 6 then (fo.firing.extra[l]?).map (BitVec.ofNat 32) else none),
        tagUnless w fo false)) 0) ]

/-! ## Operations that leave the element -/

/-- What a firing issued. Operations are those before and its own, where it makes an access. Accesses are those before and one for
each of its own, in order, under rising new names: of one whose home is known, a message stands behind the others in the tile's egress
buffer; the rest wait for a walk (R165). Of the tiles nothing else but counters has changed; memory, every SRAM and the rest of the part
are as they were. -/
structure Issued (s : State) (fo : Focus) (i : Issue) (u : State) : Prop where
  op : ∃ inst mmio, (s.elem fo.eid).inst = some inst ∧ ∀ n, u.ops.find n = if n = fo.firing.seq then
    (if i.accs = [] then none else some { i.op fo inst with mmio }) else s.ops.find n
  accs : ∃ l : List Access, l.map (fun a => (a.va, a.kind)) = i.accs ∧ l.Pairwise (fun a b => a.id < b.id) ∧
    (∀ a ∈ l, s.nextId ≤ a.id ∧ a.id < u.nextId ∧ a.op = fo.firing.seq ∧ a.eid = fo.eid ∧ a.port = i.port ∧
      ((a.stage = .egress ∧ (i.home ≠ .unset → a.home = i.home)) ∨ (a.stage = .walk ∧ a.home = .unset ∧ i.home = .unset))) ∧
    u.accs = l.foldl (fun (m : NMap Access) a => m.put a.id a) s.accs ∧
    (u.tile (tileOf fo.eid)).egressReq = (s.tile (tileOf fo.eid)).egressReq ++
      (l.filter (·.stage == .egress)).map (fun a => ⟨a.id + 1, tileOf fo.eid, a.home.dst, .access a.id⟩)
  tiles : ∀ n, { u.tile n with counters := (s.tile n).counters, egressReq := (s.tile n).egressReq } = s.tile n ∧
    (n ≠ tileOf fo.eid → (u.tile n).egressReq = (s.tile n).egressReq)
  rest : { u with focus := s.focus, elems := s.elems, tiles := s.tiles, ops := s.ops, accs := s.accs, nextId := s.nextId } = s

/-- The element of a firing that may issue: it belongs to an instance, and no access has the firing's number yet. -/
def MayIssue (s : State) (fo : Focus) : Prop :=
  (∃ inst, (s.elem fo.eid).inst = some inst) ∧ ∀ a ∈ s.accs, a.2.op ≠ fo.firing.seq

/-- Every access whose address the stream's translation entry holds passes its checks (R157, R162, R322); the others wait
for a walk (R165). -/
def Translates (s : State) (fo : Focus) (i : Issue) : Prop :=
  ∀ x ∈ i.accs, x.1 < 2 ^ 49 ∧ ∀ p, ((s.elem fo.eid).stream i.port).page = some p → p.start ≤ x.1 →
    x.1 < p.start + p.size →
    ∃ h, s.checkLeaf (s.vfOf fo.eid) p x.1 x.2.want (fo.firing.opc = 0x110 || fo.firing.opc = 0x111) = .ok h ∧
      ∀ pa, h = .mmio pa → mmioFault ((s.elem fo.eid).stream i.port).cfg.fmt i.lanes x.1 = none

/-- The element once a firing has issued: one without an access answers at once (R300). -/
def answered (s : State) (fo : Focus) (i : Issue) (e : Element) : Element :=
  match i.accs, fo.firing.entry, (s.elem fo.eid).inst with
  | [], some n, some inst => e.answer n (i.op fo inst).token
  | _, _, _ => e

/-- An instruction that issues `what` gives; `put` is what narrowing leaves in the element. -/
def issueRule (i : Slot → Instr) (ok : Slot → State → Focus → Prop) (what : Slot → State → Focus → Issue)
    (put : Slot → State → Focus → Put := fun _ _ _ => { gen := 0 })
    (change : Slot → State → Focus → Element → Element := fun _ _ _ => id) : SlotRule where
  instr := i
  pre := fun w s fo => MayIssue s fo ∧ ok w s fo ∧ ((what w s fo).home = .unset → Translates s fo (what w s fo))
  effect := fun w s fo => { Effect.nothing with flags := (put w s fo).flags }
  change := fun w s fo e => change w s fo (answered s fo (what w s fo) e)
  rest := fun w s fo r t => ∃ u, Issued s fo (what w s fo) u ∧ LogsEnd u t fo w r

/-- The stream that an AG instruction names. -/
def streamOf (w : Slot) (s : State) (fo : Focus) : Stream := (s.elem fo.eid).stream (agStream w)

/-- The stream is configured, passed the checks of its set-up, and is of one of the kinds (R313). -/
def Usable (kinds : List Nat) (t : Stream) : Prop :=
  t.cfg.v = true ∧ t.cfg.setupFault = none ∧ t.cfg.kind ∈ kinds

/-- An INDEX stream of a format the instruction takes, addresses from a token that is not POISON, each below 2^49 and a
multiple of 4 (R157, R170, R317). -/
def IndexOk (fmts : List Nat) (vas : Slot → State → Focus → List Nat) (w : Slot) (s : State) (fo : Focus) : Prop :=
  Usable [4] (streamOf w s fo) ∧ (streamOf w s fo).cfg.fmt ∈ fmts ∧ fo.firing.a.tag ≠ some tagPoison ∧
    ∀ va ∈ vas w s fo, va < 2 ^ 49 ∧ va % 4 = 0

/-- BASE + i × size as a 64-bit address (R317). -/
def elemAddr (c : StreamCfg) (i : Int) (size : Nat) : Nat := ((c.base + i * size) % 2 ^ 64).toNat

/-- The address that LDG and STG take from lane 0 of A. -/
def firstAddr (w : Slot) (s : State) (fo : Focus) : Option Nat :=
  (laneAt fo.firing.a.lanes 0).map (fun a =>
    elemAddr (streamOf w s fo).cfg (a.toInt + (w.imm.extractLsb' 0 28).toInt) (fmtBytes (streamOf w s fo).cfg.fmt))

/-- The lanes of GATH, SCAT, ATMG and CASG with their addresses (R317, R318). -/
def laneAddrs (ok : Slot → Firing → Nat → Bool) (w : Slot) (s : State) (fo : Focus) : Places :=
  ((List.range 16).filter (ok w fo.firing)).map (fun l =>
    (l, elemAddr (streamOf w s fo).cfg ((wordAt fo.firing.a.lanes l).toInt + (w.imm.extractLsb' 0 28).toInt) 4))

/-- What STG narrows (R197, R317). -/
def stgPut (w : Slot) (s : State) (fo : Focus) : Put :=
  let c := (streamOf w s fo).cfg
  match firstAddr w s fo with
  | some va => narrowLanes c (streamOf w s fo).gen fo.firing.b.lanes (fun l => va + l * fmtBytes c.fmt) (rowLanes c.fmt)
  | none => { gen := (streamOf w s fo).gen }

/-- The bytes that SCAT stores, lane by lane. -/
def scatBytes (l : Places) (f : Firing) : List (Nat × Byte) :=
  l.flatMap (fun x => spreadBytes x.2 (leBytes 4 (wordAt f.b.lanes x.1).toNat))

/-- LDG, STG, GATH, SCAT (R317), ATMG and CASG (R318). -/
def indexRules : List SlotRule :=
  [ issueRule .ldg (IndexOk (List.range 11) (fun w s fo => (firstAddr w s fo).toList))
      (fun w s fo =>
        let c := (streamOf w s fo).cfg
        match firstAddr w s fo with
        | none => { port := agStream w }
        | some va =>
          { port := agStream w,
            accs := (granulesOf va (rowLanes c.fmt * fmtBytes c.fmt)).map (fun g => (g.1, .load (g.1 - va) g.2)),
            result := .data c.fmt ((List.range (rowLanes c.fmt)).map (fun l => (l, l * fmtBytes c.fmt))),
            lanes := Lanes.all 0 }),
    issueRule .stg (IndexOk (List.range 11) (fun w s fo => (firstAddr w s fo).toList))
      (fun w s fo =>
        match firstAddr w s fo with
        | none => { port := agStream w, scope := scopeOf w, poison := poisonView fo.firing.b }
        | some va =>
          { port := agStream w, scope := scopeOf w,
            accs := storeGroups (poisonView fo.firing.b) (stgPut w s fo).bytes,
            result := if w.ack then .ack (BitVec.ofNat 64 va) else .none, lanes := fo.firing.b.lanes,
            poison := poisonView fo.firing.b })
      stgPut
      (fun w s fo e => if (firstAddr w s fo).isSome then (stgPut w s fo).apply (agStream w) e else e),
    issueRule .gath (IndexOk [0, 1, 2] (fun w s fo => (laneAddrs (fun _ f => validAt f.a.lanes) w s fo).map (·.2)))
      (fun w s fo =>
        let l := laneAddrs (fun _ f => validAt f.a.lanes) w s fo
        { port := agStream w, accs := l.map (fun x => (x.2, .load (4 * x.1) 4)),
          result := .data (streamOf w s fo).cfg.fmt (l.map (fun x => (x.1, 4 * x.1))), lanes := Lanes.all 0 }),
    issueRule .scat
      (IndexOk [0, 1, 2] (fun w s fo =>
        (laneAddrs (fun _ f l => validAt f.a.lanes l && validAt f.b.lanes l) w s fo).map (·.2)))
      (fun w s fo =>
        let l := laneAddrs (fun _ f l => validAt f.a.lanes l && validAt f.b.lanes l) w s fo
        { port := agStream w, scope := scopeOf w, accs := storeGroups (poisonView fo.firing.b) (scatBytes l fo.firing),
          result := match w.ack, pickAddr fo.firing.seq l with
            | true, some a => .ack (BitVec.ofNat 64 a)
            | _, _ => .none,
          lanes := fo.firing.b.lanes, poison := poisonView fo.firing.b }),
    issueRule .atmg (IndexOk (List.range 13) (fun w s fo => (laneAddrs sourcesValid w s fo).map (·.2)))
      (fun w s fo =>
        { port := agStream w, result := .old, poison := poisonView fo.firing.b,
          accs := (laneGroups (laneAddrs sourcesValid w s fo)).map (fun g =>
            (g.1, .atomic (atomicCode w) (g.2.map (fun x => (x.1, x.2, wordAt fo.firing.b.lanes x.1)))
              (poisonView fo.firing.b))) }),
    issueRule .casg (IndexOk (List.range 13) (fun w s fo => (laneAddrs sourcesValid w s fo).map (·.2)))
      (fun w s fo =>
        let bad := poisonView fo.firing.b || poisonView fo.firing.c
        { port := agStream w, result := .old, poison := bad,
          accs := (laneGroups (laneAddrs sourcesValid w s fo)).map (fun g =>
            (g.1, .cas (g.2.map (fun x => (x.1, x.2, wordAt fo.firing.b.lanes x.1, wordAt fo.firing.c.lanes x.1))) bad)) }) ]

/-- The target tile and address of RSTS and RATM; none where a lane is invalid (R300, R311). -/
def remotePlace (w : Slot) (f : Firing) : Option (Nat × Nat) :=
  match laneAt f.a.lanes 0, laneAt f.a.lanes 1 with
  | some t, some a => some (t.toNat % 2 ^ 10, (a.toNat + offset w) % 2 ^ 23)
  | _, _ => none

/-- The address token is not POISON, and its tile is another one of the partition, at a multiple of 4 (R300, R311). -/
def RemoteOk (w : Slot) (s : State) (fo : Focus) : Prop :=
  fo.firing.a.tag ≠ some tagPoison ∧ ∀ x, remotePlace w fo.firing = some x →
    s.remoteOk fo.eid x.1 = true ∧ x.2 % 4 = 0

/-- RSTS and RATM (R311). -/
def remoteRules : List SlotRule :=
  let places (f : Firing) : List Nat := (List.range 16).filter (validAt f.b.lanes)
  [ issueRule .rsts RemoteOk (fun w _ fo =>
      match remotePlace w fo.firing with
      | none => { port := 4, scope := scopeOf w, poison := poisonView fo.firing.b }
      | some (t, a) =>
        { port := 4, home := .sram t a, scope := scopeOf w, poison := poisonView fo.firing.b,
          result := if w.ack then .ack (BitVec.ofNat 64 a) else .none,
          accs := [(a, .store ((places fo.firing).flatMap (fun l =>
            spreadBytes (4 * l) (leBytes 4 (wordAt fo.firing.b.lanes l).toNat))) (poisonView fo.firing.b))] }),
    issueRule .ratm RemoteOk (fun w _ fo =>
      match remotePlace w fo.firing with
      | none => { port := 4, scope := scopeOf w, poison := poisonView fo.firing.b }
      | some (t, a) =>
        { port := 4, home := .sram t a, scope := scopeOf w, poison := poisonView fo.firing.b, result := .old,
          accs := [(a, .atomic (atomicCode w) ((places fo.firing).map (fun l =>
            (l, 4 * l, wordAt fo.firing.b.lanes l))) (poisonView fo.firing.b))] }) ]

/-- Everything of an element that a fence of a firing waits for has performed at a scope (R180, R309): the firings
selected before it that access memory have written back, loads to re-issue have been, and every access has come far
enough. -/
def FenceMet (s : State) (fo : Focus) (scope : Nat) : Bool :=
  (s.elem fo.eid).inflight.all (fun x => fo.firing.seq ≤ x.seq || x.opc / 64 ≠ 4) &&
  (s.elem fo.eid).reissue.all (fun o => fo.firing.seq ≤ o.id) &&
  s.accs.all (fun a => a.2.eid ≠ fo.eid || fo.firing.seq ≤ a.2.op || a.2.performedAt scope)

/-- FENCES and FENCEG: the token, SCOPE in lane 0, comes at once or waits (R180, R309, R319). -/
def fenceRule (i : Slot → Instr) : SlotRule :=
  freeRule i (fun _ s fo => (s.elem fo.eid).fences = [] ∧ fo.firing.entry.isSome = true) (fun _ _ _ => .nothing)
    (fun w s fo e =>
      let scope := w.imm.toNat / 2 ^ 30
      match fo.firing.entry with
      | none => e
      | some n =>
        if FenceMet s fo scope then
          e.answer n (fun t => ⟨lanesOf (fun l => if l = 0 then some (BitVec.ofNat 32 scope) else none), t, none⟩)
        else { e with fences := [⟨n, scope, fo.firing.seq⟩] })

/-- The operands of CPY: local address, VA and length, each within its limits (R310). -/
def copyArgs (w : Slot) (f : Firing) : Option (Nat × Nat × Nat) :=
  let x (l : Nat) : Nat := (wordAt f.a.lanes l).toNat
  let va := x 1 + x 2 * 2 ^ 32
  if ¬(validAt f.a.lanes 1 = true ∧ validAt f.a.lanes 2 = true ∧ va % 64 = 0) then none
  else if w.rnd = 2 then some (0, va, 0)
  else if validAt f.a.lanes 0 = true ∧ validAt f.a.lanes 3 = true ∧ x 0 % 64 = 0 ∧ x 3 % 64 = 0 ∧ 64 ≤ x 3 ∧ x 3 ≤ 2 ^ 23 then
    some (x 0 % 2 ^ 23, va, x 3)
  else none

/-- CPY: the copy that the tile's engine takes over (R156, R310). -/
def copyOf (w : Slot) (s : State) (fo : Focus) : Copy :=
  let e := s.elem fo.eid
  let c := e.lapCfg (seDesc w)
  let x := (copyArgs w fo.firing).getD (0, 0, 0)
  let slot := e.copySlot (seDesc w) fo.firing.seq
  { id := fo.firing.seq, firing := fo.firing, eid := fo.eid, dir := w.rnd.toNat,
    laddr := if w.rnd = 2 then (c.base + slot * (c.slotg + 1)) * 64 % 2 ^ 23 else x.1, va := x.2.1,
    len := if w.rnd = 2 then 64 * (c.slotg + 1) else x.2.2, scope := w.imm.toNat / 2 ^ 30, entry := fo.firing.entry,
    lap := if w.rnd = 2 then some (seDesc w, slot) else none, performed := [], acc0 := s.nextId }

def copyRule : SlotRule :=
  freeRule .cpy
    (fun w s fo => fo.firing.a.tag ≠ some tagPoison ∧ (copyArgs w fo.firing).isSome = true ∧
      (w.rnd = 2 → ((s.elem fo.eid).lapCfg (seDesc w)).v = true))
    (fun _ _ _ => .nothing)
    (fun w s fo e => if w.rnd = 2 then { e with laps := upd e.laps (seDesc w) (fun p =>
      { p with resv := p.resv + 1, wridx := (p.wridx + 1) % ((s.elem fo.eid).lapCfg (seDesc w)).nslot }) } else e)
    (fun w s fo r t =>
      let c := copyOf w s fo
      TileIs { own s fo with copies := (own s fo).copies ++ [c] } { s with nextId := s.nextId + c.len / 64 } fo w r t)

/-! ## Pattern streams -/

/-- PATLD, PLANELD and WLD give the token that SELECTION moved out of the buffer (R319, R321). -/
def movedRule (i : Slot → Instr) : SlotRule :=
  freeRule i (fun _ _ fo => ∃ p, fo.firing.moved = some p ∧ p.fault = none)
    (fun _ _ fo => match fo.firing.moved with
      | some p => .one (some (p.token.lanes, p.token.tag)) p.flags
      | none => .nothing)
    (fun _ _ fo e => match fo.firing.moved with
      | some p => { e with counts := e.counts.add p.stats }
      | none => e)

/-- The band scale of a block format that the stream's entry answers for a row; none for another format (R314). -/
def BandIs (w : Slot) (s : State) (fo : Focus) (band : Nat) : Prop :=
  let c := (streamOf w s fo).cfg
  if isBlock c.fmt then ∃ bs bad, s.readNow fo.eid (agStream w) (c.bandAddr (c.tok (streamOf w s fo).pos).ix) 2 =
    (.ok (bs, bad), s) ∧ leNat bs = band ∧ bandOk band = true
  else band = 0

/-- PATST on a STORE stream with a band scale: the token of its position, and the position advanced (R314, R319). -/
def patRule (band : Nat) : SlotRule :=
  let tok (w : Slot) (s : State) (fo : Focus) : PatTok := (streamOf w s fo).cfg.tok (streamOf w s fo).pos
  let put (w : Slot) (s : State) (fo : Focus) : Put × List (Nat × AccKind) :=
    patPut (streamOf w s fo).cfg (streamOf w s fo) (tok w s fo) fo.firing.a.lanes band (poisonView fo.firing.a)
  issueRule .patst
    (fun w s fo =>
      let t := streamOf w s fo
      Usable [1] t ∧ t.mode ≠ .idle ∧ BandIs w s fo band ∧
        ∀ va ∈ t.cfg.checkedPut (tok w s fo) fo.firing.a.lanes, va < 2 ^ 49 ∧ va % 4 = 0)
    (fun w s fo =>
      let c := (streamOf w s fo).cfg
      let o := c.off (tok w s fo) 0
      { port := agStream w, scope := scopeOf w, accs := (put w s fo).2, lanes := fo.firing.a.lanes,
        poison := poisonView fo.firing.a,
        result := if w.ack then .ack (BitVec.ofNat 64 (if isBlock c.fmt then c.nibAddr o else elemAddr c o (fmtBytes c.fmt)))
          else .none })
    (fun w s fo => (put w s fo).1)
    (fun w s fo e => ((put w s fo).1.apply (agStream w) e).modStream (agStream w) (fun t =>
      { t with pos := t.pos + 1, mode := if t.pos + 1 = t.cfg.tokens then .idle else t.mode }))

/-- PATST on an EGRESS stream that sends no frame: the bytes of A's valid lanes join the payload (R323). -/
def egressRule : SlotRule :=
  freeRule .patst
    (fun w s fo =>
      let t := streamOf w s fo
      Usable [5] t ∧ t.mode ≠ .idle ∧ fo.firing.a.tag ≠ some tagPoison ∧ isEnd (fo.firing.a.tag.getD 0) = false ∧
        t.egress.payload.length + (validBytes fo.firing.a.lanes).length ≤ 9088)
    (fun _ _ _ => .nothing)
    (fun w _ fo e => e.modStream (agStream w) (fun t => { t with egress := { t.egress with
      payload := t.egress.payload ++ validBytes fo.firing.a.lanes,
      entries := t.egress.entries ++ fo.firing.entry.toList } }))

/-- The flow that a template names: addresses and FLOW (R19, R323). -/
def flowOf (tmpl : List Byte) : FlowKey :=
  ⟨BitVec.ofNat 128 (tmplField tmpl 8 16), BitVec.ofNat 128 (tmplField tmpl 0x18 16), BitVec.ofNat 16 (tmplField tmpl 0x28 2)⟩

/-- The frame that an EGRESS stream sends on a flow with its template and payload (R18, R20, R323). -/
def sentFrame (tmpl : List Byte) (x : TxFlow) (g : Egress) (last : Bool) : Nat × EthFrame :=
  (tmplField tmpl 6 1, deviceFrame (tmplField tmpl 6 1) (tmplField tmpl 0 6) (tmplField tmpl 8 16) (tmplField tmpl 0x18 16)
    (tmplField tmpl 0x28 2) (ethHeader g.payload.length 0 x.nextSeq.toNat (tmplField tmpl 0x28 2) last 0) g.payload)

/-- The flow once a stream's frame is sent on it: the next sequence number, and the frame kept until an ACK frame covers it (R19,
R323). -/
def flowSent (tmpl : List Byte) (s : State) (eid : Nat) (g : Egress) (last : Bool) (x : TxFlow) : TxFlow :=
  { key := x.key, nextSeq := x.nextSeq + 1,
    unacked := x.unacked ++ [⟨tmplField tmpl 6 1, x.nextSeq, (sentFrame tmpl x g last).2, eid, (s.elem eid).inst, g.entries⟩],
    lastAck := if x.unacked = [] then s.now else x.lastAck, resends := if x.unacked = [] then 0 else x.resends }

/-- The state with a sent frame counted for its stream (R52). -/
def sentCounted (eid k bytes : Nat) (s : State) : State :=
  s.countFlow eid k (fun c => { c with txFrames := c.txFrames + 1, txBytes := c.txBytes + bytes })

/-- The frame with the lanes of PATST's token behind its payload. -/
def joinedTo (g : Egress) (f : Firing) : Egress :=
  { g with payload := g.payload ++ validBytes f.a.lanes, entries := g.entries ++ f.entry.toList }

/-- PATST on an EGRESS stream that sends frames: first the current one where the token's lanes would carry it past 9,088 bytes; and
the one with the token where that is tagged EOD0 to END, with LAST at END, which makes the stream idle (R323). -/
def egressEndRule (tmpl : List Byte) : SlotRule :=
  let now (w : Slot) (s : State) (fo : Focus) : Egress := (streamOf w s fo).egress
  let past (w : Slot) (s : State) (fo : Focus) : Prop := 9088 < (now w s fo).payload.length + (validBytes fo.firing.a.lanes).length
  let closes (fo : Focus) : Prop := isEnd (fo.firing.a.tag.getD 0) = true
  let last (fo : Focus) : Bool := fo.firing.a.tag.getD 0 == tagEnd
  let early (w : Slot) (s : State) (fo : Focus) : Bool := 9088 < (now w s fo).payload.length + (validBytes fo.firing.a.lanes).length
  let held (w : Slot) (s : State) (fo : Focus) : Egress := joinedTo (if early w s fo then { } else now w s fo) fo.firing
  let x (s : State) : TxFlow := s.txFlow (flowOf tmpl)
  let mid (w : Slot) (s : State) (fo : Focus) : TxFlow :=
    if early w s fo then flowSent tmpl s fo.eid (now w s fo) false (x s) else x s
  freeRule .patst
    (fun w s fo =>
      let t := streamOf w s fo
      Usable [5] t ∧ t.mode ≠ .idle ∧ fo.firing.a.tag ≠ some tagPoison ∧ (past w s fo ∨ closes fo) ∧
        (x s).unacked.length + (early w s fo).toNat + (isEnd (fo.firing.a.tag.getD 0)).toNat ≤ 256 ∧ tmplField tmpl 6 1 ≤ 3 ∧ ∃ bad, s.readNow fo.eid (agStream w) t.cfg.scaleVa 64 = (.ok (tmpl, bad), s))
    (fun _ _ _ => .nothing)
    (fun w s fo e => e.modStream (agStream w) (fun t =>
      if isEnd (fo.firing.a.tag.getD 0) = true then { t with mode := if last fo then .idle else t.mode, tmpl := some tmpl, egress := { } }
      else { t with tmpl := some tmpl, egress := held w s fo }))
    (fun w s fo r t =>
      let c (b : Bool) (n : Nat) (s : State) : State := if b then sentCounted fo.eid (agStream w) n s else s
      let ends := isEnd (fo.firing.a.tag.getD 0)
      RestIs { c ends (held w s fo).payload.length (c (early w s fo) (now w s fo).payload.length s) with
        ethOut := s.ethOut ++ (if early w s fo then [sentFrame tmpl (x s) (now w s fo) false] else []) ++
          (if ends then [sentFrame tmpl (mid w s fo) (held w s fo) (last fo)] else []),
        txFlows := (if ends then flowSent tmpl s fo.eid (held w s fo) (last fo) (mid w s fo) else mid w s fo) ::
          s.txFlows.filter (fun y => y.key ≠ flowOf tmpl) } t fo w r)

/-- PATSET (R313, R320), and PREF. -/
def setRules : List SlotRule :=
  [ freeRule .patset
      (fun w s fo => (streamOf w s fo).cfg.v = true ∧ fo.firing.poisoned w = false ∧
        ∃ c, patField (w.imm.toNat % 16) fo.firing.a.lanes (streamOf w s fo).regs = some c ∧
          (w.imm.toNat.testBit 4 = true → c.setupFault = none))
      (fun _ _ _ => .nothing)
      (fun w s fo e => match patField (w.imm.toNat % 16) fo.firing.a.lanes (streamOf w s fo).regs with
        | none => e
        | some c => e.modStream (agStream w) (fun t =>
          if w.imm.toNat.testBit 4 then
            { t with regs := c, cfg := c, pos := 0, fetch := 0, gen := if c.seed = 0 then 1 else c.seed, buf := [],
                     ahead := [], halted := false, tmpl := none, ingress := [],
                     mode := if c.kind ∈ [0, 2, 3, 6] then .prefetching else .ready }
          else { t with regs := c })),
    freeRule .pref (fun _ _ _ => True) (fun _ _ _ => .nothing) ]

/-! ## The matrix element -/

/-- The matrix state of the element is changed; no result. -/
def matrixRule (i : Slot → Instr) (ok : Slot → State → Focus → Prop) (f : Slot → Focus → Matrix → Matrix) : SlotRule :=
  freeRule i ok (fun _ _ _ => .nothing) (fun w _ fo e => { e with matrix := f w fo e.matrix })

/-- The matrix state of the element. -/
def matrixOf (s : State) (fo : Focus) : Matrix := (s.elem fo.eid).matrix

/-- The tag of a firing's first source. -/
def tagA (fo : Focus) : Tag := fo.firing.a.tag.getD 0

/-- The bank that is not active, changed; it counts as bank 1 while bank 0 is active. -/
def onInactive (m : Matrix) (b : BitVec 196608) (lost tov : Bool) : Matrix :=
  if m.active then { m with bank0 := b, lost0 := lost, tov0 := tov } else { m with bank1 := b, lost1 := lost, tov1 := tov }

/-- MCFG (R326), MWLOAD (R327), MEXPT (R328), MCLR and MSWAP (R329). -/
def matrixRules : List SlotRule :=
  [ matrixRule .mcfg (fun _ _ _ => True) (fun w _ m =>
      { m with we := BitVec.ofNat 12 w.imm.toNat, p := w.imm.toNat / 2 ^ 12 % 2 ^ 6, ebs := BitVec.ofNat 12 (w.imm.toNat / 2 ^ 18),
               fp64 := w.x, plane := 0, drain := 0, active := false, bank0 := 0, bank1 := 0, lost0 := false,
               tov0 := false, lost1 := false, tov1 := false }),
    matrixRule .mwload
      (fun w s fo => Clean w s fo ∧ tagA fo = (if (matrixOf s fo).wcursor < 16 then 1 else 0) ∧
        w.imm.toNat % 8 ≤ (if (matrixOf s fo).fp64 then 4 else 0))
      (fun w fo m =>
        let j := m.wcursor
        { m with
          wready := if j = 0 then false else if j = 207 then true else m.wready
          slice := if j = 0 then w.imm.toNat % 8 else m.slice
          wexp := if j < 16 then putToken m.wexp j fo.firing.a.lanes else m.wexp
          weights := if j < 16 then m.weights else putToken m.weights (j - 16) fo.firing.a.lanes
          wcursor := if j = 207 then 0 else j + 1 }),
    matrixRule .mexpt
      (fun w s fo => Clean w s fo ∧ tagA fo = 1 ∧ ((matrixOf s fo).fp64 = true → w.imm.toNat % 2 = 0))
      (fun w fo m => { m with exps := payload fo.firing.a.lanes, rowGroup := w.imm.toNat % 2 }),
    matrixRule .mplane (fun w s fo => Clean w s fo ∧ tagA fo = 0)
      (fun _ fo m => (m.addPlane (planeRead fo.firing.extra) (payload fo.firing.a.lanes).toNat).1),
    matrixRule .mclr (fun _ _ _ => True) (fun _ _ m => { onInactive m 0 false false with drain := 0 }),
    matrixRule .mswap (fun _ _ _ => True) (fun _ _ m => { m with active := !m.active }) ]

/-- The term of a K block of a plane for a row and column: the sum of the weights at the block's plane bits, negative in the top plane,
at the exponents' sum; none where an exponent is -128 (R205, R328). -/
def planeTerm (m : Matrix) (x : PlaneRead) (bits row n kb : Nat) : Option ℚ :=
  let byte (v i : Nat) : Int := if v / 2 ^ (8 * i) % 256 < 128 then v / 2 ^ (8 * i) % 256 else (v / 2 ^ (8 * i) % 256 : Nat) - 256
  let da := byte x.exps (8 * row + kb)
  let dw := byte x.wexp (128 * kb + n)
  let weight (k : Nat) : Int :=
    let v := x.weights / 2 ^ (12 * (128 * k + n)) % 4096
    if m.fp64 = true ∧ x.slice < 4 then v else if v < 2048 then v else (v : Int) - 4096
  let u : Int := ((List.range 8).map (fun i => (bits / 2 ^ (64 * row + 8 * kb + i) % 2 : Nat) * weight (8 * kb + i))).sum
  if da = -128 ∨ dw = -128 then none
  else some ((if x.b + 1 = m.p then -u else u : Int) * (2 : ℚ) ^ ((x.b : Int) + da + dw + m.ebs.toInt + 12 * x.slice))

/-- What MPLANE adds: into each register of the row group the terms of its eight K blocks, in order; every other register, the other bank
and the rest of the matrix state stay (R208, R328). -/
def PlaneAdds : Prop := ∀ (m : Matrix) (x : PlaneRead) (bits : Nat), x.rowGroup < 2 → (m.fp64 = true → x.rowGroup = 0) →
  let r := (m.addPlane x bits).1
  let reg (y : Matrix) (row n : Nat) : Nat := regAt m.fp64 (if m.active then y.bank1 else y.bank0).toNat row n
  let take (row n : Nat) : Nat × Bool × Bool := (List.range 8).foldl (fun (a : Nat × Bool × Bool) kb =>
    match planeTerm m x bits row n kb with
    | none => a
    | some t =>
      let y := takeIn (if m.fp64 then 160 else 64) m.we.toInt a.1 t
      (y.1, a.2.1 || y.2.1, a.2.2 || y.2.2)) (reg m (8 * x.rowGroup + row) n, false, false)
  let any (f : Nat × Bool × Bool → Bool) : Bool := (List.range 8).any (fun row => (List.range 128).any (fun n => f (take row n)))
  (∀ row < 8, ∀ n < 128, reg r (8 * x.rowGroup + row) n = (take row n).1) ∧
  (∀ row < (if m.fp64 then 8 else 16), row / 8 ≠ x.rowGroup → ∀ n < 128, reg r row n = reg m row n) ∧
  r = (if m.active then { m with bank1 := r.bank1, lost1 := m.lost1 || any (·.2.1), tov1 := m.tov1 || any (·.2.2) }
    else { m with bank0 := r.bank0, lost0 := m.lost0 || any (·.2.1), tov0 := m.tov0 || any (·.2.2) })

/-- The register of a bank that column k of a drain token holds: an accumulator, or in MODE FP64 a pair (R329). -/
def drained (fp64 : Bool) (bank t k : Nat) : Nat :=
  if fp64 then regAt true bank (t / 16) (8 * (t % 16) + k) else regAt false bank (t / 8) (16 * (t % 8) + k)

/-- MDRAIN of token t from a bank with its flags, WE and MODE, all as SELECTION read them, and MSTAT (R329). -/
def drainRules : List SlotRule :=
  [ freeRule .mdrain (fun w _ fo => fo.firing.poisoned w = false)
      (fun w _ fo =>
        let fp64 := nth fo.firing.extra 5 0 = 1
        let t := nth fo.firing.extra 0 0
        let n := if fp64 then 160 else 64
        let r (k : Nat) : Nat × Word :=
          let reg := drained fp64 (nth fo.firing.extra 1 0) t k
          let full : Int := if reg < 2 ^ (n + 31) then reg else (reg : Int) - 2 ^ (n + 32)
          if nth fo.firing.extra 3 0 = 1 ∨ full < -(2 ^ (n - 1)) ∨ 2 ^ (n - 1) - 1 < full then ((fmtOf fp64).nan, 0x81)
          else
            let v : Int := if reg % 2 ^ n < 2 ^ (n - 1) then (reg % 2 ^ n : Nat) else ((reg % 2 ^ n : Nat) : Int) - 2 ^ n
            (fmtOf fp64).round (rndOf w.rnd) (v < 0) v.natAbs (BitVec.ofNat 12 (nth fo.firing.extra 4 0)).toInt false
        { Effect.one (some (lanesOfElems fp64 (fun k => some (r k).1), builtTag w fo.firing))
            ((List.range (elemCount fp64)).foldl (fun acc k => acc ||| (r k).2) 0 |||
              (if nth fo.firing.extra 2 0 = 1 then 0x40 else 0)) with
          tested := some (Lanes.all (BitVec.ofNat 32 ((t + 1) % 128))) })
      (fun w _ fo e =>
        let m := e.matrix
        let t := nth fo.firing.extra 0 0
        let bank := BitVec.ofNat 196608 (clearDrained m.fp64 (if m.active then m.bank0 else m.bank1).toNat t)
        let lost := if t = 127 then false else if m.active then m.lost0 else m.lost1
        let tov := if t = 127 then false else if m.active then m.tov0 else m.tov1
        if w.x then { e with matrix := onInactive m bank lost tov } else e),
    freeRule .mstat (fun w _ fo => fo.firing.poisoned w = false) (fun w _ fo =>
      .one (some (lanesOf (fun l => if l < 8 then (fo.firing.extra[l]?).map (BitVec.ofNat 32) else none),
        builtTag w fo.firing)) 0) ]

/-! ## System instructions -/

/-- A result without a valid lane beyond the given ones. -/
def firstLanes (l : List Nat) : Lanes := lanesOf (fun k => (l[k]?).map (BitVec.ofNat 32))

/-- The request of a LEASE: lanes 0 to 2 in their ranges (R334). -/
def leaseOf (a : Lanes) : Option (Nat × Nat × Bool) :=
  match laneAt a 0, laneAt a 1, laneAt a 2 with
  | some us, some p, some m =>
    if us ≠ 0 ∧ 4 ≤ p.toNat ∧ p.toNat ≤ 7 ∧ m.toNat ≤ 1 then some (us.toNat, p.toNat, m.toNat == 1) else none
  | _, _, _ => none

/-- The power controller holds one more request (R111, R334). -/
def asked (s : State) (fo : Focus) (w : Slot) (r : Effect) (ask : Option (Word ⊕ (Nat × Nat × Bool))) (t : State) : Prop :=
  ∃ i q, (s.elem fo.eid).inst = some i ∧ ask = some q ∧
    RestThen s t fo w r (fun u =>
      { u with ctrlQ := s.ctrlQ ++ [⟨i, clusterOf (tileOf fo.eid), fo.eid, fo.firing.entry, q, s.now⟩] })

/-- LEASE, LEASEEND (R334, R335) and MELTRD (R336). -/
def leaseRules : List SlotRule :=
  [ freeRule .lease
      (fun w s fo => Clean w s fo ∧ (leaseOf fo.firing.a.lanes).isSome = true ∧ (s.elem fo.eid).inst.isSome = true)
      (fun _ _ _ => .nothing) (fun _ _ _ => id)
      (fun w s fo r t => asked s fo w r ((leaseOf fo.firing.a.lanes).map Sum.inr) t),
    freeRule .leaseend
      (fun w s fo => Clean w s fo ∧ validAt fo.firing.a.lanes 0 = true ∧ (s.elem fo.eid).inst.isSome = true)
      (fun _ _ _ => .nothing) (fun _ _ _ => id)
      (fun w s fo r t => asked s fo w r ((laneAt fo.firing.a.lanes 0).map Sum.inl) t),
    freeRule .meltrd (fun w _ fo => fo.firing.poisoned w = false)
      (fun w _ fo => .one (some (firstLanes (fo.firing.extra.take 4), builtTag w fo.firing)) 0) ]

/-- Counter group g of an element or its tile (R337). -/
def groupOf (s : State) (eid g : Nat) : CounterGroup :=
  if g < 3 then nth (s.elem eid).counters g { } else nth (s.tile (tileOf eid)).counters (g - 3) { }

/-- A group under CNTCTL: frozen, run or cleared (R338). -/
def controlled (op : Nat) (g : CounterGroup) : CounterGroup :=
  if op = 0 then { g with running := false } else if op = 1 then { g with running := true }
  else { g with c := [0, 0, 0, 0, 0, 0, 0] }

/-- CNTRD and CNTCTL (R338). -/
def counterRules : List SlotRule :=
  [ freeRule .cntrd (fun w _ fo => fo.firing.poisoned w = false) (fun w s fo =>
      let c (k : Nat) : Nat := if k = 7 then s.now else nth (groupOf s fo.eid (w.imm.toNat % 8)).c k 0
      .one (some (lanesOf (fun l => some (BitVec.ofNat 32 (c (l / 2) / 2 ^ (32 * (l % 2))))), builtTag w fo.firing)) 0),
    freeRule .cntctl (fun _ _ _ => True) (fun _ _ _ => .nothing) (fun _ _ _ => id)
      (fun w s fo r t => (∃ c, RestThen s t fo w r (fun u => u.modTile (tileOf fo.eid) (fun x => { x with counters := c }))) ∧ ∀ g, g < 8 → (s.elem fo.eid).counters.length = 3 →
        (s.tile (tileOf fo.eid)).counters.length = 5 →
        groupOf t fo.eid g = if w.imm.toNat.testBit g then controlled (w.imm.toNat / 2 ^ 8 % 4) (groupOf s fo.eid g)
          else groupOf s fo.eid g) ]

/-- PACE (R340), TSTAMP (R339), FLAGRD and FLAGCLR (R345), POLICYRD (R346). -/
def traceRules : List SlotRule :=
  [ freeRule .pace (fun _ _ _ => True)
      (fun _ s fo => { Effect.one (pass fo.firing.a) 0 with log := some ⟨s.now, fo.eid, [], false⟩ }),
    freeRule .tstamp (fun w _ fo => fo.firing.poisoned w = false) (fun w s fo =>
      let t := nth fo.firing.extra 0 0
      .one (some (firstLanes [t, t / 2 ^ 32, fo.eid, match s.instOf fo.eid with
        | some x => x.num
        | none => 0], builtTag w fo.firing)) 0),
    freeRule .flagrd (fun w _ fo => fo.firing.poisoned w = false)
      (fun w s fo => .one (some (Lanes.all (s.elem fo.eid).flags, builtTag w fo.firing)) 0),
    freeRule .flagclr (fun _ _ _ => True) (fun _ _ _ => .nothing)
      (fun w _ _ e => { e with flags := e.flags &&& ~~~(BitVec.ofNat 32 (w.imm.toNat % 256)) }) ]

/-- POLICYRD (R346). -/
def policyRule : SlotRule :=
  freeRule .policyrd (fun w _ fo => fo.firing.poisoned w = false) (fun w s fo =>
    let p : List Byte := match s.instOf fo.eid with
      | some x => x.policy
      | none => []
    let byte (n : Nat) : Nat := ((p[64 * (w.imm.toNat % 8) + n]?).getD 0).toNat
    .one (some (lanesOf (fun l => some (BitVec.ofNat 32 (byte (4 * l) + 2 ^ 8 * byte (4 * l + 1) +
      2 ^ 16 * byte (4 * l + 2) + 2 ^ 24 * byte (4 * l + 3)))), builtTag w fo.firing)) 0)

/-- The index of a TDONE that the Starter takes: issued to the instance and not yet reported (R76, R341). -/
def TDoneOf (s : State) (fo : Focus) (i : Nat) (x : Inst) (n : Nat) : Prop :=
  (laneAt fo.firing.a.lanes 0).map BitVec.toNat = some n ∧ (s.elem fo.eid).inst = some i ∧ s.insts.find i = some x ∧
    x.faulted = false ∧ n ∈ x.held ∧ ∀ d ∈ x.tdones, d.index ≠ n

/-- TDONE (R341) and YIELD (R342), on instance i: a YIELD of an instance already past MINRES has no effect at all (R69). -/
def reportRules (i : Nat) (x : Inst) (n : Nat) : List SlotRule :=
  [ freeRule .tdone (fun w s fo => Clean w s fo ∧ TDoneOf s fo i x n) (fun _ _ _ => .nothing) (fun _ _ _ => id)
      (fun w s fo r t => RestThen s t fo w r (fun u =>
        { u with insts := s.insts.put i { x with tdones := x.tdones ++ [⟨fo.eid, n⟩] } })),
    freeRule .yield (fun _ s fo => (s.elem fo.eid).inst = some i ∧ s.insts.find i = some x ∧ x.yielded = false ∧
        s.now < x.commitTime + (s.part x.part).minres.toNat * 1000) (fun _ _ _ => .nothing) (fun _ _ _ => id)
      (fun w s fo r t => RestThen s t fo w r (fun u =>
        { u with insts := s.insts.put i { x with yielded := true },
                 parts := u.parts.mapIdx (fun p (y : Partition) => if p = x.part then { y with decide_ := true } else y) })),
    freeRule .yield (fun _ s fo => (s.elem fo.eid).inst = some i ∧ s.insts.find i = some x ∧
        (x.yielded = true ∨ x.commitTime + (s.part x.part).minres.toNat * 1000 ≤ s.now)) (fun _ _ _ => .nothing) ]

/-- BRK writes back, leaves one BREAK record, and a hold of its instance begins where none or no cut is under way (R233,
R333). -/
def breakRule (i : Nat) (x : Inst) : SlotRule :=
  freeRule .brk (fun _ s fo => (s.elem fo.eid).inst = some i ∧ s.insts.find i = some x) (fun _ _ _ => .nothing)
    (fun _ _ _ => id)
    (fun w s fo r t => ∃ (u : State) (ev : FaultEvent), RestIs s u fo w r ∧
      (ev.kind, ev.src, ev.family, ev.code, ev.addr) = (0, fo.eid, 9, 1, 0) ∧ ev.slot = some fo.firing.slot ∧
      ev.word = fo.firing.word ∧ ev.tokens = [] ∧ ev.time = s.now ∧ ev.heads = (s.elem fo.eid).headsWord ∧
      (∀ n, t.insts.find n = if n = i then some (
        if (x.phase = .run ∨ x.phase = .teardown) ∧ x.stop = .none then
          { x with faults := x.faults ++ [ev], stop := .hold fo.eid true, waveLeft := x.elems, holdDone := false }
        else { x with faults := x.faults ++ [ev] }) else s.insts.find n) ∧
      { t with insts := u.insts, recSeq := u.recSeq } = u)

/-- The operand of AMSEND: AMOP, OPERAND, CONT, DEST and package, each lane valid and each value in its range (R343). -/
def SendIs (s : State) (fo : Focus) (amop : Nat) (operand : Word) (cont : DWord) (dest : Nat) : Prop :=
  (∀ l, l < 5 → validAt fo.firing.a.lanes l = true) ∧
  let x (l : Nat) : Nat := (wordAt fo.firing.a.lanes l).toNat
  x 0 = amop ∧ amop < 256 ∧ x 1 = operand.toNat ∧ x 2 + x 3 * 2 ^ 32 = cont.toNat ∧ x 4 < 1024 ∧ x 4 / 256 = dest ∧
    dest < 3 ∧ (dest = 2 → x 4 % 256 ≠ s.pkgId.toNat ∧ x 4 % 256 < 192)

/-- An AMOP suits a destination (R343). -/
def Suits (dest amop : Nat) : Prop := (0x40 ≤ amop ∧ amop ≤ 0x4F) ∨ (dest ≠ 1 ∧ 0x01 ≤ amop ∧ amop ≤ 0x07)

/-- AMSEND to the host: a message of the VF with its next outgoing SEQ (R41, R343). -/
def sendHostRule (amop : Nat) (operand : Word) (cont : DWord) : SlotRule :=
  freeRule .amsend (fun w s fo => Clean w s fo ∧ SendIs s fo amop operand cont 1 ∧ Suits 1 amop) (fun _ _ _ => .nothing)
    (fun _ _ _ => id)
    (fun w s fo r t =>
      let v := s.vfOf fo.eid
      let m : OutAm := ⟨BitVec.ofNat 8 amop, (s.vf v).outSeq, operand, cont, some (fo.eid, fo.firing.entry)⟩
      let x : Vf := { s.vf v with out := (s.vf v).out ++ [m], outSeq := (s.vf v).outSeq + 1 }
      RestThen s t fo w r (fun u => { u with vfs := s.vfs.put v x }))

/-- The message of an AMSEND to a Starter: the VF of its instance, and that VF's device SEQ (R32, R343). -/
def sentAm (s : State) (fo : Focus) (amop : Nat) (operand : Word) (cont : DWord) : Am :=
  let v := s.vfOf fo.eid
  ⟨BitVec.ofNat 8 amop, BitVec.ofNat 9 v, (s.vf v).part, (s.vf v).devSeq, operand, cont, .element fo.eid fo.firing.entry⟩

/-- The VFs once such a message has taken its SEQ. -/
def seqTaken (s : State) (fo : Focus) : NMap Vf :=
  s.vfs.put (s.vfOf fo.eid) { s.vf (s.vfOf fo.eid) with devSeq := (s.vf (s.vfOf fo.eid)).devSeq + 1 }

/-- AMSEND to the home Starter: a message with the VF's device SEQ waits there (R343). -/
def sendHomeRule (amop : Nat) (operand : Word) (cont : DWord) : SlotRule :=
  freeRule .amsend (fun w s fo => Clean w s fo ∧ SendIs s fo amop operand cont 0 ∧ Suits 0 amop) (fun _ _ _ => .nothing)
    (fun _ _ _ => id)
    (fun w s fo r t => RestThen s t fo w r (fun u =>
      { u with vfs := seqTaken s fo, devAms := s.devAms ++ [sentAm s fo amop operand cont] }))

/-- AMSEND to another package while a port is up: the message waits for its port (R15, R343). -/
def sendPodRule (amop : Nat) (operand : Word) (cont : DWord) : SlotRule :=
  freeRule .amsend (fun w s fo => Clean w s fo ∧ SendIs s fo amop operand cont 2 ∧ Suits 2 amop ∧ ∃ p ∈ s.aqric, p.up = true)
    (fun _ _ _ => .nothing) (fun _ _ _ => id)
    (fun w s fo r t => RestThen s t fo w r (fun u =>
      { u with vfs := seqTaken s fo, nextId := s.nextId + 1, podAms := s.podAms ++ [⟨s.nextId, fo.eid,
          (wordAt fo.firing.a.lanes 4).toNat % 256, none, sentAm s fo amop operand cont, ((s.elem fo.eid).inst).getD 0, fo.firing⟩] }))

/-- AMSEND with an AMOP that does not suit its destination: refused as undefined, which its entry answers with the SEQ
taken (R32, R343). -/
def sendBadRule (amop : Nat) (operand : Word) (cont : DWord) (dest : Nat) : SlotRule :=
  freeRule .amsend
    (fun w s fo => Clean w s fo ∧ SendIs s fo amop operand cont dest ∧ ¬Suits dest amop ∧
      (dest = 2 → ∃ p ∈ s.aqric, p.up = true) ∧
      ∀ n, fo.firing.entry = some n → ∃ a ∈ (s.elem fo.eid).ans, a.id = n)
    (fun _ _ _ => .nothing)
    (fun _ s fo e => match fo.firing.entry with
      | none => e
      | some n => e.answer n (fun t => ⟨firstLanes [1, (s.vf (s.vfOf fo.eid)).devSeq.toNat], t, none⟩))
    (fun w s fo r t => ∃ u, RestIs s u fo w r ∧ { t with elems := u.elems } = { u with vfs := seqTaken s fo })

/-! ## Faults of firings -/

/-- When an instruction faults, and with what. -/
structure FaultRule where
  instr : Slot → Instr
  pre : Slot → State → Focus → Prop
  family : Nat
  code : Slot → Nat
  addr : Slot → State → Focus → Nat := fun _ _ _ => 0

/-- Each instruction of a list faults: nothing is written, emitted or stored, and its instance has one more record. -/
def HoldsFaults (rules : List FaultRule) : Prop :=
  ∀ x ∈ rules, ∀ (w : Slot) (s : State) (fo : Focus), Due s fo → x.pre w s fo →
    Faults (x.instr w) s fo x.family (x.code w) (x.addr w s fo)

def rangeFault (i : Slot → Instr) (pre : Slot → State → Focus → Prop) : FaultRule := ⟨i, pre, 2, fun _ => 2, fun _ _ _ => 0⟩
def tableFault (i : Slot → Instr) (pre : Slot → State → Focus → Prop) : FaultRule := ⟨i, pre, 2, fun _ => 3, fun _ _ _ => 0⟩
def poisonFault (i : Slot → Instr) (pre : Slot → State → Focus → Prop) : FaultRule :=
  ⟨i, pre, 3, fun _ => 0x10, fun _ _ _ => 0⟩

/-- A source is POISON. -/
def PoisonIn (view : Firing → View) (_ : Slot) (_ : State) (fo : Focus) : Prop := (view fo.firing).tag = some tagPoison

/-- Instructions that take no POISON control operand (R170, R265, R294, R300, R327, R328, R331). -/
def controlFaults : List FaultRule :=
  [ poisonFault .xadd (fun w _ fo => fo.firing.poisoned w = true), poisonFault .xmac (fun w _ fo => fo.firing.poisoned w = true),
    poisonFault .xmerge (fun w _ fo => fo.firing.poisoned w = true),
    poisonFault .dup (PoisonIn (·.c)), poisonFault .filt (PoisonIn (·.b)), poisonFault .gate (PoisonIn (·.b)),
    poisonFault .merge (PoisonIn (·.c)), poisonFault .cnt (PoisonIn (·.a)), poisonFault .cnt (PoisonIn (·.b)),
    poisonFault .endgen (PoisonIn (·.b)), poisonFault .endgen (PoisonIn (·.c)), poisonFault .pset (PoisonIn (·.a)),
    poisonFault .sloten (PoisonIn (·.a)), poisonFault .pack (PoisonIn (·.a)),
    poisonFault .lds (PoisonIn (·.a)), poisonFault .sts (PoisonIn (·.a)), poisonFault .ldsx (PoisonIn (·.a)),
    poisonFault .stsx (PoisonIn (·.a)), poisonFault .atms (PoisonIn (·.a)), poisonFault .cass (PoisonIn (·.a)),
    poisonFault .tas (PoisonIn (·.a)), poisonFault .cpy (PoisonIn (·.a)), poisonFault .rsts (PoisonIn (·.a)),
    poisonFault .ratm (PoisonIn (·.a)) ] ++
  [ poisonFault .mwload (fun w _ fo => fo.firing.poisoned w = true), poisonFault .mexpt (fun w _ fo => fo.firing.poisoned w = true),
    poisonFault .mplane (fun w _ fo => fo.firing.poisoned w = true), poisonFault .trap (fun w _ fo => fo.firing.poisoned w = true),
    poisonFault .lease (fun w _ fo => fo.firing.poisoned w = true),
    poisonFault .leaseend (fun w _ fo => fo.firing.poisoned w = true),
    poisonFault .tdone (fun w _ fo => fo.firing.poisoned w = true),
    poisonFault .amsend (fun w _ fo => fo.firing.poisoned w = true) ]

/-- The set-up checks of a stream: STREAM SETUP, and those that are OPERAND RANGE (R313). -/
def BadFormat (c : StreamCfg) : Prop := 12 < c.fmt ∨ c.rndf = 3

def BadShape (c : StreamCfg) : Prop :=
  let stride (k : Nat) : Int := nth c.stride k 0
  c.kind = 7 ∨ (4 ≤ c.fmt ∧ stride 0 ≠ 1) ∨
  (c.fmt ∈ [11, 12] ∧ (nth c.ext 0 1 % 16 ≠ 0 ∨ ∃ k ∈ [1, 2, 3, 4], stride k % 16 ≠ 0)) ∨
  (c.kind = 2 ∧ (c.planes < 1 ∨ 56 < c.planes)) ∨ (c.kind ∈ [2, 3] ∧ c.fmt < 2) ∨ (c.kind ∈ [5, 6] ∧ 2 < c.fmt)

/-- An instruction that names a stream that failed its set-up (R313). -/
def setupFaults (i : Slot → Instr) : List FaultRule :=
  [ ⟨i, fun w s fo => (streamOf w s fo).cfg.v = true ∧ BadFormat (streamOf w s fo).cfg, 4, fun _ => 7, fun _ _ _ => 0⟩,
    rangeFault i (fun w s fo => (streamOf w s fo).cfg.v = true ∧ ¬BadFormat (streamOf w s fo).cfg ∧
      BadShape (streamOf w s fo).cfg) ]

/-- The lanes and values of a field of PATSET (R320). -/
def FieldOk (w : Slot) (fo : Focus) : Prop :=
  let need (n : Nat) : Prop := ∀ l < n, validAt fo.firing.a.lanes l = true
  match w.imm.toNat % 16 with
  | 0 => need 2
  | 1 => need 5 ∧ ∀ l < 5, 1 ≤ (wordAt fo.firing.a.lanes l).toNat ∧ (wordAt fo.firing.a.lanes l).toNat ≤ 65536
  | 2 => need 5
  | 3 => need 1
  | _ => True

/-- PATSET: no stream, POISON, a field out of range, and with GO the checks of a set-up (R313, R320). -/
def patsetFaults : List FaultRule :=
  let named (w : Slot) (s : State) (fo : Focus) : Prop := (streamOf w s fo).cfg.v = true ∧ fo.firing.poisoned w = false
  let goes (w : Slot) (s : State) (fo : Focus) (c : StreamCfg) : Prop :=
    patField (w.imm.toNat % 16) fo.firing.a.lanes (streamOf w s fo).regs = some c ∧ w.imm.toNat.testBit 4 = true
  [ tableFault .patset (fun w s fo => (streamOf w s fo).cfg.v = false),
    poisonFault .patset (fun w s fo => (streamOf w s fo).cfg.v = true ∧ fo.firing.poisoned w = true),
    rangeFault .patset (fun w s fo => named w s fo ∧ ¬FieldOk w fo),
    ⟨.patset, fun w s fo => named w s fo ∧ ∃ c, goes w s fo c ∧ BadFormat c, 4, fun _ => 7, fun _ _ _ => 0⟩,
    rangeFault .patset (fun w s fo => named w s fo ∧ ∃ c, goes w s fo c ∧ ¬BadFormat c ∧ BadShape c) ]

/-- The operand of AMSEND with every lane valid and a value out of its range (R343). -/
def SendOut (s : State) (fo : Focus) : Prop :=
  let x (l : Nat) : Nat := (wordAt fo.firing.a.lanes l).toNat
  (∀ l < 5, validAt fo.firing.a.lanes l = true) ∧
    (256 ≤ x 0 ∨ 1024 ≤ x 4 ∨ x 4 / 256 = 3 ∨ (x 4 / 256 = 2 ∧ (x 4 % 256 = s.pkgId.toNat ∨ 192 ≤ x 4 % 256)))

/-- Operands outside their ranges (R220, R264, R288, R296, R297, R307, R308, R310, R311, R319, R327, R328, R334, R343). -/
def operandFaults : List FaultRule :=
  [ rangeFault .lshup (fun _ _ fo => ∃ n, laneAt fo.firing.b.lanes 0 = some n ∧ 16 < n.toNat),
    rangeFault .aadd (fun w _ fo => w.x = true ∧ wordAt fo.firing.c.lanes 0 = 0 ∧ sourcesValid w fo.firing 0 = true),
    rangeFault .xsend (fun _ _ fo => ∀ j, ¬IndexIs fo j),
    rangeFault .xmerge (fun w s fo => Clean w s fo ∧ ∀ j, ¬IndexIs fo j),
    rangeFault .xmerge (fun w s fo => Clean w s fo ∧ IndexIs fo 0 ∧ (tagA fo = 0 ∨ 4 < (tagA fo).toNat)),
    rangeFault .xmerge (fun w s fo => Clean w s fo ∧ (∃ j, j ≠ 0 ∧ IndexIs fo j) ∧ tagA fo ≠ 0),
    tableFault .hins (fun w s fo => ¬TableSet w s fo), tableFault .hfind (fun w s fo => ¬TableSet w s fo),
    tableFault .lbput (fun w s fo => ((s.elem fo.eid).lapCfg (seDesc w)).v = false),
    tableFault .lbget (fun w s fo => ((s.elem fo.eid).lapCfg (seDesc w)).v = false),
    tableFault .lbstat (fun w s fo => ((s.elem fo.eid).lapCfg (seDesc w)).v = false),
    rangeFault .lbput (fun w s fo => ((s.elem fo.eid).lapCfg (seDesc w)).v = true ∧
      ((s.elem fo.eid).lapCfg (seDesc w)).slotg < offset w),
    rangeFault .lbget (fun w s fo => ((s.elem fo.eid).lapCfg (seDesc w)).v = true ∧
      ((s.elem fo.eid).lapCfg (seDesc w)).slotg < offset w),
    rangeFault .cpy (fun w _ fo => fo.firing.a.tag ≠ some tagPoison ∧ w.rnd ≠ 2 ∧ copyArgs w fo.firing = none),
    rangeFault .cpy (fun w s fo => fo.firing.a.tag ≠ some tagPoison ∧ w.rnd = 2 ∧ ((s.elem fo.eid).lapCfg (seDesc w)).v = true ∧
      copyArgs w fo.firing = none),
    tableFault .cpy (fun w s fo => fo.firing.a.tag ≠ some tagPoison ∧ w.rnd = 2 ∧ ((s.elem fo.eid).lapCfg (seDesc w)).v = false),
    rangeFault .rsts (fun w s fo => fo.firing.a.tag ≠ some tagPoison ∧ ∃ x, remotePlace w fo.firing = some x ∧
      s.remoteOk fo.eid x.1 = false),
    rangeFault .ratm (fun w s fo => fo.firing.a.tag ≠ some tagPoison ∧ ∃ x, remotePlace w fo.firing = some x ∧
      s.remoteOk fo.eid x.1 = false) ] ++
  [ rangeFault .patst (fun w s fo => Usable [1, 5] (streamOf w s fo) ∧ (streamOf w s fo).mode = .idle),
    rangeFault .mwload (fun w s fo => Clean w s fo ∧ tagA fo ≠ (if (matrixOf s fo).wcursor < 16 then 1 else 0)),
    rangeFault .mwload (fun w s fo => Clean w s fo ∧ (if (matrixOf s fo).fp64 then 4 else 0) < w.imm.toNat % 8),
    rangeFault .mexpt (fun w s fo => Clean w s fo ∧ tagA fo ≠ 1),
    rangeFault .mexpt (fun w s fo => Clean w s fo ∧ (matrixOf s fo).fp64 = true ∧ w.imm.toNat % 2 = 1),
    rangeFault .mplane (fun w s fo => Clean w s fo ∧ tagA fo ≠ 0),
    rangeFault .lease (fun w s fo => Clean w s fo ∧ leaseOf fo.firing.a.lanes = none),
    rangeFault .leaseend (fun w s fo => Clean w s fo ∧ validAt fo.firing.a.lanes 0 = false),
    rangeFault .amsend (fun w s fo => Clean w s fo ∧ ∃ l, l < 5 ∧ validAt fo.firing.a.lanes l = false),
    rangeFault .amsend (fun w s fo => Clean w s fo ∧ SendOut s fo),
    ⟨.tdone, fun w s fo => Clean w s fo ∧ validAt fo.firing.a.lanes 0 = false, 2, fun _ => 1, fun _ _ _ => 0⟩,
    ⟨.tdone, fun w s fo => Clean w s fo ∧ ∃ n i x, laneAt fo.firing.a.lanes 0 = some n ∧ (s.elem fo.eid).inst = some i ∧
      s.insts.find i = some x ∧ x.faulted = false ∧ (n.toNat ∉ x.held ∨ ∃ d ∈ x.tdones, d.index = n.toNat), 2, fun _ => 1, fun _ _ _ => 0⟩,
    ⟨.zip, fun w _ fo => w.rnd = 0 ∧ endAgainst (fo.firing.a.tag.getD 0) (fo.firing.b.tag.getD 0) ≠
      endAgainst (fo.firing.b.tag.getD 0) (fo.firing.a.tag.getD 0), 4, fun _ => 1, fun _ _ _ => 0⟩ ] ++
  [ rangeFault .ldg (fun w s fo => Usable [4] (streamOf w s fo) ∧ (streamOf w s fo).cfg.fmt ∈ [11, 12]),
    rangeFault .stg (fun w s fo => Usable [4] (streamOf w s fo) ∧ (streamOf w s fo).cfg.fmt ∈ [11, 12]),
    rangeFault .gath (fun w s fo => Usable [4] (streamOf w s fo) ∧ 3 ≤ (streamOf w s fo).cfg.fmt),
    rangeFault .scat (fun w s fo => Usable [4] (streamOf w s fo) ∧ 3 ≤ (streamOf w s fo).cfg.fmt) ] ++
  patsetFaults ++ [Instr.ldg, .stg, .gath, .scat, .atmg, .casg, .patst].flatMap setupFaults

/-- ALIGN of the first address that is no multiple of 4, with that address (R150, R300). -/
def alignRule (i : Slot → Instr) (places : Slot → Firing → Places) : FaultRule where
  instr := i
  pre := fun w _ fo => fo.firing.a.tag ≠ some tagPoison ∧ ∃ x ∈ places w fo.firing, x.2 % 4 ≠ 0
  family := 3
  code := fun _ => 1
  addr := fun w _ fo => match (places w fo.firing).find? (fun x => x.2 % 4 ≠ 0) with
    | some x => x.2
    | none => 0

/-- An instruction of an INDEX stream, what it faults with: the set-up, the kind, a POISON address, and an address
beyond 2^49 or no multiple of 4, VA-RANGE first (R157, R170, R313). -/
def indexFaults (i : Slot → Instr) (fmts : List Nat) (vas : Slot → State → Focus → List Nat) : List FaultRule :=
  let first (w : Slot) (s : State) (fo : Focus) : Option Nat := (vas w s fo).find? (fun va => 2 ^ 49 ≤ va || va % 4 ≠ 0)
  let good (w : Slot) (s : State) (fo : Focus) : Prop :=
    Usable [4] (streamOf w s fo) ∧ (streamOf w s fo).cfg.fmt ∈ fmts ∧ fo.firing.a.tag ≠ some tagPoison
  [ tableFault i (fun w s fo => (streamOf w s fo).cfg.v = false),
    rangeFault i (fun w s fo => (streamOf w s fo).cfg.v = true ∧ (streamOf w s fo).cfg.setupFault = none ∧
      (streamOf w s fo).cfg.kind ≠ 4),
    poisonFault i (fun w s fo => Usable [4] (streamOf w s fo) ∧ (streamOf w s fo).cfg.fmt ∈ fmts ∧
      fo.firing.a.tag = some tagPoison),
    ⟨i, fun w s fo => good w s fo ∧ ∃ va, first w s fo = some va ∧ 2 ^ 49 ≤ va, 3, fun _ => 2,
      fun w s fo => (first w s fo).getD 0⟩,
    ⟨i, fun w s fo => good w s fo ∧ ∃ va, first w s fo = some va ∧ va < 2 ^ 49, 3, fun _ => 1,
      fun w s fo => (first w s fo).getD 0⟩ ]

/-- RSTS and RATM at an address that is no multiple of 4 of a tile that they may reach (R300, R311). -/
def remoteAlign (i : Slot → Instr) : FaultRule :=
  { alignRule i (fun w f => (remotePlace w f).toList.map (fun x => (0, x.2))) with
    pre := fun w s fo => fo.firing.a.tag ≠ some tagPoison ∧ ∃ x, remotePlace w fo.firing = some x ∧ s.remoteOk fo.eid x.1 = true ∧
      x.2 % 4 ≠ 0 }

/-- PATST at an address beyond 2^49, or at no multiple of 4: the first address that its position checks (R157, R314). -/
def patAddress : List FaultRule :=
  let first (w : Slot) (s : State) (fo : Focus) : Option Nat :=
    ((streamOf w s fo).cfg.checkedPut ((streamOf w s fo).cfg.tok (streamOf w s fo).pos) fo.firing.a.lanes).find?
      (fun va => 2 ^ 49 ≤ va || va % 4 ≠ 0)
  let good (w : Slot) (s : State) (fo : Focus) : Prop := Usable [1] (streamOf w s fo) ∧ (streamOf w s fo).mode ≠ .idle
  [ ⟨.patst, fun w s fo => good w s fo ∧ ∃ va, first w s fo = some va ∧ 2 ^ 49 ≤ va, 3, fun _ => 2, fun w s fo => (first w s fo).getD 0⟩,
    ⟨.patst, fun w s fo => good w s fo ∧ ∃ va, first w s fo = some va ∧ va < 2 ^ 49, 3, fun _ => 1, fun w s fo => (first w s fo).getD 0⟩ ]

/-- Address faults of the SE, and the faults of the INDEX instructions. -/
def addressFaults : List FaultRule :=
  [ alignRule .lds (tokenPlaces (fun _ _ => true)),
    alignRule .sts (tokenPlaces (fun _ l => l == 0)),
    alignRule .ldsx (indexPlaces (fun _ f => validAt f.a.lanes)),
    alignRule .stsx (indexPlaces (fun _ f l => validAt f.a.lanes l && validAt f.b.lanes l)),
    alignRule .atms (indexPlaces sourcesValid), alignRule .cass (indexPlaces sourcesValid),
    remoteAlign .rsts, remoteAlign .ratm ] ++ patAddress ++
  indexFaults .ldg (List.range 11) (fun w s fo => (firstAddr w s fo).toList) ++
  indexFaults .stg (List.range 11) (fun w s fo => (firstAddr w s fo).toList) ++
  indexFaults .gath [0, 1, 2] (fun w s fo => (laneAddrs (fun _ f => validAt f.a.lanes) w s fo).map (·.2)) ++
  indexFaults .scat [0, 1, 2] (fun w s fo =>
    (laneAddrs (fun _ f l => validAt f.a.lanes l && validAt f.b.lanes l) w s fo).map (·.2)) ++
  indexFaults .atmg (List.range 13) (fun w s fo => (laneAddrs sourcesValid w s fo).map (·.2)) ++
  indexFaults .casg (List.range 13) (fun w s fo => (laneAddrs sourcesValid w s fo).map (·.2))

/-! ## Events and messages -/

/-- What an event does where its conditions hold. -/
structure EventRule where
  event : Instr
  pre : State → Prop
  post : State → State → Prop

/-- Each event of a list answers a next state that its rule describes. -/
def Happen (rules : List EventRule) : Prop := ∀ r ∈ rules, ∀ s, r.pre s → ∃ t, exec r.event s = .next t ∧ r.post s t

/-- An event that leaves the state a function gives. -/
def becomes (i : Instr) (pre : State → Prop) (f : State → State) : EventRule := ⟨i, pre, fun s t => t = f s⟩

/-- The entry of a class in a policy block, as its 64-bit value (R47, R48). -/
def entryWord (b : List Byte) (cls : Nat) : Nat := leNat ((b.drop (0x30 + 8 * cls)).take 8)

/-- LEVEL and RATE (R48). -/
def levelOf (b : List Byte) (cls : Nat) : Nat := entryWord b cls % 4
def rateLimit (b : List Byte) (cls : Nat) : Nat := entryWord b cls / 2 ^ 24 % 32

/-- A value of an item at level 2: times and counts in multiples of their quantum, ids with the bits below the place set, an address
without the bits below 2^ADDR, payload and names kept or withheld (R47, R48, R54). -/
def coarse (b : List Byte) (cls : Nat) : Item → Nat :=
  let field (at_ n : Nat) : Nat := entryWord b cls / 2 ^ at_ % 2 ^ n
  let quantum (n k : Nat) : Nat := n / 2 ^ k * 2 ^ k
  let loc : Nat := field 14 3
  let flags : Nat := leNat ((b.drop 6).take 2)
  fun i => match i with
  | .plain n => n
  | .time n => quantum n (field 2 6)
  | .count n => quantum n (field 8 6)
  | .elem n => if loc = 4 then n else if loc = 3 then n ||| 0x3F else if loc = 2 then n ||| 0xFFF else if loc = 1 then n ||| 0x3FFF else 0xFFFF
  | .tile n => if loc = 4 ∨ loc = 3 then n else if loc = 2 then n ||| 0x3F else if loc = 1 then n ||| 0xFF else 0x3FF
  | .cluster n => if loc = 4 ∨ loc = 3 ∨ loc = 2 then n else if loc = 1 then n ||| 3 else 0xF
  | .addr n => if field 17 6 = 0x3F then 0 else quantum n (field 17 6)
  | .payload n => if field 23 1 = 1 then n else 0
  | .taskId n => if flags % 2 = 1 then n else 0xFFFF
  | .gen n => if flags / 2 % 2 = 1 then n else 0

/-- What the operator reads of an item: at level 0 nothing, at level 1 that it counts anything and when, at level 3 all of it (R53). -/
def viewed (b : List Byte) (cls : Nat) (i : Item) : Nat :=
  match levelOf b cls with
  | 0 => 0
  | 1 => (match i with
    | .time n => n / 2 ^ (entryWord b cls / 4 % 64) * 2 ^ (entryWord b cls / 4 % 64)
    | .count n => min n 1
    | _ => 0)
  | 2 => coarse b cls i
  | _ => i.full

/-- Whether the class has room for one more record of a partition in this second (R55). -/
def HasRoom (s : State) (p : Nat) (b : List Byte) (cls : Nat) : Prop :=
  rateLimit b cls = 31 ∨ nth (s.part p).rate cls 0 < 2 ^ rateLimit b cls

/-- It is counted; or what the cap drops is. -/
def passedOne (p cls : Nat) (s : State) : State := s.modPart p (fun x => { x with rate := upd x.rate cls (fun n => n + 1) })
def droppedOne (p cls : Nat) (s : State) : State :=
  s.modPart p (fun x => { x with drops := upd x.drops cls (fun d => min (d + 1) 0xFFFFFFFF) })

/-- A record of a partition for the operator, under the active policy (R53 to R55): at level 1 it exists, with its time; the cap may drop
it. -/
def Recorded (p cls type : Nat) (items : List Item) (s t : State) : Prop :=
  let b := (s.part p).active
  let q := entryWord b cls / 4 % 64
  let time : Nat := if levelOf b cls = 3 then s.now else s.now / 2 ^ q * 2 ^ q
  (levelOf b cls = 0 → t = s) ∧ (levelOf b cls ≠ 0 → ¬HasRoom s p b cls → t = droppedOne p cls s) ∧
  (levelOf b cls ≠ 0 → HasRoom s p b cls → t = { passedOne p cls s with
    operLog := s.operLog ++ [⟨cls, some p, type, time, items.map (fun i => if levelOf b cls = 1 then 0 else viewed b cls i), false⟩] })

/-- The state once the SEQ of a host message is counted (R30). -/
def counted (m : Am) (s : State) : State :=
  if m.sender = .host then s.modVf m.vf.toNat (fun x => { x with expSeq := x.expSeq + 1 }) else s

/-- A message of an enabled VF; a host message has the SEQ that comes next (R30). -/
def Sent (m : Am) (s : State) : Prop :=
  (s.vf m.vf.toNat).en = true ∧ (m.sender = .host → m.seq = (s.vf m.vf.toNat).expSeq)

/-- Such a message while the firmware runs. -/
def Passes (m : Am) (s : State) : Prop := Sent m s ∧ s.running = true

/-- Where an access of a VF goes in HBM. -/
def homePa (s : State) (v va : Nat) (k : AccessWant) : Option Nat :=
  match s.hostHome v va k with
  | some (.hbm pa) => some pa
  | _ => none

/-- The VF of a message. -/
def vfOfAm (m : Am) : Nat := m.vf.toNat

/-- The state with one more name given away. -/
def named (s : State) : State := { s with nextId := s.nextId + 1 }

/-- Of the elements, instances and tiles only those named change, but for answers that elements wait for. -/
def Untouched (s t : State) (es is ts : List Nat) : Prop :=
  (∀ e, e ∉ es → t.elem e = { s.elem e with ans := (t.elem e).ans }) ∧ (∀ i, i ∉ is → t.insts.find i = s.insts.find i) ∧ ∀ n, n ∉ ts → t.tile n = s.tile n

/-- Reads of other packages are asked for in the name of an owner, and nothing else changes (R15, R16). -/
def OnlyAsks (s t : State) (o : LinkOwner) : Prop :=
  t = { s with links := t.links, nextId := t.nextId } ∧ ∃ l, t.links = s.links ++ l ∧ ∀ r ∈ l, r.owner = o ∧ r.write = false

/-- No write of a Starter or for a message waits for a scrub or is on the link (R43, R163). -/
def NoWrites (s : State) : Prop := s.parked = [] ∧ ∀ r ∈ s.links, r.owner ≠ .write ∨ r.answer.isSome = true

/-- And nothing waits to be said after one. -/
def Written (s : State) : Prop := NoWrites s ∧ s.closings = []

/-- No earlier message of a VF waits to take effect: no write, no user message in a handler's queue, no policy, no launch that is still
to be walked, and no ORDER (R42). -/
def NoneWaits (s : State) (v : Nat) : Prop :=
  Written s ∧ (s.vf v).orders = [] ∧ (∀ l ∈ s.launches, l.2.vf ≠ v ∨ l.2.walked = true) ∧
  ∀ p ∈ s.parts, (∀ h ∈ p.handlers, ∀ q ∈ h.queue, vfOfAm q.am ≠ v) ∧ ∀ q ∈ p.pendingPolicies, q.vf ≠ v

/-- A NAK of a host message (R41). -/
def nakOf (m : Am) (reason : Nat) (cont : DWord) (s : State) : State :=
  s.modVf m.vf.toNat (fun x => { x with
    out := x.out ++ [⟨0x83, x.outSeq, BitVec.ofNat 32 (reason * 2 ^ 24 + m.amop.toNat * 2 ^ 16 + m.seq.toNat), cont, none⟩],
    outSeq := x.outSeq + 1 })

/-- The 64 bytes of a graph word that a message names, and the 512 of a policy. -/
def graphReach (m : Am) : Reach := { v := vfOfAm m, va := m.cont.toNat, n := 64 }
def policyReach (m : Am) : Reach := { v := vfOfAm m, va := m.cont.toNat, n := 512, host := true }

/-- The page of SIGVAL. -/
def sigvalReach (m : Am) : Reach := { v := vfOfAm m, va := m.cont.toNat + 0x14, n := 4, host := true, read := false }

/-- Nothing that a message reads stands under a scrub or is still to come from another package (R16, R163). -/
def Unstopped (s : State) (l : List Reach) : Prop := ∀ a ∈ l, s.askStops a = false

/-- What is said once the writes before it have performed (R43). -/
def saidAfter (s : State) (vf : Nat) (cont : DWord) (u : State) : Prop :=
  (Written s → u = s.sendAm vf 0x80 0 cont none) ∧ (¬Written s → u = { s with closings := s.closings ++ [.complete vf cont] })

/-- The home of SIGVAL. -/
def sigvalHome (m : Am) (s : State) : Option Home := s.hostHome (vfOfAm m) (m.cont.toNat + 0x14) .store

/-- SIGNAL stores SIGVAL alone: in HBM; at its home once a scrub there has ended; or in another package over the port of its granule,
or once that port is known; a refusal there, like no port that is up and an object that is not aligned or not readable, is answered
with BADADDR (R15, R16, R31, R38, R41, R162, R163). -/
def signalRules (m : Am) : List EventRule :=
  let calm (s : State) : Prop := Passes m s ∧ m.vf ≠ 511 ∧ Unstopped s [contAsk m, sigvalReach m]
  let placed (s : State) : Prop := m.cont.toNat % 64 = 0 ∧ (counted m s).contOk m = true
  let ok (s : State) : Prop := calm s ∧ placed s
  let bytes (pa : Nat) : List (Nat × Byte) := spreadBytes pa (leBytes 4 m.operand.toNat)
  [ ⟨.signal m, fun s => ok s ∧ (homePa (counted m s) (vfOfAm m) (m.cont.toNat + 0x14) .store).isSome = true,
      fun s t => ∀ pa, homePa (counted m s) (vfOfAm m) (m.cont.toNat + 0x14) .store = some pa →
        t = (if s.scrubbing pa then { counted m s with parked := s.parked ++ [bytes pa] }
          else (counted m s).writeHbm (bytes pa)).accept m⟩,
    ⟨.signal m, fun s => ok s ∧ ∃ pkg ptag pa port,
        sigvalHome m (counted m s) = some (.remote pkg ptag pa port) ∧ s.aqricPort pkg (pa / 64) ≠ .down ∧
        Config.remoteRefuses s.moment pa = false,
      fun s t => ∀ (pkg ptag pa port : Nat) (p : Option Nat), sigvalHome m (counted m s) = some (.remote pkg ptag pa port) →
        (match p with
          | some q => s.aqricPort pkg (pa / 64) = Link.port q
          | none => s.aqricPort pkg (pa / 64) = Link.waits) →
        t = State.accept { counted m s with
          fresh := s.fresh + 1, nextId := s.nextId + 1, links := s.links ++ [⟨s.nextId, .write, pkg, pa, 4, true, p, none⟩] } m⟩,
    ⟨.signal m, fun s => calm s ∧ m.sender = .host ∧ ¬placed s, fun s t => t = nakOf m 0x05 m.cont (counted m s)⟩,
    ⟨.signal m, fun s => ok s ∧ m.sender = .host ∧ ∃ pkg ptag pa port,
        sigvalHome m (counted m s) = some (.remote pkg ptag pa port) ∧
        (s.aqric.all (fun q => !q.up) = true ∨ Config.remoteRefuses s.moment pa = true),
      fun s t => t = nakOf m 0x05 m.cont (counted m s)⟩ ]

/-- ORDER, MAPROOT, POLICY, a user message, and an AMOP that is none (R32, R35, R36, R42, R58). -/
def messageRules (m : Am) : List EventRule :=
  [ becomes (.order m) (fun s => Passes m s ∧ m.operand = 0 ∧ NoneWaits s (vfOfAm m))
      (fun s => ((named (counted m s)).accept m).sendAm (vfOfAm m) 0x80 0 m.cont none),
    becomes (.order m)
      (fun s => Passes m s ∧ m.operand = 0 ∧ (s.vf (vfOfAm m)).orders = [] ∧
        (¬Written s ∨ ∃ p ∈ s.parts, ∃ h ∈ p.handlers, ∃ q ∈ h.queue, vfOfAm q.am = vfOfAm m ∧ q.name < s.nextId))
      (fun s => (named (counted m s)).modVf (vfOfAm m) (fun x => { x with orders := [⟨s.nextId, m⟩] })),
    becomes (.maproot m)
      (fun s => Passes m s ∧ m.vf = 511 ∧ m.operand.toNat < 511 ∧ m.cont.toNat % 1024 = 0 ∧ m.cont.toNat < 2 ^ 42 ∧
        ∀ x ∈ s.insts, x.2.vf ≠ m.operand.toNat)
      (fun s => (((counted m s).accept m).modVf m.operand.toNat (fun x => { x with root := BitVec.ofNat 34 (m.cont.toNat / 1024) })).dropWalks
        m.operand.toNat),
    becomes (.amUndefined m) (Passes m) (fun s => (counted m s).nak m 0x01),
    ⟨.policy m,
      fun s => Passes m s ∧ m.operand = 0 ∧ m.cont.toNat % 64 = 0 ∧ (counted m s).contOk m = true ∧
        (s.vf (vfOfAm m)).orders = [] ∧ Unstopped s [contAsk m, policyReach m] ∧
        ∃ b, (counted m s).readFor (vfOfAm m) m.cont.toNat 512 = some b ∧
          let p := if m.vf = 511 then leNat ((b.drop 5).take 1) % 16 else (s.vf (vfOfAm m)).part.toNat
          policyFault b p ((counted m s).part p) = none ∧ p < s.parts.length ∧ (s.part p).pendingPolicies = [] ∧
          ∀ x ∈ s.insts, x.2.part = p → x.2.policy = b,
      fun s t => ∀ b, (counted m s).readFor (vfOfAm m) m.cont.toNat 512 = some b →
        let p := if m.vf = 511 then leNat ((b.drop 5).take 1) % 16 else (s.vf (vfOfAm m)).part.toNat
        t = (((named (counted m s)).accept m).modPart p (fun x => { x with active := b })).sendAm (vfOfAm m) 0x80 0 m.cont none⟩,
    becomes (.userAm m)
      (fun s => Passes m s ∧ m.vf ≠ 511 ∧
        let p := (s.vf (vfOfAm m)).part.toNat
        let h := nth (s.part p).handlers (m.amop.toNat % 16) { }
        h.hen = true ∧ (s.served? p h.task.toNat).isSome = true ∧ h.queue.length < 16)
      (fun s =>
        let p := (s.vf (vfOfAm m)).part.toNat
        ((named (counted m s)).accept m).modPart p (fun x => { x with
          handlers := upd x.handlers (m.amop.toNat % 16) (fun h =>
            { h with queue := h.queue ++ [⟨s.nextId, { m with part := BitVec.ofNat 4 p }⟩] }) })) ]

/-- A policy that some instance of the partition has yet to take is active, and its COMPLETE waits (R59, R60). -/
def policyWaitRule (m : Am) : EventRule :=
  ⟨.policy m,
    fun s => Passes m s ∧ m.operand = 0 ∧ m.cont.toNat % 64 = 0 ∧ (counted m s).contOk m = true ∧
      Unstopped s [contAsk m, policyReach m] ∧ ∃ b, (counted m s).readFor (vfOfAm m) m.cont.toNat 512 = some b ∧
        let p := if m.vf = 511 then leNat ((b.drop 5).take 1) % 16 else (s.vf (vfOfAm m)).part.toNat
        policyFault b p ((counted m s).part p) = none ∧ p < s.parts.length ∧ ∃ x ∈ s.insts, x.2.part = p ∧ x.2.policy ≠ b,
    fun s t => ∀ b, (counted m s).readFor (vfOfAm m) m.cont.toNat 512 = some b →
      let p := if m.vf = 511 then leNat ((b.drop 5).take 1) % 16 else (s.vf (vfOfAm m)).part.toNat
      t = ((named (counted m s)).accept m).modPart p (fun x =>
        { x with active := b, pendingPolicies := x.pendingPolicies ++ [⟨s.nextId, vfOfAm m, m.sender, m.cont⟩] })⟩

/-- The checks of a policy block in their order: the first that fails, number k, is the reason 0x20 + k (R58). -/
def PolicyFails (b : List Byte) (p : Nat) (x : Partition) (k : Nat) : Prop :=
  let field (off n : Nat) : Nat := leNat ((b.drop off).take n)
  let key : Nat := x.tkey.toNat
  let checks : List Prop :=
    [field 0 4 = 0x31425044, field 4 1 = 1, field 5 1 % 16 = p, key ≠ 0, (b.drop 0x10).take 32 = sha256 (leBytes 64 key),
     policyReserved b = true, policyRange b = true, leNat ((x.active.drop 8).take 8) < field 8 8,
     ecdsaVerify (key % 2 ^ 256) (key / 2 ^ 256) (field 0x1C0 32) (field 0x1E0 32) (sha256 (b.take 0x1C0)) = true]
  (∃ c, checks[k]? = some c ∧ ¬c) ∧ ∀ j < k, ∀ c, checks[j]? = some c → c

/-- A policy that is refused changes nothing: reserved OPERAND bits, a block that is not aligned or not readable, and the first check
of R58 that fails. -/
def policyRefusals (m : Am) (k : Nat) : List EventRule :=
  let calm (s : State) : Prop := Passes m s ∧ m.sender = .host ∧ m.operand = 0 ∧ Unstopped s [contAsk m, policyReach m]
  let placed (s : State) : Prop := m.cont.toNat % 64 = 0 ∧ (counted m s).contOk m = true
  let target (s : State) (b : List Byte) : Nat := if m.vf = 511 then leNat ((b.drop 5).take 1) % 16 else (s.vf (vfOfAm m)).part.toNat
  let read (s : State) : Option (List Byte) := (counted m s).readFor (vfOfAm m) m.cont.toNat 512
  [ becomes (.policy m) (fun s => Passes m s ∧ m.sender = .host ∧ m.operand ≠ 0) (fun s => nakOf m 0x0D m.cont (counted m s)),
    becomes (.policy m) (fun s => calm s ∧ (¬placed s ∨ read s = none)) (fun s => nakOf m 0x05 m.cont (named (counted m s))),
    becomes (.policy m) (fun s => calm s ∧ placed s ∧ ∃ b, read s = some b ∧ PolicyFails b (target s b) (s.part (target s b)) k)
      (fun s => nakOf m (0x20 + k) m.cont (named (counted m s))) ]

/-- A message whose page of CONT is walked through a unit under scrub waits, and is not yet counted (R16, R163). -/
def stallRules (m : Am) : List EventRule :=
  let full (s : State) : Nat := (s.launches.filter (fun y => y.2.part = (s.vf (vfOfAm m)).part.toNat && y.2.live)).length
  let waits (i : Am → Instr) (pre : State → Prop) : EventRule :=
    becomes (i m) (fun s => Passes m s ∧ m.vf ≠ 511 ∧ s.askStops (contAsk m) = true ∧ pre s) (fun s => { s with stalled := m :: s.stalled })
  [ waits .signal (fun _ => True), waits .policy (fun _ => m.operand = 0),
    waits .launch (fun s => m.operand.toNat < 32 ∧ m.operand.getLsbD 3 = false ∧ full s < 256),
    waits .cancel (fun _ => m.operand.toNat < 2), waits .preempt (fun _ => m.operand.toNat < 2), waits .resume (fun _ => m.operand = 0) ]

/-! ## Messages that name a launch -/

/-- The launch that a message names, its walk done. -/
def Names (m : Am) (s : State) (l : Nat) (x : Launch) : Prop :=
  Passes m s ∧ m.vf ≠ 511 ∧ Unstopped s [contAsk m] ∧ m.cont.toNat % 64 = 0 ∧ (counted m s).contOk m = true ∧ s.namedLaunch m = some (l, x) ∧
  s.launches.find l = some x ∧ x.walked = true

/-- The launch that LAUNCH records. -/
def launched (m : Am) (s : State) : Launch where
  vf := vfOfAm m
  part := (s.vf (vfOfAm m)).part.toNat
  root := m.cont.toNat
  override := if m.operand.getLsbD 3 then some (m.operand.toNat % 8) else none
  urgentOk := (s.vf (vfOfAm m)).urgentOk
  autorelease := m.operand.getLsbD 4
  seq := s.nextId
  since := s.now
  order := s.readyN
  walked := false
  stopped := false
  tasks := []

/-- A partition's next binding decision is due (R71). -/
def due (p : Nat) (s : State) : State := s.modPart p (fun y => { y with decide_ := true })

/-- A task after CANCEL: no run of it is due, and one without a final status takes its unissued indices as failed and gets no more
batons (R34). -/
def Task.afterCancel (t : Task) : Task :=
  if t.final then { t with cancelled := true, runs := 0 }
  else
    { t with
      failedN := t.failedN + (t.gw.ttCount - t.nextIdx), nextIdx := t.gw.ttCount,
      firstFailed := if t.nextIdx < t.gw.ttCount then min t.firstFailed t.nextIdx else t.firstFailed,
      dirty := t.dirty || decide (t.nextIdx < t.gw.ttCount),
      cancelled := true, stopped := true, ready := false, reserved := [], runs := 0,
      reason := if t.gw.ttCount = 0 then 4 else t.reason }

/-- A launch after CANCEL, and after PREEMPT: no task of it holds a reservation, and PREEMPT stops it until RESUME (R34, R72). -/
def Launch.afterCancel (x : Launch) : Launch := { x with tasks := x.tasks.map Task.afterCancel }
def Launch.afterPreempt (x : Launch) : Launch :=
  { x with stopped := true, tasks := x.tasks.map (fun t => { t with reserved := [] }) }

/-- Nothing that LAUNCH reads stands under a scrub or is still to come: the page of CONT, the graph word, the pages of its object. -/
def LaunchReads (m : Am) (s : State) : Prop :=
  Unstopped s [contAsk m, graphReach m] ∧ ∀ b, (counted m s).graphBytes (vfOfAm m) m.cont.toNat = some b →
    s.askStops { v := vfOfAm m, va := (graphWordOf b).completionVa, n := 128, read := false } = false

/-- LAUNCH, RESUME of a stopped launch, and PREEMPT and CANCEL of one that no instance runs for (R33, R34, R65). -/
def launchRules (m : Am) (l : Nat) (x : Launch) : List EventRule :=
  [ becomes (.launch m)
      (fun s => Passes m s ∧ m.vf ≠ 511 ∧ m.operand.toNat < 32 ∧
        ((s.vf (vfOfAm m)).urgentOk = true ∨ m.operand.getLsbD 3 = false ∨ m.operand.toNat % 8 ≠ 7) ∧
        (s.launches.filter (fun y => y.2.part = (s.vf (vfOfAm m)).part.toNat && y.2.live)).length < 256 ∧
        m.cont.toNat % 64 = 0 ∧ (counted m s).contOk m = true ∧ LaunchReads m s ∧
        ∃ b, (counted m s).graphBytes (vfOfAm m) m.cont.toNat = some b ∧ graphWordOk b = true ∧ (graphWordOf b).predN = 0 ∧
          (counted m s).objectOk (vfOfAm m) (graphWordOf b) = true)
      (fun s =>
        let u := ((counted m s).accept m).dropWalks (vfOfAm m)
        { u with nextId := u.nextId + 1, launches := u.launches.put u.nextId (launched m u), readyN := u.readyN + 1 }),
    becomes (.resume m) (fun s => Names m s l x ∧ m.operand = 0 ∧ x.stopped = true)
      (fun s => due x.part (((counted m s).accept m).modLaunch l (fun y =>
        { y with stopped := false, tasks := y.tasks.map (fun t => { t with levelSince := s.now }) }))),
    becomes (.preempt m) (fun s => Names m s l x ∧ m.operand.toNat < 2 ∧ ∀ y ∈ s.insts, y.2.launch ≠ l)
      (fun s => due x.part (((counted m s).accept m).modLaunch l Launch.afterPreempt)),
    becomes (.cancel m) (fun s => Names m s l x ∧ m.operand.toNat < 2 ∧ x.lastTdone = false ∧ (∀ y ∈ s.insts, y.2.launch ≠ l) ∧
        ∀ t ∈ x.tasks, t.pre = [] ∧ t.gw.replicate = false ∧ t.nextIdx ≤ t.gw.ttCount)
      (fun s => due x.part (((counted m s).accept m).modLaunch l Launch.afterCancel)) ]

/-- The one instance of the launch runs, no stop or pre-emption of it is under way, and it has no lease. -/
def RunsAlone (s : State) (l i : Nat) (y : Inst) : Prop :=
  s.insts.filter (fun a => a.2.launch = l) = [(i, y)] ∧ s.insts.find i = some y ∧ y.phase = .run ∧ y.stop = .none ∧
  y.faulted = false ∧ y.waiting = none ∧ y.finInjected = false ∧ y.boundary = false ∧ y.held ≠ [] ∧
  ∀ k : Nat, ∀ z, nth (s.cluster y.cluster).slots k none = some z → z.inst ≠ i

/-- PREEMPT and CANCEL of a launch whose one instance runs: with CUT the hold wave starts in it; without, it gets no more batons and
its issued tile-tasks run on; the operator's scheduler event tells the pre-emption (R34, R49, R88 to R91). -/
def cutRules (m : Am) (l : Nat) (x : Launch) (i : Nat) (y : Inst) : List EventRule :=
  let marked (s : State) (discard : Bool) : State :=
    if m.operand = 1 then s.modInst i (fun b => { b with stop := .cut discard false, waveLeft := y.elems, boundary := false })
    else s.modInst i (fun b => { b with boundary := true })
  let taskId (s : State) : Nat := ((s.task? y.launch y.task).map (fun a => a.gw.taskId)).getD 0xFFFF
  let stopped (s t : State) : Prop := ∃ u, Recorded y.part 16 2
    [.taskId (taskId s), .gen y.gen, .plain y.num, .tile (tileAt y.cluster y.row0 y.col0)] s u ∧ t = due x.part u
  [ ⟨.preempt m, fun s => Names m s l x ∧ m.operand.toNat < 2 ∧ RunsAlone s l i y,
      fun s t => stopped (marked (((counted m s).accept m).modLaunch l Launch.afterPreempt) false) t⟩,
    ⟨.cancel m, fun s => Names m s l x ∧ m.operand.toNat < 2 ∧ x.lastTdone = false ∧ RunsAlone s l i y ∧
        ∀ t ∈ x.tasks, t.pre = [] ∧ t.gw.replicate = false ∧ t.nextIdx ≤ t.gw.ttCount,
      fun s t => stopped (marked (((counted m s).accept m).modLaunch l Launch.afterCancel) true) t⟩ ]

/-- The refusals of LAUNCH, CANCEL, PREEMPT and RESUME (R32, R33, R34, R65). -/
def launchRefusals (m : Am) (l : Nat) (x : Launch) : List EventRule :=
  let ok (s : State) : Prop := Passes m s ∧ m.sender = .host ∧ m.vf ≠ 511
  let nak (i : Am → Instr) (reason : Nat) (pre : State → Prop) : EventRule :=
    becomes (i m) (fun s => ok s ∧ pre s) (fun s => nakOf m reason m.cont (counted m s))
  let placed (s : State) : Prop := m.cont.toNat % 64 = 0 ∧ (counted m s).contOk m = true
  let full (s : State) : Nat := (s.launches.filter (fun y => y.2.part = (s.vf (vfOfAm m)).part.toNat && y.2.live)).length
  [ nak .launch 0x0D (fun _ => 32 ≤ m.operand.toNat),
    nak .launch 0x08 (fun s => m.operand.toNat < 32 ∧ m.operand.getLsbD 3 = true ∧ m.operand.toNat % 8 = 7 ∧
      (s.vf (vfOfAm m)).urgentOk = false),
    nak .launch 0x06 (fun s => m.operand.toNat < 32 ∧ m.operand.getLsbD 3 = false ∧ 256 ≤ full s),
    nak .launch 0x05 (fun s => m.operand.toNat < 32 ∧ m.operand.getLsbD 3 = false ∧ full s < 256 ∧ LaunchReads m s ∧ ¬placed s),
    nak .resume 0x0D (fun _ => m.operand ≠ 0),
    nak .resume 0x05 (fun s => m.operand = 0 ∧ Unstopped s [contAsk m] ∧ ¬placed s),
    nak .resume 0x07 (fun s => m.operand = 0 ∧ Unstopped s [contAsk m] ∧ placed s ∧ s.namedLaunch m = none),
    nak .resume 0x07 (fun s => m.operand = 0 ∧ Names m s l x ∧ x.stopped = false) ] ++
  [Instr.cancel, Instr.preempt].flatMap (fun i =>
    [ nak i 0x0D (fun _ => 2 ≤ m.operand.toNat),
      nak i 0x05 (fun s => m.operand.toNat < 2 ∧ Unstopped s [contAsk m] ∧ ¬placed s),
      nak i 0x07 (fun s => m.operand.toNat < 2 ∧ Unstopped s [contAsk m] ∧ placed s ∧ s.namedLaunch m = none) ]) ++
  [ nak .cancel 0x07 (fun s => m.operand.toNat < 2 ∧ Names m s l x ∧ x.lastTdone = true) ]

/-! ## The debugger's messages -/

/-- The bound element that DBGHOLD names (R230). -/
def Debugs (m : Am) (s : State) (i : Nat) (x : Inst) : Prop :=
  Passes m s ∧ m.vf = 511 ∧ m.operand.toNat < 2 ^ 17 ∧ (s.elem (m.operand.toNat % 65536)).inst = some i ∧
  s.insts.find i = some x ∧ x.phase = .run

/-- DBGHOLD, its single step, its release, and DBGREAD (R230 to R232). -/
def debugRules (m : Am) (i : Nat) (x : Inst) : List EventRule :=
  let eid := m.operand.toNat % 65536
  [ becomes (.dbghold m) (fun s => Debugs m s i x ∧ m.sender = .host ∧ x.stop = .none)
      (fun s => (counted m s).modInst i (fun y => { y with stop := .hold eid false, waveLeft := y.elems, holdDone := false })),
    ⟨.dbghold m, fun s => Debugs m s i x ∧ m.sender = .host ∧ (∃ e b, x.stop = .hold e b) ∧ x.holdDone = true ∧
        (s.elem eid).state = .held ∧ (s.elem eid).before = .run ∧ ∀ q < 4, ∀ t, (s.elem eid).head? q = some t → t.tag ≠ 0xF,
      fun s t =>
        let r := (counted m s).selectOne eid
        t = { r.1 with stepWaits := r.1.stepWaits ++ [⟨eid, r.2.getD 0x1F, s.nextId, r.1.nextId, i⟩] }⟩,
    becomes (.dbghold m) (fun s => Debugs m s i x ∧ m.sender = .host ∧ (∃ e b, x.stop = .hold e b) ∧ x.holdDone = true ∧
        (s.elem eid).state = .faulted)
      (fun s => { counted m s with stepWaits := s.stepWaits ++ [⟨eid, 0x1F, s.nextId, s.nextId, i⟩] }),
    becomes (.dbghold m) (fun s => Debugs m s i x ∧ m.sender = .host ∧ (∃ e b, x.stop = .hold e b) ∧ x.holdDone = false)
      (fun s => nakOf m 0x0A m.cont (counted m s)),
    ⟨.dbgholdRelease m, fun s => Debugs m s i x ∧ m.sender = .host ∧ (∃ e b, x.stop = .hold e b) ∧ x.faulted = false ∧
        x.waiting = none ∧ x.held ≠ [] ∧ s.instsOf x.launch x.task = [(i, x)],
      fun s t => t.insts.find i = some { x with stop := .none, holdDone := false, waveLeft := [] } ∧
        (∀ e, t.elem e = if e ∈ x.elems ∧ ((s.elem e).state = .held ∨ (s.elem e).state = .cut) then
          { s.elem e with state := (s.elem e).before } else s.elem e) ∧
        t = { s with insts := t.insts, elems := t.elems, vfs := t.vfs } ∧ (∀ j, j ≠ i → t.insts.find j = s.insts.find j) ∧
        (∀ v, v ≠ 511 → t.vf v = s.vf v) ∧
        (t.vf 511).out = (s.vf 511).out ++ [⟨0x80, (s.vf 511).outSeq, 0, 0, none⟩]⟩,
    ⟨.dbgread m, fun s => Passes m s ∧ m.vf = 511 ∧ m.sender = .host ∧ m.operand.toNat < 2 ^ 24 ∧ tileOk (tileOf eid) = true ∧
        (counted m s).contOk m = true ∧ s.partOfCluster (clusterOf (tileOf eid)) = none ∧
        (6 ≤ bitsOf m.operand.toNat 16 8 ∨ (s.elem eid).state = .held ∨ (s.elem eid).state = .faulted) ∧
        ∃ l, (counted m s).debugItem eid (bitsOf m.operand.toNat 16 8) = some l ∧
          ((counted m s).writeFor 511 m.cont.toNat (l.flatMap (fun y => leBytes y.1 y.2.full))).isSome = true,
      fun s t => ∀ l u, (counted m s).debugItem eid (bitsOf m.operand.toNat 16 8) = some l →
        (counted m s).writeFor 511 m.cont.toNat (l.flatMap (fun y => leBytes y.1 y.2.full)) = some u → saidAfter u 511 m.cont t⟩ ]

/-- The refusals of DBGHOLD, its release and DBGREAD: reserved bits, a tile or an item that is none; an element of no bound instance;
one whose region a relay or commit covers, or whose instance is being cut; a result page that cannot be read; and an element that is
neither held nor faulted (R230, R231). -/
def debugRefusals (m : Am) (i : Nat) (x : Inst) : List EventRule :=
  let eid := m.operand.toNat % 65536
  let item := bitsOf m.operand.toNat 16 8
  let ok (s : State) : Prop := Passes m s ∧ m.vf = 511 ∧ m.sender = .host
  let nak (j : Am → Instr) (reason : Nat) (pre : State → Prop) : EventRule :=
    becomes (j m) (fun s => ok s ∧ pre s) (fun s => nakOf m reason m.cont (counted m s))
  let here (p : Phase) : Prop := p = .relay ∨ p = .staged ∨ p = .commit
  let itemOk : Prop := item < 6 ∧ (item = 3 → elemType eid ≠ .me) ∧ (item = 5 → elemType eid = .pe) ∨ (0x10 ≤ item ∧ item ≤ 0x17)
  [Instr.dbghold, Instr.dbgholdRelease].flatMap (fun j =>
    [ nak j 0x0D (fun _ => 2 ^ 17 ≤ m.operand.toNat),
      nak j 0x07 (fun s => m.operand.toNat < 2 ^ 17 ∧ (s.elem eid).inst = none ∧
        ∀ y ∈ s.insts, y.2.hasTile (tileOf eid) = true → ¬here y.2.phase),
      nak j 0x0A (fun s => m.operand.toNat < 2 ^ 17 ∧ (s.elem eid).inst = none ∧
        ∃ y ∈ s.insts, y.2.hasTile (tileOf eid) = true ∧ here y.2.phase),
      nak j 0x0A (fun s => m.operand.toNat < 2 ^ 17 ∧ (s.elem eid).inst = some i ∧ s.insts.find i = some x ∧
        (x.phase = .saving ∨ ∃ d l, x.stop = .cut d l)) ]) ++
  [ nak .dbgread 0x0D (fun _ => 2 ^ 24 ≤ m.operand.toNat ∨ tileOk (tileOf eid) = false ∨ ¬itemOk),
    nak .dbgread 0x05 (fun s => m.operand.toNat < 2 ^ 24 ∧ tileOk (tileOf eid) = true ∧ itemOk ∧ (counted m s).contOk m = false),
    nak .dbgread 0x0A (fun s => m.operand.toNat < 2 ^ 24 ∧ tileOk (tileOf eid) = true ∧ itemOk ∧ (counted m s).contOk m = true ∧
      item < 6 ∧ (s.elem eid).state ≠ .held ∧ (s.elem eid).state ≠ .faulted) ]

/-- The policy that a read of an element passes: that of its region, or the active one of its partition (R50, R59). -/
def policyAt (s : State) (eid p : Nat) : List Byte := ((s.instOf eid).map (fun x => x.policy)).getD (s.part p).active

/-- DBGREAD of an element of a partition goes through the filter by the class of its item: the operator reads zeros at level 0, and else
each field as its function leaves it; an answer that the cap withholds is not written; COMPLETE comes (R49, R50, R53 to R55). -/
def filterRules (m : Am) (p : Nat) : List EventRule :=
  let eid := m.operand.toNat % 65536
  let item := bitsOf m.operand.toNat 16 8
  let cls : Nat := if item < 6 then 12 else item - 0x10
  let reads (s : State) : Prop := Passes m s ∧ m.vf = 511 ∧ m.sender = .host ∧ m.operand.toNat < 2 ^ 24 ∧ tileOk (tileOf eid) = true ∧
    (counted m s).contOk m = true ∧ (6 ≤ item ∨ (s.elem eid).state = .held ∨ (s.elem eid).state = .faulted) ∧
    s.partOfCluster (clusterOf (tileOf eid)) = some p
  let level (s : State) : Nat := levelOf (policyAt s eid p) cls
  let written (s : State) (u : State) (f : Item → Nat) (t : State) : Prop := ∀ l v, (counted m s).debugItem eid item = some l →
    u.writeFor 511 m.cont.toNat (l.flatMap (fun y => leBytes y.1 (f y.2))) = some v → saidAfter v 511 m.cont t
  let fits (s : State) (u : State) (f : Item → Nat) : Prop := ∃ l, (counted m s).debugItem eid item = some l ∧
    (u.writeFor 511 m.cont.toNat (l.flatMap (fun y => leBytes y.1 (f y.2)))).isSome = true
  [ ⟨.dbgread m, fun s => reads s ∧ level s = 0 ∧ fits s (counted m s) (fun _ => 0), fun s t => written s (counted m s) (fun _ => 0) t⟩,
    ⟨.dbgread m, fun s => reads s ∧ level s ≠ 0 ∧ HasRoom s p (policyAt s eid p) cls ∧
        fits s (passedOne p cls (counted m s)) (viewed (policyAt s eid p) cls),
      fun s t => written s (passedOne p cls (counted m s)) (viewed (policyAt s eid p) cls) t⟩,
    ⟨.dbgread m, fun s => reads s ∧ level s ≠ 0 ∧ ¬HasRoom s p (policyAt s eid p) cls ∧
        ((counted m s).debugItem eid item).isSome = true,
      fun s t => saidAfter (droppedOne p cls (counted m s)) 511 m.cont t⟩ ]

/-! ## Messages refused -/

/-- Every active message as its instruction. -/
def messageInstrs : List (Am → Instr) :=
  [.launch, .cancel, .preempt, .resume, .signal, .order, .policy, .maproot, .fwloadOpen, .fwloadClose, .dbgread, .dbghold,
   .dbgholdRelease, .userAm, .amUndefined]

/-- Those that only VF 511 may send, and those that it may not (R25, R32). -/
def adminInstrs : List (Am → Instr) := [.maproot, .fwloadOpen, .fwloadClose, .dbgread, .dbghold, .dbgholdRelease]
def tenantInstrs : List (Am → Instr) := [.launch, .cancel, .preempt, .resume, .signal, .userAm]

/-- The messages of FWLOAD. -/
def firmwareInstrs : List (Am → Instr) := [.fwloadOpen, .fwloadClose]

/-- What a host message of a VF that is off, of a wrong SEQ, before the firmware runs, or without the right answers (R30, R41, R44);
MAPROOT of a VF that is none or is 511, of an address that is none, and of a VF with a bound task (R35); a user message to an entry
that is off, serves no bound instance or is full (R36); and reserved bits of ORDER (R32). -/
def refusedRules (m : Am) : List EventRule :=
  (messageInstrs.map (fun i => becomes (i m) (fun s => m.sender = .host ∧ (s.vf m.vf.toNat).en = false) (nakOf m 0x03 m.cont))) ++
  (messageInstrs.map (fun i => becomes (i m)
    (fun s => m.sender = .host ∧ (s.vf m.vf.toNat).en = true ∧ m.seq ≠ (s.vf m.vf.toNat).expSeq)
    (fun s => nakOf m 0x02 (BitVec.ofNat 64 (s.vf m.vf.toNat).expSeq.toNat) s))) ++
  (adminInstrs.map (fun i => becomes (i m) (fun s => Passes m s ∧ m.sender = .host ∧ m.vf ≠ 511)
    (fun s => nakOf m 0x04 m.cont (counted m s)))) ++
  (tenantInstrs.map (fun i => becomes (i m) (fun s => Passes m s ∧ m.sender = .host ∧ m.vf = 511)
    (fun s => nakOf m 0x04 m.cont (counted m s)))) ++
  (messageInstrs.map (fun i => becomes (i m)
    (fun s => Sent m s ∧ m.sender = .host ∧ s.running = false ∧ (m.vf ≠ 511 ∨ ∀ j ∈ firmwareInstrs, i m ≠ j m))
    (fun s => nakOf m 0x0B m.cont (counted m s)))) ++
  (let mapOk : Prop := m.operand.toNat < 511 ∧ m.cont.toNat % 1024 = 0 ∧ m.cont.toNat < 2 ^ 42
   let part (s : State) : Nat := (s.vf (vfOfAm m)).part.toNat
   let entry (s : State) : Handler := nth (s.part (part s)).handlers (m.amop.toNat % 16) { }
   let serves (s : State) : Prop := (entry s).hen = true ∧ (s.served? (part s) (entry s).task.toNat).isSome = true
   let nak (i : Instr) (reason : Nat) (pre : State → Prop) : EventRule :=
     becomes i (fun s => Passes m s ∧ m.sender = .host ∧ pre s) (fun s => nakOf m reason m.cont (counted m s))
   [ nak (.maproot m) 0x0D (fun _ => m.vf = 511 ∧ ¬mapOk),
     nak (.maproot m) 0x0A (fun s => m.vf = 511 ∧ mapOk ∧ ∃ x ∈ s.insts, x.2.vf = m.operand.toNat),
     nak (.order m) 0x0D (fun _ => m.operand ≠ 0),
     nak (.userAm m) 0x09 (fun s => m.vf ≠ 511 ∧ ¬serves s),
     nak (.userAm m) 0x0A (fun s => m.vf ≠ 511 ∧ serves s ∧ 16 ≤ (entry s).queue.length) ])

/-! ## Boot and firmware -/

/-- POWER_UP, FWLOAD, FIRMWARE_START and LEWEN_TRAIN (R21, R44, R45). -/
def bootRules (m : Am) (pkg : BitVec 8) (bad : List Nat) (allLanes : Bool) : List EventRule :=
  [ becomes .powerUp (fun s => s.boot = .powerUp)
      (fun s => { s with boot := if s.flash.verifies = true then .starting else .receiver none }),
    becomes (.fwloadOpen m)
      (fun s => Sent m s ∧ m.vf = 511 ∧ m.sender = .host ∧ m.operand ≠ 0 ∧ m.operand.toNat ≤ 16777216 ∧
        ((∃ o, s.boot = .receiver o) ∨ ((∃ o, s.boot = .running o) ∧ s.insts = [])))
      (fun s => { counted m s with
        window := [],
        boot := if s.running = true then .running (some m.operand.toNat) else .receiver (some m.operand.toNat) }),
    ⟨.fwloadClose m,
      fun s => Sent m s ∧ m.vf = 511 ∧ m.sender = .host ∧ m.operand = 0 ∧
        ∃ n, (s.boot = .receiver (some n) ∨ (s.boot = .running (some n) ∧ s.insts = [])) ∧ Config.firmwarePasses (bytesAt s.window 0 n) = true,
      fun s t => ∀ n, (s.boot = .receiver (some n) ∨ s.boot = .running (some n)) →
        let v := Config.firmwareVersion (bytesAt s.window 0 n)
        t = { counted m s with
          flash := { verifies := true, version := v, hash := BitVec.ofNat 256 (leNat (sha256 (bytesAt s.window 0 n))) },
          boot := .starting }.sendAm 511 0x80 v 0 none⟩,
    ⟨.fwloadClose m,
      fun s => Sent m s ∧ m.vf = 511 ∧ m.sender = .host ∧ m.operand = 0 ∧
        ∃ n, s.boot = .receiver (some n) ∧ Config.firmwarePasses (bytesAt s.window 0 n) = false,
      fun s t => t = nakOf m 0x0C m.cont { counted m s with boot := .receiver none }⟩,
    ⟨.firmwareStart pkg bad, fun s => s.boot = .starting ∧ s.clusters.length = 16,
      fun s t => t.boot = .running none ∧ t.firmware = (s.flash.version, s.flash.hash) ∧ t.pkgId = pkg ∧ t.startTime = s.now ∧
        t.now = s.now ∧ t.launches = [] ∧ t.insts = [] ∧ t.contexts = [] ∧ t.elems = [] ∧ t.accs = [] ∧ t.ops = [] ∧ t.track = [] ∧
        t.ctrlQ = [] ∧ t.recSeq = [] ∧ t.hbm = s.hbm ∧ t.hbmPoison = s.hbmPoison ∧ t.units = s.units ∧
        (∀ v, (t.vf v).en = (s.vf v).en ∧ (t.vf v).part = (s.vf v).part ∧ (t.vf v).root = (s.vf v).root ∧
          (t.vf v).expSeq = (s.vf v).expSeq) ∧
        ∀ g < 16, (t.cluster g).part = (s.cluster g).part ∧
          (t.cluster g).baseop = (s.cluster g).baseop ∧ (t.cluster g).opnow = (s.cluster g).baseop.toNat ∧ (t.cluster g).heat = 0 ∧
          ∀ k ∈ clusterTiles g,
            (t.cluster g).retired.getLsbD (tileBit k) = ((s.cluster g).retired.getLsbD (tileBit k) || bad.contains k) ∧
            (t.tile k).gate = if (s.cluster g).retired.getLsbD (tileBit k) || bad.contains k ||
              (s.cluster g).greq.getLsbD (tileBit k) then .gated else .powered⟩,
    becomes (.lewenTrain allLanes) (fun _ => True) (fun s => { s with lewenLanes := if allLanes then 8 else 4 }) ]

/-! ## Host and other packages -/

/-- Whether every granule of an access lies in HBM that the VF may reach, and no scrub holds it (R28, R163). -/
def Reaches (s : State) (v va n : Nat) (k : AccessWant) : Prop :=
  ∀ g ∈ granulesOf va n, s.hostWaits v g.1 k = false ∧ (homePa s v g.1 k).isSome = true

/-- The bytes that a VF reads, granule by granule, and whether a word of them is marked (R28, R171). -/
def readsAs (s : State) (v va n : Nat) : List Byte × Bool :=
  let parts := (granulesOf va n).map (fun g => s.readHbm ((homePa s v g.1 .load).getD 0) g.2)
  (parts.flatMap (·.1), parts.any (·.2))

/-- The state after a VF's write, granule by granule. -/
def wroteFor (s : State) (v va : Nat) (bs : List Byte) : State :=
  (granulesOf va bs.length).foldl
    (fun t g => t.writeHbm (spreadBytes ((homePa s v g.1 .store).getD 0) ((bs.drop (g.1 - va)).take g.2))) s

/-- No access of the link belongs to an access of the host. -/
def Unasked (s : State) (i : Instr) : Prop := ∀ r ∈ s.links, r.owner ≠ .host i

/-- The one granule of an access of a VF lies in another package, and no scrub holds its tables. -/
def LiesAway (s : State) (v va n : Nat) (k : AccessWant) (pkg pa : Nat) : Prop :=
  granulesOf va n = [(va, n)] ∧ s.hostWaits v va k = false ∧ ∃ ptag port, s.hostHome v va k = some (.remote pkg ptag pa port)

/-- The granule of an access of the host in another package: it is asked for over its port; until the answer comes the access waits;
then it has the bytes or has written them, or where it was refused or lost with its port the host hears an error (R15, R16, R28). -/
def awayRules (i : Instr) (v va n : Nat) (k : AccessWant) (write : Bool) (got : Nat → HostAnswer) (pkg pa : Nat) (r : LinkReq) :
    List EventRule :=
  let away (s : State) : Prop := LiesAway s v va n k pkg pa
  let mine (s : State) : Prop := away s ∧ s.links.filter (fun x => x.owner = .host i) = [r] ∧ r.pkg = pkg ∧ r.pa = pa
  [ ⟨i, fun s => away s ∧ Unasked s i ∧ ∃ p, s.aqricPort pkg (pa / 64) = .port p,
      fun s t => ∀ p, s.aqricPort pkg (pa / 64) = .port p → t = { s with
        nextId := s.nextId + 1, links := s.links ++ [⟨s.nextId, .host i, pkg, pa, n, write, some p, none⟩], held := s.held ++ [i] }⟩,
    becomes i (fun s => away s ∧ Unasked s i ∧ s.aqric.all (fun q => !q.up) = true)
      (fun s => { s with nextId := s.nextId + 1, hostLog := s.hostLog ++ [.error v va] }),
    becomes i (fun s => mine s ∧ r.answer = none) (fun s => { s with held := s.held ++ [i] }),
    ⟨i, fun s => mine s ∧ ∃ x, r.answer = some (.done x), fun s t => ∀ x, r.answer = some (.done x) →
        t = { s with links := s.links.filter (fun y => y.owner ≠ .host i), hostLog := s.hostLog ++ [got x] }⟩,
    becomes i (fun s => mine s ∧ (r.answer = some .refused ∨ r.answer = some .failed))
      (fun s => { s with links := s.links.filter (fun y => y.owner ≠ .host i), hostLog := s.hostLog ++ [.error v va] }) ]

/-- HOST_READ and HOST_WRITE in HBM; where a granule may not be reached, no byte changes; where a scrub holds one, the access waits
(R28, R163). -/
def hostRules (vf : BitVec 9) (va : DWord) (len : Nat) (bytes : List Byte) : List EventRule :=
  let v := vf.toNat
  let a := va.toNat
  [ becomes (.hostRead vf va len) (fun s => Reaches s v a len .load ∧ Unasked s (.hostRead vf va len))
      (fun s => { s with hostLog := s.hostLog ++ [.data v a (readsAs s v a len).1 (readsAs s v a len).2] }),
    becomes (.hostRead vf va len)
      (fun s => (∀ g ∈ granulesOf a len, s.hostWaits v g.1 .load = false) ∧ ∃ g ∈ granulesOf a len, s.hostHome v g.1 .load = none)
      (fun s => { s with hostLog := s.hostLog ++ [.error v a] }),
    becomes (.hostWrite vf va bytes) (fun s => Reaches s v a bytes.length .store ∧ Unasked s (.hostWrite vf va bytes))
      (fun s => { wroteFor s v a bytes with hostLog := s.hostLog ++ [.done v a] }),
    becomes (.hostWrite vf va bytes)
      (fun s => (∀ g ∈ granulesOf a bytes.length, s.hostWaits v g.1 .store = false) ∧
        ∃ g ∈ granulesOf a bytes.length, s.hostHome v g.1 .store = none)
      (fun s => { s with hostLog := s.hostLog ++ [.error v a] }),
    ⟨.hostWrite vf va bytes, fun s => ∀ g ∈ granulesOf a bytes.length, s.hostWaits v g.1 .store = false,
      fun s t => t.hostLog = s.hostLog ++ [.error v a] → t = { s with nextId := t.nextId, links := t.links, hostLog := t.hostLog }⟩,
    becomes (.hostRead vf va len) (fun s => ∃ g ∈ granulesOf a len, s.hostWaits v g.1 .load = true)
      (fun s => { s with held := s.held ++ [.hostRead vf va len] }),
    becomes (.hostWrite vf va bytes) (fun s => ∃ g ∈ granulesOf a bytes.length, s.hostWaits v g.1 .store = true)
      (fun s => { s with held := s.held ++ [.hostWrite vf va bytes] }) ]

/-- REMOTE_ACCESS_RX with the right tag, and with a wrong one; under a scrub it waits (R14, R162, R163). -/
def packageRules (pkg : BitVec 8) (ptag : BitVec 5) (pa : BitVec 44) (len : Nat) (bs : List Byte) (op : BitVec 4) (b new : Word) (kind : RemoteKind) :
    List EventRule :=
  let a := pa.toNat
  let owned (s : State) (n : Nat) : Prop :=
    a % 64 + n ≤ 64 ∧ s.scrubbing a = false ∧ a < 2 ^ 42 ∧ ptag.toNat ≤ 16 ∧ s.ownerOf a = ptag.toNat
  [ becomes (.remoteAccessRx ⟨pkg, ptag, pa, .load len⟩) (fun s => owned s len)
      (fun s => { s with remoteOut := s.remoteOut ++ [.data (s.readHbm a len).1 (s.readHbm a len).2] }),
    becomes (.remoteAccessRx ⟨pkg, ptag, pa, .store bs false⟩) (fun s => owned s bs.length)
      (fun s => { s.writeHbm (spreadBytes a bs) with remoteOut := s.remoteOut ++ [.done] }),
    becomes (.remoteAccessRx ⟨pkg, ptag, pa, .store bs true⟩) (fun s => owned s bs.length)
      (fun s => { s.poisonHbm ((spreadBytes a bs).map (·.1)) with remoteOut := s.remoteOut ++ [.done] }),
    becomes (.remoteAccessRx ⟨pkg, ptag, pa, .atomic op b⟩) (fun s => owned s 4 ∧ (s.readHbm a 4).2 = false)
      (fun s =>
        let old := wordOfBytes (s.readHbm a 4).1
        { s.writeHbm (spreadBytes a (leBytes 4 (atomicOp op old b).toNat)) with
          remoteOut := s.remoteOut ++ [.data (leBytes 4 old.toNat) false] }),
    becomes (.remoteAccessRx ⟨pkg, ptag, pa, .cas b new⟩) (fun s => owned s 4 ∧ (s.readHbm a 4).2 = false)
      (fun s =>
        let old := wordOfBytes (s.readHbm a 4).1
        { (if old = b then s.writeHbm (spreadBytes a (leBytes 4 new.toNat)) else s) with
          remoteOut := s.remoteOut ++ [.data (leBytes 4 old.toNat) false] }),
    becomes (.remoteAccessRx ⟨pkg, ptag, pa, kind⟩)
      (fun s => a % 64 + remoteSize kind ≤ 64 ∧ s.scrubbing a = false ∧ (2 ^ 42 ≤ a ∨ 16 < ptag.toNat ∨ s.ownerOf a ≠ ptag.toNat))
      (fun s => { s with remoteOut := s.remoteOut ++ [.refused 0x0C] }),
    becomes (.remoteAccessRx ⟨pkg, ptag, pa, kind⟩) (fun s => a % 64 + remoteSize kind ≤ 64 ∧ s.scrubbing a = true)
      (fun s => { s with held := s.held ++ [.remoteAccessRx ⟨pkg, ptag, pa, kind⟩] }) ]

/-- The token of a user message (R36). -/
def userToken (m : Am) : Token :=
  ⟨lanesOfList [m.amop.setWidth 32, m.vf.setWidth 32, m.seq.setWidth 32, m.operand, m.cont.setWidth 32, m.cont.extractLsb' 32 32], 0, none⟩

/-- USER_AM_DELIVERY, with an ORDER behind it answered, and DEVICE_AM_DELIVERY (R36, R42, R343). -/
def deliveryRules (p k : Nat) (v eid : Nat) (q : Fin 4) (y : Queued) (rest : List Queued) (w : Queued) (o : OutAm) (later : List OutAm) :
    List EventRule :=
  let m := y.am
  let entry (s : State) : Handler := nth (s.part p).handlers k { }
  let pop (s : State) : State := s.modPart p (fun x => { x with handlers := upd x.handlers k (fun h => { h with queue := rest }) })
  let into (s u : State) : State := u.modElem eid (fun e =>
    { e with iq := upd e.iq (entry s).port.toNat (fun l => l ++ [userToken m]) })
  let ready (s : State) : Prop :=
    (entry s).queue = y :: rest ∧ (∃ x, s.served? p (entry s).task.toNat = some x ∧ x.baton = some (eid, q) ∧
      x.phase = .run ∧ x.finInjected = false) ∧
    (s.elem eid).inRoom (entry s).port.toNat = true ∧ (s.elem eid).state = .run ∧ (s.tile (tileOf eid)).hopsStopped = false
  [ becomes (.userAmDelivery p k) (fun s => ready s ∧ (s.vf (vfOfAm m)).orders = []) (fun s => into s (pop s)),
    becomes (.userAmDelivery p k)
      (fun s => ready s ∧ (s.vf (vfOfAm m)).orders = [w] ∧ w.am.sender = .host ∧ (pop s).amWaits (vfOfAm m) w.name = false)
      (fun s => into s (((pop s).modVf (vfOfAm m) (fun x => { x with orders := [] })).sendAm (vfOfAm m) 0x80 0 w.am.cont none)),
    becomes (.userAmDelivery p k)
      (fun s => (entry s).queue = y :: rest ∧ m.sender = .host ∧ s.served? p (entry s).task.toNat = none ∧
        s.hasTask p (entry s).task.toNat = false ∧ (s.vf (vfOfAm m)).orders = [])
      (fun s => nakOf m 0x09 m.cont (pop s)),
    becomes (.deviceAmDelivery v) (fun s => (s.vf v).out = o :: later ∧ o.sender = none)
      (fun s => { s.modVf v (fun x => { x with out := later }) with
        handed := s.handed ++ [(v, o.amop ++ BitVec.ofNat 9 v ++ (if v = 511 then 0 else (s.vf v).part) ++ o.seq ++ o.operand ++ o.cont)] }),
    ⟨.deviceAmDelivery v, fun s => (s.vf v).out = o :: later ∧ ∃ n, o.sender = some (eid, some n),
      fun s t => (t.vf v).out = later ∧ t.handed.length = s.handed.length + 1 ∧ t.hbm = s.hbm ∧ ∀ n a, o.sender = some (eid, some n) →
        a ∈ (s.elem eid).ans → a.id = n → a.token = none →
        { a with token := some ⟨lanesOfList [0, BitVec.ofNat 32 o.seq.toNat], a.otag, none⟩ } ∈ (t.elem eid).ans⟩ ]

/-! ## Registers -/

/-- A write without the right: it is counted in the AM log of its VF, and the entry goes to the operator as of class 19; of VF 511,
which is in no partition, it goes as it is (R26, R27, R49, R51). -/
def discarded (who : BitVec 9) (s : State) : State :=
  let v := who.toNat
  let u : State := { s with amLog := s.amLog.put v ((s.amLog.find v).getD 0 + 1) }
  if who = 511 then { u with operLog := s.operLog ++ [⟨19, none, 0, s.now, [511], false⟩] }
  else u.operate (s.vf v).part.toNat 19 (s.part (s.vf v).part.toNat).active 0 [.plain v]

/-- What every register write of VF 511 does, and those of a VF of the partition (R26, R27, R45, R46, R96, R104, R105, R108,
R118, R119, R122, R163, R216). -/
def adminWrites (v g u p : Nat) (val : DWord) (byte : Byte) : List EventRule :=
  let bits (lo n : Nat) : Nat := bitsOf val.toNat lo n
  [ becomes (.vfTableWrite 511 v val) (fun s => ∀ x ∈ s.launches, x.2.vf = v → x.2.live = false)
      (fun s => s.modVf v (fun x => { x with
        en := val.getLsbD 63, urgentOk := val.getLsbD 62, part := BitVec.ofNat 4 (bits 58 4),
        expSeq := if val.getLsbD 63 = true ∧ x.en = false then 0 else x.expSeq,
        outSeq := if val.getLsbD 63 = true ∧ x.en = false then 0 else x.outSeq })),
    ⟨.vfClampWrite 511 v val, fun _ => True,
      fun s t => (t.vf v).maxop.toNat = max 3 (bits 24 3) ∧ (t.vf v).maxn.toNat = min 8 (bits 27 4) ∧
        (t.vf v).maxus.toNat = bits 0 24 ∧
        (t.vf v).satcnt.toNat = min 0xFFFF ((if val.getLsbD 47 then 0 else (s.vf v).satcnt.toNat) +
          (if bits 24 3 < 3 then 1 else 0) + (if 8 < bits 27 4 then 1 else 0)) ∧
        t = { s with vfs := t.vfs } ∧ ∀ n, n ≠ v → t.vf n = s.vf n⟩,
    becomes (.clusterControlWrite 511 g val) (fun _ => bits 32 16 < bits 16 16)
      (fun s => s.modCluster g (fun c =>
        { c with capw := BitVec.ofNat 16 (bits 48 16), rearm := BitVec.ofNat 16 (bits 32 16), ceiling := BitVec.ofNat 16 (bits 16 16),
                 autogate := val.getLsbD 5, hyst := val.getLsbD 3, baseop := BitVec.ofNat 2 (bits 0 2),
                 lim := if bits 48 16 = 0 then 0xFFFF else c.lim }.setPoint s.now)),
    becomes (.clusterControlWrite 511 g val) (fun _ => bits 16 16 ≤ bits 32 16) (discarded 511),
    becomes (.sprintRegisterWrite 511 val) (fun _ => True)
      (fun s => { (if 6000 < bits 0 16 then discarded 511 s else s) with sprintw := BitVec.ofNat 16 (min 6000 (bits 0 16)) }),
    becomes (.throttleWrite 511 g val) (fun _ => True)
      (fun s => s.modCluster g (fun c => { c with
        hotw := BitVec.ofNat 16 (bits 32 16), srdauto := val.getLsbD 4, srd := BitVec.ofNat 4 (bits 0 4) })),
    ⟨.gateRequestWrite 511 g val, fun s => g < 16 ∧ s.clusters.length = 16,
      fun s t => (t.cluster g).greq = val.setWidth 36 ∧ t.hbm = s.hbm ∧ t.elems = s.elems ∧ ∀ k ∈ clusterTiles g,
        (val.getLsbD (tileBit k) = true → (s.tile k).gate = .powered → s.tileIdle k = true → (t.tile k).gate = .closing) ∧
        (val.getLsbD (tileBit k) = false → (s.cluster g).greq.getLsbD (tileBit k) = true →
          (s.cluster g).retired.getLsbD (tileBit k) = false → (s.tile k).gate = .gated →
          (t.tile k).gate = .ungating (s.now + 20000)) ∧
        (t.tile k).sram = (s.tile k).sram⟩,
    ⟨.partitionLayoutWrite 511 g val, fun s => g < 16 ∧ s.clusters.length = 16 ∧ (bits 0 8 < 16 ∨ bits 0 8 = 0xFF) ∧ s.launches = [] ∧ s.insts = [],
      fun s t => (t.cluster g).part.toNat = bits 0 8 ∧ t.hbm = s.hbm ∧ t.insts = [] ∧ (∀ h < 16, h ≠ g → t.cluster h = s.cluster h) ∧
        ((s.cluster g).part.toNat ≠ bits 0 8 → (t.cluster g).old = none ∧ ∀ k ∈ clusterTiles g, (t.tile k).retained = none)⟩,
    ⟨.retirementWrite 511 g val, fun s => g < 16 ∧ s.clusters.length = 16 ∧ s.insts = [] ∧ s.elems = [],
      fun s t => ∀ k ∈ clusterTiles g,
        (t.cluster g).retired.getLsbD (tileBit k) = ((s.cluster g).retired.getLsbD (tileBit k) || val.getLsbD (tileBit k)) ∧
        ((s.cluster g).retired.getLsbD (tileBit k) = false → val.getLsbD (tileBit k) = true →
          (t.tile k).gate = if (s.tile k).gate = .gated then .gated else .closing)⟩,
    becomes (.ownershipWrite 511 u byte)
      (fun s => (byte.toNat % 32 ≤ 16 ∨ byte.toNat % 32 = 31) ∧ (s.unit u).scrub = false ∧
        (∀ x ∈ s.insts, x.2.part ≠ (s.unit u).owner.toNat ∧ x.2.part ≠ byte.toNat % 32 ∨ 16 ≤ x.2.part) ∧
        ∀ q < 16, byte.toNat % 32 ≠ q → (s.part q).poolHas u = false)
      (fun s => { s.modUnit u (fun x => ⟨BitVec.ofNat 5 byte.toNat, x.owner.toNat < 16 && x.owner ≠ BitVec.ofNat 5 byte.toNat⟩) with
        walkCache := [] }),
    becomes (.savePoolWrite 511 p val)
      (fun s => (∀ x ∈ s.insts, x.2.part ≠ p) ∧ (s.part p).poolRuns = [] ∧ (bits 0 32 = 0 ∨
        bits 36 28 + bits 0 32 ≤ 2 ^ 26 ∧ ∀ k ∈ poolUnits (bits 36 28) (bits 0 32), (s.unit k).owner.toNat = p))
      (fun s => s.modPart p (fun x => { x with poolBase := BitVec.ofNat 28 (bits 36 28), poolSize := BitVec.ofNat 32 (bits 0 32) })),
    becomes (.tkeyWrite 511 p u val) (fun s => (∀ x ∈ s.insts, x.2.part ≠ p) ∧ (s.part p).pendingPolicies = [])
      (fun s => s.modPart p (fun x => { x with tkey := setWord x.tkey u val, active := [] })) ]

/-- The writes that a VF of the partition may make, too (R36, R45, R216). -/
def tenantWrites (who : BitVec 9) (p k off : Nat) (trace : Bool) (val : DWord) : List EventRule :=
  let bits (lo n : Nat) : Nat := bitsOf val.toNat lo n
  let may (s : State) : Prop := who = 511 ∨ (s.vf who.toNat).part.toNat = p
  let put (s : State) (f : RecBuf → RecBuf) : State :=
    s.modPart p (fun x => if trace then { x with trace := f x.trace } else { x with fault := f x.fault })
  let bufOf (s : State) : RecBuf := if trace then (s.part p).trace else (s.part p).fault
  [ becomes (.recordBufferWrite who p trace 0 val)
      (fun s => may s ∧ bits 55 9 ≠ 511 ∧ (s.vf (bits 55 9)).part.toNat = p ∧ ∀ x ∈ s.insts, x.2.part ≠ p)
      (fun s => put s (fun b => { b with
        vf := BitVec.ofNat 9 (bits 55 9), va := BitVec.ofNat 43 (bits 6 43), nextOff := 0, dropped := 0 })),
    becomes (.recordBufferWrite who p trace 1 val) (fun s => may s ∧ ∀ x ∈ s.insts, x.2.part ≠ p)
      (fun s => put s (fun b => { b with size := BitVec.ofNat 24 (bits 0 24), nextOff := 0, dropped := 0 })),
    becomes (.recordBufferWrite who p trace 1 val)
      (fun s => may s ∧ (∃ x ∈ s.insts, x.2.part = p) ∧ val.getLsbD 39 = true ∧ bits 0 24 = (bufOf s).size.toNat)
      (fun s => put s (fun b => { b with nextOff := 0, dropped := 0 })),
    becomes (.attestationGo who p val) (fun s => may s ∧ val.getLsbD 0 = false) id,
    ⟨.attestationGo who p val,
      fun s => may s ∧ val.getLsbD 0 = true ∧ (s.part p).attDest.toNat % 64 = 0 ∧
        (s.writeFor who.toNat (s.part p).attDest.toNat (s.report1024 p)).isSome = true,
      fun s t => ∀ u, s.writeFor who.toNat (s.part p).attDest.toNat (s.report1024 p) = some u →
        saidAfter u who.toNat (s.part p).attDest t⟩,
    becomes (.registerWrite who off val) (fun s => may s ∧ mmioRegAt off = .handler p k)
      (fun s => s.modPart p (fun x => { x with handlers := upd x.handlers k (fun h => { h with
        hen := val.getLsbD 31, port := BitVec.ofNat 2 (bits 16 2), task := BitVec.ofNat 16 (bits 0 16) }) })),
    becomes (.registerWrite who off val) (fun s => may s ∧ mmioRegAt off = .nonce p k)
      (fun s => s.modPart p (fun x => { x with nonce := setWord x.nonce k val })),
    becomes (.registerWrite who off val) (fun s => may s ∧ mmioRegAt off = .dest p)
      (fun s => s.modPart p (fun x => { x with attDest := val })) ]

/-- The plain registers that only VF 511 writes (R44, R69, R86, R108). -/
def plainWrites (p g n off : Nat) (val : DWord) : List EventRule :=
  let bits (lo n : Nat) : Nat := bitsOf val.toNat lo n
  [ becomes (.registerWrite 511 off val) (fun s => mmioRegAt off = .sched p ∧ p < s.parts.length)
      (fun s => { s.modPart p (fun x => { x with minres := BitVec.ofNat 16 (bits 0 16) }) with
        insts := s.insts.map (fun x => (x.1,
          if x.2.part = p ∧ s.now < x.2.commitTime + bits 0 16 * 1000 then { x.2 with minresTaken := false } else x.2)) }),
    becomes (.registerWrite 511 off val) (fun _ => mmioRegAt off = .inject g)
      (fun s => s.modCluster g (fun c => { c with
        injEn := val.getLsbD 63, injDepth := BitVec.ofNat 16 (bits 16 16), injRefill := BitVec.ofNat 16 (bits 0 16) })),
    becomes (.registerWrite 511 off val) (fun s => mmioRegAt off = .window n ∧ s.windowOpen = true)
      (fun s => { s with window := putByte s.window n (BitVec.ofNat 8 (bits 0 8)) }),
    becomes (.registerWrite 511 off val) (fun s => mmioRegAt off = .window n ∧ s.windowOpen = false) (discarded 511),
    ⟨.registerWrite 511 off val, fun s => mmioRegAt off = .factors false ∧ s.factors.length = 8,
      fun s t => t = { s with factors := t.factors } ∧ t.factors.length = 8 ∧ ∀ i < 8, nth t.factors i 0 =
        if i < 3 then BitVec.ofNat 16 (bits (16 * i) 16) else nth s.factors i 0⟩,
    ⟨.registerWrite 511 off val, fun s => mmioRegAt off = .factors true ∧ s.factors.length = 8,
      fun s t => t = { s with factors := t.factors } ∧ t.factors.length = 8 ∧ ∀ i < 8, nth t.factors i 0 =
        if 4 ≤ i then BitVec.ofNat 16 (bits (16 * (i - 4)) 16) else nth s.factors i 0⟩ ]

/-- The register writes that only VF 511 may make. -/
def adminOnly (who : BitVec 9) (n p k : Nat) (val : DWord) (byte : Byte) : List Instr :=
  [.vfTableWrite who n val, .tkeyWrite who p k val, .savePoolWrite who p val, .partitionLayoutWrite who n val, .retirementWrite who n val,
   .clusterControlWrite who n val, .sprintRegisterWrite who val, .vfClampWrite who n val, .throttleWrite who n val,
   .gateRequestWrite who n val, .ownershipWrite who n byte]

/-- A register write without the right is discarded and counted (R26, R27). -/
def foreignWrites (who : BitVec 9) (n p k off : Nat) (trace : Bool) (word : Nat) (val : DWord) (byte : Byte) : List EventRule :=
  (adminOnly who n p k val byte).map (fun i => becomes i (fun _ => who ≠ 511) (discarded who)) ++
  [Instr.recordBufferWrite who p trace word val, .attestationGo who p val].map (fun i =>
    becomes i (fun s => who ≠ 511 ∧ (s.vf who.toNat).part.toNat ≠ p) (discarded who)) ++
  [ becomes (.registerWrite who off val)
      (fun s => who ≠ 511 ∧ (s.vf who.toNat).part.toNat ≠ p ∧
        (mmioRegAt off = .handler p k ∨ mmioRegAt off = .nonce p k ∨ mmioRegAt off = .dest p))
      (discarded who),
    becomes (.registerWrite who off val)
      (fun _ => who ≠ 511 ∧ (mmioRegAt off = .sched p ∨ mmioRegAt off = .inject n ∨ mmioRegAt off = .window n ∨
        ∃ hi, mmioRegAt off = .factors hi))
      (discarded who) ]

/-! ## The fabric -/

/-- A message at its turn has left the track (R140). -/
def Arrived (s t : State) (msg : Nat) : Prop := t.track = s.track.filter (fun m => m.id ≠ msg)

/-- An element takes a fault outside a firing: it is FAULTED and its instance holds one more record (R223). -/
def Faulted (s t : State) (eid i family code : Nat) (tokens : List TokEntry) : Prop :=
  (t.elem eid).state = .faulted ∧ ∀ x, s.insts.find i = some x → ∃ ev, t.insts.find i = some { x with faults := x.faults ++ [ev] } ∧
    ev.kind = 0 ∧ ev.src = eid ∧ ev.family = family ∧ ev.code = code ∧ ev.addr = 0 ∧ ev.tokens = tokens ∧ ev.time = s.now

/-- A queue of an element gets a token. -/
def putIn (eid q : Nat) (tok : Token) (s : State) : State :=
  s.modElem eid (fun e => { e with iq := upd e.iq q (fun l => l ++ [tok.arrive eid s.now]) })

/-- The far token that a message carries. -/
def farMsg (id src dst ch : Nat) (f : FarTok) : Msg := ⟨id, src, dst, .far ch f⟩

/-- TOKEN_TRANSFER: out of a route buffer, and into it (R134, R136, R139). -/
def transferRules (eid k : Nat) (r : BitVec 32) (tok : Token) (i : Nat) (d : Nat × Nat) : List EventRule :=
  let q := k / 4
  let tile := tileOf eid
  let moves (s : State) : Prop := (s.tile tile).hopsStopped = false ∧ (s.elem eid).route? k = some r ∧ k < 16
  let leaves (s : State) : Prop := moves s ∧ nth (s.elem eid).rb k none = some tok ∧ (s.elem eid).rbFresh.getLsbD k = false
  let left (s : State) : State := s.modElem eid (fun e => { e with
    rb := upd e.rb k (fun _ => none), rbHold := upd e.rbHold k (fun _ => (s.cluster (clusterOf tile)).srdNow) })
  let goal := localDest tile r
  [ becomes (.tokenTransfer eid k)
      (fun s => leaves s ∧ r.getLsbD 30 = false ∧ (s.elem goal.1).state = .run ∧ (s.elem goal.1).inRoom goal.2 = true)
      (fun s => putIn goal.1 goal.2 tok (left s)),
    ⟨.tokenTransfer eid k,
      fun s => leaves s ∧ r.getLsbD 30 = false ∧ (s.elem goal.1).state = .unoccupied ∧ goal.1 ≠ eid ∧ (s.elem eid).inst = some i ∧
        tok.tag ≠ 0xF ∧ tok.pacer = none ∧ (s.elem eid).rb.length = 16,
      fun s t => Faulted s t eid i 4 2 [⟨tok, 7, goal.2, goal.1, false⟩] ∧ nth (t.elem eid).rb k none = none ∧ (t.elem eid).iq = (s.elem eid).iq⟩,
    becomes (.tokenTransfer eid k)
      (fun s => leaves s ∧ r.getLsbD 30 = true ∧ s.farDest eid k = some d ∧ (s.elem eid).inst = some i ∧ s.egressLoad tile + 5 ≤ 36)
      (fun s => { (left s).modTile tile (fun t => { t with
        egressReq := t.egressReq ++ [farMsg s.nextId tile d.1 d.2 ⟨tok, eid, k, i⟩] }) with nextId := s.nextId + 1 }),
    becomes (.tokenTransfer eid k)
      (fun s => moves s ∧ nth (s.elem eid).rb k none = none ∧ nth (s.elem eid).rbHold k 0 = 0 ∧ (s.elem eid).taken.length = 4 ∧
        (nth (s.elem eid).oq q []).head? = some tok ∧ k % 4 ∉ s.served eid q tok ∧
        (r.getLsbD 30 = true → 0 < nth (s.elem eid).credits k 0 ∧ (s.elem eid).withdrawn.getLsbD k = false))
      (fun s => s.modElem eid (fun e =>
        let last := (e.bank.routesOf q).all (fun j => j = k % 4 || (s.served eid q tok).contains j)
        { e with
          rb := upd e.rb k (fun _ => some tok), rbFresh := e.rbFresh ||| BitVec.ofNat 16 (2 ^ k),
          credits := if r.getLsbD 30 then upd e.credits k (· - 1) else e.credits,
          taken := upd e.taken q (fun m => if last then 0 else m ||| BitVec.ofNat 4 (2 ^ (k % 4))),
          oq := if last then upd e.oq q (·.drop 1) else e.oq })) ]

/-- FAR_TOKEN_ARRIVAL, ENDPOINT_DELIVERY and CREDIT_RETURN (R84, R86, R94, R135 to R137). -/
def farRules (msg : Nat) (m : Msg) (ch tile eid k i : Nat) (f : FarTok) (rest : List FarTok) (d : Nat × Nat) : List EventRule :=
  let comes (s : State) : Prop := s.arriving msg = some m ∧ m.body = .far ch f
  let sender (s : State) : Prop := (s.elem f.eid).inst = some f.inst ∧ f.tok.tag ≠ 0xF ∧ f.tok.pacer = none
  [ ⟨.farTokenArrival msg, fun s => comes s ∧ s.endpointLive m.src m.dst ch = true ∧ (nth (s.tile m.dst).epBuf ch []).length < 8 ∧
        ch < (s.tile m.dst).epBuf.length,
      fun s t => Arrived s t msg ∧ (t.tile m.dst).epBuf = upd (s.tile m.dst).epBuf ch (· ++ [f]) ∧ t.elems = s.elems ∧ t.hbm = s.hbm ∧
        t.insts = s.insts ∧ ∀ n, n ≠ m.dst → t.tile n = s.tile n⟩,
    ⟨.farTokenArrival msg, fun s => comes s ∧ s.endpointLive m.src m.dst ch = true ∧ 8 ≤ (nth (s.tile m.dst).epBuf ch []).length ∧
        (s.elem f.eid).inst = some f.inst ∧ f.tok.pacer = none,
      fun s t => Arrived s t msg ∧ Faulted s t f.eid f.inst 4 cFARRUN [⟨f.tok, 7, ch, m.dst, true⟩] ∧
        (t.tile m.dst).epBuf = (s.tile m.dst).epBuf⟩,
    ⟨.farTokenArrival msg, fun s => comes s ∧ s.endpointLive m.src m.dst ch = false ∧ sender s,
      fun s t => Arrived s t msg ∧ Faulted s t f.eid f.inst 4 2 [⟨f.tok, 7, ch, m.dst, true⟩] ∧
        (t.tile m.dst).egressResp = (s.tile m.dst).egressResp ++ [⟨s.nextId, m.dst, tileOf f.eid, .credit f.eid f.entry f.inst⟩]⟩,
    becomes (.endpointDelivery tile ch)
      (fun s => endpointDest tile (nth (s.tile tile).endpoints ch 0) = some d ∧ nth (s.tile tile).epBuf ch [] = f :: rest ∧
        (s.tile tile).hopsStopped = false ∧ (s.tile tile).epFresh.getLsbD ch = false ∧ (s.elem d.1).state = .run ∧
        (s.elem d.1).inRoom d.2 = true ∧ total ((s.tile tile).egressResp.map s.msgFlits) + 1 ≤ 36 ∧
        ((s.elem d.1).inst = some f.inst ∨ s.bucketOpen d.1 = true))
      (fun s =>
        let u := if (s.elem d.1).inst = some f.inst then s else s.takeBucket d.1
        putIn d.1 d.2 f.tok { u.modTile tile (fun t => { t with
          epBuf := upd t.epBuf ch (·.drop 1), epFresh := t.epFresh ||| BitVec.ofNat 16 (2 ^ ch),
          egressResp := t.egressResp ++ [⟨s.nextId, tile, tileOf f.eid, .credit f.eid f.entry f.inst⟩] }) with nextId := s.nextId + 1 }),
    becomes (.creditReturn msg)
      (fun s => s.arriving msg = some m ∧ m.body = .credit eid k i ∧ (s.elem eid).inst = some i ∧ (s.elem eid).withdrawn.getLsbD k = false)
      (fun s => { s with track := s.track.filter (fun x => x.id ≠ msg) }.modElem eid (fun e => { e with
        credits := upd e.credits k (fun c => min 8 (c + 1)) })),
    becomes (.creditReturn msg)
      (fun s => s.arriving msg = some m ∧ m.body = .credit eid k i ∧ ((s.elem eid).inst ≠ some i ∨ (s.elem eid).withdrawn.getLsbD k = true))
      (fun s => { s with track := s.track.filter (fun x => x.id ≠ msg) }) ]

/-- TRACK_INJECT and TRACK_LINK_FAULT (R139, R140, R173, R176). -/
def trackRules (tile msg a i : Nat) (response : Bool) (m : Msg) (x : Access) (ch : Nat) (f : FarTok) : List EventRule :=
  let gone (s : State) (t : State) : Prop := t.track = s.track ++ [m] ∧ t.hbm = s.hbm ∧ t.insts = s.insts ∧
    (t.tile tile).egressReq = (if response then (s.tile tile).egressReq else (s.tile tile).egressReq.filter (·.id ≠ m.id)) ∧
    (t.tile tile).egressResp = if response then (s.tile tile).egressResp.filter (·.id ≠ m.id) else (s.tile tile).egressResp
  [ ⟨.trackInject tile response, fun s => s.nextInject tile response = some m ∧ ∀ a, m.body ≠ .access a,
      fun s t => gone s t ∧ t.accs = s.accs ∧ t.elems = s.elems⟩,
    ⟨.trackInject tile response, fun s => s.nextInject tile response = some m ∧ m.body = .access a ∧ s.accs.find a = some x,
      fun s t => gone s t ∧ t.accs.find a = some { x with stage := .track } ∧ ∀ n, n ≠ a → t.accs.find n = s.accs.find n⟩,
    ⟨.trackLinkFault msg, fun s => s.track.find? (fun n => n.id = msg) = some m ∧ m.body = .far ch f ∧ (s.elem f.eid).inst = some f.inst,
      fun s t => Arrived s t msg ∧ Faulted s t f.eid f.inst 7 1 [⟨f.tok, 7, ch, m.dst, true⟩] ∧ t.hbm = s.hbm ∧ t.tiles = s.tiles⟩,
    ⟨.trackLinkFault msg, fun s => s.track.find? (fun n => n.id = msg) = some m ∧ (∃ e k, m.body = .credit e k i ∧
        (s.elem e).inst ≠ some i),
      fun s t => t = { s with track := s.track.filter (fun n => n.id ≠ msg) }⟩ ]

/-! ## FINISH -/

/-- Whether an output queue is still to get FINISH, and whether some destination of it lies within the instance (R83). -/
def finishDue (s : State) (eid q : Nat) : Bool := !((s.elem eid).bank.routesOf q).isEmpty && !(s.elem eid).finSent.getLsbD q
def finishInside (s : State) (eid q : Nat) : Bool := ((s.elem eid).bank.routesOf q).any (fun j => !s.leaves eid (4 * q + j))

/-- FINISH_ARRIVAL, FINISH_FORWARD and ELEMENT_FREED (R83, R84). -/
def finishRules (eid q i : Nat) (tok : Token) (l : List Token) : List EventRule :=
  let stopped (s : State) (e : Element) : Element :=
    { e with state := .stopping, iq := upd e.iq q (·.drop 1), finDeq := e.finDeq ||| BitVec.ofNat 4 (2 ^ q) }.freed
      (s.cluster (clusterOf (tileOf eid))).srdNow q
  let atHead (s : State) : Prop := nth (s.elem eid).iq q [] = tok :: l ∧ tok.tag = 0xF ∧
    ((s.elem eid).state = .run ∨ (s.elem eid).state = .stopping)
  let ends (s : State) : Prop :=
    let e := s.elem eid
    e.inst = some i ∧ e.state = .stopping ∧ (∀ n < 4, e.finNeed.getLsbD n = true → e.finDeq.getLsbD n = true) ∧
    (∀ n < 4, e.bank.routesOf n ≠ [] → e.finSent.getLsbD n = true) ∧ e.inflight = [] ∧ e.ans = [] ∧ (∀ n ∈ e.iq, n = []) ∧
    (∀ n ∈ e.oq, n = []) ∧ (∀ n ∈ e.rb, n = none) ∧ s.elemBusy eid = false
  [ becomes (.finishArrival eid q) (fun s => atHead s ∧ ((stopped s (s.elem eid)).liveTokens eid) = [])
      (fun s => s.setElem eid (stopped s (s.elem eid))),
    ⟨.finishArrival eid q, fun s => atHead s ∧ ((stopped s (s.elem eid)).liveTokens eid) ≠ [] ∧ (s.elem eid).inst = some i,
      fun s t => Faulted s t eid i 4 2 ((stopped s (s.elem eid)).liveTokens eid) ∧
        (t.elem eid).iq = upd (s.elem eid).iq q (·.drop 1)⟩,
    ⟨.finishForward eid, fun s => (s.elem eid).state = .stopping ∧ (s.elem eid).inflight = [] ∧ (s.elem eid).ans = [] ∧
        (s.elem eid).oq.length = 4,
      fun s t => t = s.setElem eid { s.elem eid with oq := (t.elem eid).oq, finSent := (t.elem eid).finSent } ∧ ∀ n < 4,
        let goes := finishDue s eid n && finishInside s eid n && decide ((nth (s.elem eid).oq n []).length < 2)
        nth (t.elem eid).oq n [] = nth (s.elem eid).oq n [] ++ (if goes then [⟨Lanes.empty, 0xF, none⟩] else []) ∧
        (t.elem eid).finSent.getLsbD n = ((s.elem eid).finSent.getLsbD n || goes || (finishDue s eid n && !finishInside s eid n))⟩,
    becomes (.elementFreed eid)
      (fun s => ends s ∧ ∃ x, s.insts.find i = some x ∧ x.tiles ≠ [] ∧
        ∀ n ∈ x.tiles, ∃ e ∈ tileElems n, e ≠ eid ∧ (s.elem e).inst = some i)
      (fun s => s.setElem eid { Element.resetOf (elemType eid) with
        staged := .retained (((s.insts.find i).map (·.hash)).getD 0) (s.elem eid).bank }),
    ⟨.elementFreed eid,
      fun s => ends s ∧ ∃ x, s.insts.find i = some x ∧ x.boundary = false ∧
        (∀ e ∈ x.elems, e ≠ eid → (s.elem e).inst ≠ some i) ∧ ∀ n ∈ x.tiles, ∀ b ∈ (s.tile n).epBuf, b = [],
      fun s t => t.insts.find i = none ∧ (t.elem eid).state = .unoccupied ∧ (t.elem eid).inst = none ∧ t.hbm = s.hbm⟩ ]

/-! ## Selection -/

/-- The slots of an element that are eligible (R142), and of them those that no firing in flight blocks (R143). -/
def eligibleSlots (s : State) (eid : Nat) : List SlotView :=
  ((List.range (slotCount (elemType eid))).filterMap (fun k => slotView k (nth (s.elem eid).bank.slots k 0))).filter
    (fun v => (s.standing eid (s.elem eid) v).eligible)

def freeSlots (s : State) (eid : Nat) : List SlotView := (eligibleSlots s eid).filter (fun v => !v.blocked (s.elem eid).busyRegs)

/-- How far a slot stands behind the one that fired last at its level (R145). -/
def turnOf (s : State) (eid : Nat) (v : SlotView) : Nat :=
  let n := slotCount (elemType eid)
  (v.n + n - (nth (s.elem eid).last v.w.pri.toNat (n - 1) + 1) % n) % n

/-- An element may select in this step (R144, R148). -/
def MaySelect (s : State) (eid i : Nat) : Prop :=
  (s.elem eid).state = .run ∧ (s.elem eid).selDone = false ∧ (s.elem eid).inst = some i ∧ (s.elem eid).age.length = 16 ∧
  ∀ q < 4, ∀ t, (s.elem eid).head? q = some t → t.tag ≠ 0xF

/-- The ages after a selection (R145): the slot that fired starts afresh, and so does one that is not eligible; an eligible one ages
where the other won by age or from a higher level. -/
def AgesAfter (s t : State) (eid : Nat) (won : Option SlotView) (byAge : Bool) : Prop :=
  ∀ k < 16,
    let a := nth (s.elem eid).age k 0
    nth (t.elem eid).age k 0 =
      if slotCount (elemType eid) ≤ k then a
      else match won, (eligibleSlots s eid).find? (fun v => v.n = k) with
        | none, some _ => a
        | _, none => 0
        | some w, some v => if w.n = k then 0 else if byAge = true ∨ v.w.pri.toNat < w.w.pri.toNat then min (a + 1) 64 else a

/-- Nothing but selection marks, ages and counters changes. -/
def NoFiring (s t : State) (eid : Nat) : Prop :=
  t = s.setElem eid { s.elem eid with age := (t.elem eid).age, counters := (t.elem eid).counters, selDone := true } ∧
  AgesAfter s t eid none false

/-- The value of source n of a slot, as the element holds it (R235). -/
def sourceOf (e : Element) (v : SlotView) (n : Nat) : View :=
  readSource e v.w.d (immKind v.opc v.w.x n) v.w.imm (if n = 0 then v.w.sa else if n = 1 then v.w.sb else v.w.sc)

/-- Whether a source is the head of queue q. -/
def namesHead (x : Src) (q : Nat) : Bool := x.headQueue.any (fun k => k.val = q)

/-- The queue of a source's cursor. -/
def cursorOf (x : Src) : Nat := match x.headQueue with
  | some q => q.val
  | none => 4

/-- The decision of an ISECT or UNION from the heads and the cursors of their queues (R273). -/
def joinNow (e : Element) (v : SlotView) : Join :=
  joinOf (v.opc = 0x0C7) (sourceOf e v 0) (sourceOf e v 1) (sourceOf e v 2) (nth e.cursors (cursorOf v.w.sa) 0)
    (nth e.cursors (cursorOf v.w.sb) 0)

/-- Whether MERGE takes A: as the head that is there, or as C steers it (R270). -/
def mergesA (e : Element) (v : SlotView) : Bool :=
  if v.w.rnd = 0 then (sourceOf e v 0).tag.isSome
  else validAt (sourceOf e v 2).lanes 0 && wordAt (sourceOf e v 2).lanes 0 != 0

/-- The queues that a firing dequeues: those of DEQ; DUP only with its last copy, PACK no end token while a remainder is left, MERGE
the head that it takes and C's, ZIP the heads that it passes or drops, ISECT and UNION those that they have gone through (R146, R267,
R270, R271, R273, R278). -/
def dequeues (e : Element) (v : SlotView) (q : Nat) : Bool :=
  let a := (sourceOf e v 0).tag.getD 0
  let b := (sourceOf e v 1).tag.getD 0
  let both (x y : Bool) : Bool := (x && namesHead v.w.sa q) || (y && namesHead v.w.sb q)
  let zipEnds := endAgainst a b == endAgainst b a
  if v.opc = 0x0C1 then v.w.deq.getLsbD q && decide ((wordAt (sourceOf e v 1).lanes 0).toNat ≤ 1)
  else if v.opc = 0x0C4 then both (mergesA e v) (!mergesA e v) || namesHead v.w.sc q
  else if v.opc = 0x0C5 then
    both (zipEnds || (v.w.rnd != 0 && !endAgainst a b)) (zipEnds || (v.w.rnd != 0 && endAgainst a b))
  else if v.opc = 0x0C6 ∨ v.opc = 0x0C7 then both (joinNow e v).deqA (joinNow e v).deqB
  else if v.opc = 0x0CF then v.w.deq.getLsbD q && (!isEnd a || (laneAt (sourceOf e v 1).lanes 0).isNone)
  else v.w.deq.getLsbD q

/-- What an instruction reads at selection besides its operands: MERGE its choice; ISECT and UNION their cursors; HINS its spill
queue; LBPUT and LBGET their slot, counted behind those in flight, LBSTAT the pointers (R153, R308); MPLANE the plane, exponents, row
group, weights and slice; MDRAIN the token's number and the inactive bank; MSTAT the status (R328, R329); MELTRD MELT, STATE, OPNOW
and LIVE of the cluster (R336); TSTAMP the time (R339). -/
def readsExtra (s : State) (eid : Nat) (v : SlotView) : List Nat :=
  let e := s.elem eid
  let m := e.matrix
  let c := s.cluster (clusterOf (tileOf eid))
  let n := seDesc v.w
  let p := e.lap n
  if v.opc = 0x0C4 then [if mergesA e v then 1 else 0]
  else if v.opc = 0x0C6 ∨ v.opc = 0x0C7 then [nth e.cursors (cursorOf v.w.sa) 0, nth e.cursors (cursorOf v.w.sb) 0]
  else if v.opc = 0x107 then (if (e.hashCfg v.w).spen then [(e.hashCfg v.w).spq + 1] else [])
  else if v.opc = 0x109 then [(p.wridx + e.lapFlight 0x109 n + e.lapFlight 0x10D n) % (e.lapCfg n).nslot]
  else if v.opc = 0x10A then [(p.rdidx + e.lapFlight 0x10A n) % (e.lapCfg n).nslot]
  else if v.opc = 0x10B then [p.wridx, p.rdidx, p.filled, p.resv, p.lap, (e.lapCfg n).nslot - p.filled - p.resv]
  else if v.opc = 0x143 then [m.plane - 1, m.exps.toNat, m.rowGroup, m.weights.toNat, m.wexp.toNat, m.slice]
  else if v.opc = 0x144 then
    [m.drain, (if m.active then m.bank0 else m.bank1).toNat, (if m.active then m.lost0 else m.lost1).toNat,
     (if m.active then m.tov0 else m.tov1).toNat, m.we.toNat, m.fp64.toNat]
  else if v.opc = 0x147 then m.status
  else if v.opc = 0x184 then
    [c.heat.toNat / 2 ^ 16, if c.msState = .cool then 0 else if c.msState = .sprint then 1 else 2, c.opnow,
     (c.slots.filter Option.isSome).length]
  else if v.opc = 0x188 then [s.now]
  else []

/-- The firing of a slot (R146): its number, its word, its operands and what else it reads, the tokens it dequeues with their queues,
PD as it was, its answer entry, and the steps to its write-back (R149). -/
def firingOf (s : State) (eid : Nat) (v : SlotView) : Firing :=
  let e := s.elem eid
  let deqd : List (Fin 4 × Token) := (List.finRange 4).filterMap (fun q =>
    if dequeues e v q.val then (e.head? q.val).map (fun t => (q, t.depart eid s.now)) else none)
  let f : Firing :=
    { seq := s.nextId, slot := v.n, word := v.word, a := sourceOf e v 0, b := sourceOf e v 1, c := sourceOf e v 2, deqd,
      oldPd := nth e.p v.w.pd.val .no, entry := if splitPhase v.opc = true ∧ v.w.da.isOut = true then some s.nextId else none,
      extra := readsExtra s eid v, moved := (e.movedBy v.opc v.w).1, fault := (e.movedBy v.opc v.w).2,
      acc := (match v.w.sa with
        | .x n => some (e.acc n.val)
        | _ => none),
      remaining := 0 }
  { f with remaining := latencyOf v.opc v.w ((s.tile (tileOf eid)).granules e v.opc v.w f).length - 1 }

/-- The matrix state after a selection: MEXPT sets the plane counter to P, MPLANE takes a plane of it, and MDRAIN goes to the next
token (R328, R329). -/
def selectedMatrix (m : Matrix) (opc : Nat) : Matrix :=
  if opc = 0x142 then { m with plane := m.p }
  else if opc = 0x143 then { m with plane := m.plane - 1 }
  else if opc = 0x144 then { m with drain := (m.drain + 1) % 128 }
  else m

/-- The streams after a selection: a FENCEG discards what was prefetched, and PATLD, PLANELD and WLD move a token (R319). -/
def selectedStreams (l : List Stream) (v : SlotView) : List Stream :=
  if v.opc = 0x11A then l.map (fun t => { t with buf := [], ahead := [], fetch := t.pos, halted := false })
  else if v.opc = 0x116 ∨ v.opc = 0x118 ∨ v.opc = 0x119 then upd l (agStream v.w) Stream.moveHead
  else l

/-- Predicates that become PENDING: PD unless PM is 000, and those of PSET's MASK (R127, R146, R277). -/
def turnsPending (v : SlotView) (k : Nat) : Bool :=
  (v.w.pm != .keep && v.w.pd.val == k) || (v.opc == 0x0CD && decide (k < 8) && v.w.imm.getLsbD (8 + k))

/-- A slot fires: its firing joins those in flight, and the element and its instance are as the selection effects leave them; of
tiles only counters change (R86, R121, R127, R145, R146). -/
def Fires (s t : State) (eid i : Nat) (v : SlotView) (byAge : Bool) : Prop :=
  let e := s.elem eid
  let f := firingOf s eid v
  let srd := (s.cluster (clusterOf (tileOf eid))).srdNow
  let buckets : Bool := (s.cluster (clusterOf (tileOf eid))).injEn && f.moved.any (fun p => p.fault.isNone)
  t.elem eid = { e with
    age := (t.elem eid).age, counters := (t.elem eid).counters, selDone := true,
    last := if byAge then e.last else upd e.last v.w.pri.toNat (fun _ => v.n),
    iq := e.iq.mapIdx (fun q (l : List Token) => if dequeues e v q then l.drop 1 else l),
    iqHold := e.iqHold.mapIdx (fun q (l : List Nat) =>
      if dequeues e v q = true ∧ (e.head? q).isSome = true ∧ srd ≠ 0 then l ++ [srd + 1] else l),
    cursors := e.cursors.mapIdx (fun q x =>
      if dequeues e v q then 0
      else if v.opc = 0x0C6 ∨ v.opc = 0x0C7 then
        (if q = cursorOf v.w.sb then (joinNow e v).cb else if q = cursorOf v.w.sa then (joinNow e v).ca else x)
      else x),
    p := e.p.mapIdx (fun k x => if turnsPending v k then .pending else x),
    ans := match f.entry, v.w.da.outQueue with
      | some n, some q => e.ans ++ [⟨n, q, v.w.otag, decide (v.opc ∈ [0x110, 0x112, 0x114, 0x115]), none⟩]
      | _, _ => e.ans,
    inflight := e.inflight ++ [f], matrix := selectedMatrix e.matrix v.opc, streams := selectedStreams e.streams v } ∧
  AgesAfter s t eid (some v) byAge ∧
  (∀ n, t.insts.find n = if n = i then (s.insts.find i).map (fun x =>
    { x with fired := true, bucket := if buckets then x.bucket - 1 else x.bucket }) else s.insts.find n) ∧
  (∀ n, t.tile n = { s.tile n with counters := (t.tile n).counters }) ∧ (∀ n, n ≠ eid → t.elem n = s.elem n) ∧
  t = { s with elems := t.elems, tiles := t.tiles, insts := t.insts, nextId := s.nextId + 1 }

/-- The first in turn of the highest level among slots. -/
def Best (s : State) (eid : Nat) (l : List SlotView) (v : SlotView) : Prop :=
  v ∈ l ∧ ∀ u ∈ l, u.w.pri.toNat ≤ v.w.pri.toNat ∧ (u.w.pri = v.w.pri → turnOf s eid v ≤ turnOf s eid u)

/-- The eligible slots whose age has reached 64. -/
def oldSlots (s : State) (eid : Nat) : List SlotView := (eligibleSlots s eid).filter (fun v => nth (s.elem eid).age v.n 0 = 64)

/-- SELECTION: without an eligible slot nothing fires; without a slot of age 64 the first in turn of the highest level fires; among
slots of age 64 the first in turn fires by its age, and while it is blocked nothing does (R142 to R146). -/
def selectionRules (eid i : Nat) : List EventRule :=
  [ ⟨.selection eid, fun s => MaySelect s eid i ∧ freeSlots s eid = [] ∧ oldSlots s eid = [], fun s t => NoFiring s t eid⟩,
    ⟨.selection eid, fun s => MaySelect s eid i ∧ oldSlots s eid = [] ∧ freeSlots s eid ≠ [],
      fun s t => ∃ v, Best s eid (freeSlots s eid) v ∧ Fires s t eid i v false⟩,
    ⟨.selection eid, fun s => MaySelect s eid i ∧ oldSlots s eid ≠ [],
      fun s t => ∃ v, Best s eid (oldSlots s eid) v ∧
        if v.blocked (s.elem eid).busyRegs = true then NoFiring s t eid else Fires s t eid i v true⟩ ]

/-! ## Memory -/

/-- The entry of an answer has its token. -/
def Answered (s t : State) (eid n : Nat) (tok : Tag → Token) : Prop :=
  ∀ b ∈ (s.elem eid).ans, b.id = n → b.token = none → { b with token := some (tok b.otag) } ∈ (t.elem eid).ans

/-- The walk cache of the quarter that an access comes from (R165). -/
def cachedFor (s : State) (a : Access) : List WalkEntry := (s.walkCache.find (quarterOf a.eid)).getD []

/-- An access that waits for its walk: no page of its stream or of the walk cache holds its address (R165). -/
def Walks (s : State) (acc : Nat) (a : Access) (o : MemOp) : Prop :=
  s.accs.find acc = some a ∧ a.id = acc ∧ a.stage = .walk ∧ s.oldestWalk a = true ∧ s.ops.find a.op = some o ∧ o.eid = a.eid ∧
  o.port = a.port ∧ a.va < 2 ^ 49 ∧ ((s.elem a.eid).stream a.port).page = none ∧ a.port < (s.elem a.eid).streams.length ∧
  (∀ x ∈ cachedFor s a, x.vf = s.vfOf a.eid → ¬(x.page.start ≤ a.va ∧ a.va < x.page.start + x.page.size)) ∧
  s.tableWaits (s.vfOf a.eid) a.va = false

/-- WALK_DONE: the access goes on, or its element faults with the address (R161, R165, R167). -/
def walkRules (acc : Nat) (a : Access) (o : MemOp) (p : PageEntry) (pa c i : Nat) : List EventRule :=
  [ ⟨.walkDone acc, fun s => Walks s acc a o ∧ s.walk (s.vfOf a.eid) a.va = .ok p ∧ ∀ m, s.checkLeaf (s.vfOf a.eid) p a.va a.kind.want m = .ok (.hbm pa),
      fun s t => t.accs.find acc = some { a with home := .hbm pa, stage := .egress } ∧
        (∀ n, n ≠ acc → t.accs.find n = s.accs.find n) ∧ ((t.elem a.eid).stream a.port).page = some p ∧
        t.walkCache.find (quarterOf a.eid) = some ((⟨s.vfOf a.eid, p⟩ :: cachedFor s a).take 4096) ∧
        (t.tile (tileOf a.eid)).egressReq = (s.tile (tileOf a.eid)).egressReq ++
          [⟨s.nextId, tileOf a.eid, 1024 + 2 * bitsOf pa 38 4 + bitsOf pa 8 1, .access acc⟩] ∧
        t = { s with accs := t.accs, elems := t.elems, tiles := t.tiles, walkCache := t.walkCache, nextId := s.nextId + 1 } ∧
        (∀ e, e ≠ a.eid → t.elem e = s.elem e) ∧ (∀ q, q ≠ quarterOf a.eid → t.walkCache.find q = s.walkCache.find q) ∧
        t.elem a.eid = { s.elem a.eid with streams := (t.elem a.eid).streams } ∧
        (∀ k, k ≠ a.port → (t.elem a.eid).stream k = (s.elem a.eid).stream k) ∧ (∀ n, n ≠ tileOf a.eid → t.tile n = s.tile n) ∧
        t.tile (tileOf a.eid) = { s.tile (tileOf a.eid) with
          egressReq := (t.tile (tileOf a.eid)).egressReq, counters := (t.tile (tileOf a.eid)).counters }⟩,
    ⟨.walkDone acc, fun s => Walks s acc a o ∧ s.walk (s.vfOf a.eid) a.va = .error c ∧ (s.elem a.eid).inst = some i ∧ o.inst = i ∧
        ∀ x ∈ s.accs, x.2.op = a.op → x.2.eid = a.eid,
      fun s t => t.accs.find acc = none ∧ (t.elem a.eid).state = .faulted ∧
        t = { s with accs := t.accs, ops := t.ops, elems := t.elems, tiles := t.tiles, track := t.track, insts := t.insts, recSeq := t.recSeq } ∧
        (∀ n x, t.accs.find n = some x → s.accs.find n = some x) ∧ (∀ e, e ≠ a.eid → t.elem e = s.elem e) ∧
        (∀ n, n ≠ tileOf a.eid → t.tile n = s.tile n) ∧ (∀ j, j ≠ i → t.insts.find j = s.insts.find j) ∧
        ∀ x, s.insts.find i = some x → ∃ ev, t.insts.find i = some { x with faults := x.faults ++ [ev] } ∧ ev.family = 3 ∧ ev.code = c ∧
          ev.addr = a.va ∧ ev.src = a.eid ∧ ev.word = o.firing.word⟩ ]

/-- A state with the message of an access off the track. -/
def OffTrack (s : State) (acc : Nat) (p : State → Prop) : Prop :=
  ∃ m ∈ s.track, m.body = .access acc ∧ p { s with track := s.track.filter (fun x => x.id ≠ m.id) }

/-- An access has performed: it ends, its operation and the answers and fences of its element go on, and all else is as in the state
given (R175, R176). -/
def Performed (u t : State) (acc : Nat) (a : Access) (o : MemOp) : Prop :=
  t = { u with accs := u.accs.drop acc, ops := t.ops, elems := t.elems, tiles := t.tiles } ∧ (∀ n, t.tile n = u.tile n) ∧
  (∀ n, n ≠ a.op → t.ops.find n = u.ops.find n) ∧ (∀ e, e ≠ a.eid → e ≠ o.eid → t.elem e = u.elem e) ∧
  ∀ e, t.elem e = { u.elem e with ans := (t.elem e).ans, fences := (t.elem e).fences }

/-- An access before its home, the first of its source and destination (R140, R175). -/
def Waiting (s : State) (acc : Nat) (a : Access) (o : MemOp) (h : Home) : Prop :=
  s.accs.find acc = some a ∧ a.id = acc ∧ a.stage = .track ∧ a.home = h ∧ (s.accMsg a).isSome = true ∧ s.ops.find a.op = some o

/-- One at its home in HBM, which no scrub holds. -/
def AtHome (s : State) (acc : Nat) (a : Access) (o : MemOp) (pa : Nat) : Prop :=
  Waiting s acc a o (.hbm pa) ∧ s.scrubbing pa = false

/-- One that the other package has been asked for, and that none of this package to its granule comes before (R15, R176). -/
def OnLink (s : State) (acc : Nat) (a : Access) (o : MemOp) (pkg pa : Nat) : Prop :=
  s.accs.find acc = some a ∧ a.id = acc ∧ s.ops.find a.op = some o ∧ (∃ ptag port, a.home = .remote pkg ptag pa port) ∧
  ∃ n, a.stage = .aqric n ∧ s.overtakes pkg (pa / 64) n = false

/-- The acknowledgement of an operation: the address in lanes 0 and 1, and POISON where its data was (R302). -/
def ackToken (addr : DWord) (bad : Bool) (tag : Tag) : Token :=
  ⟨lanesOfList [addr.setWidth 32, addr.extractLsb' 32 32], if bad then 0xE else tag, none⟩

/-- With an access every other of its operation has performed: where it is acknowledged, at its scope (R179, R301). -/
def LastOf (s : State) (acc : Nat) (a : Access) (o : MemOp) (scope : Bool) : Prop :=
  ∀ x ∈ s.accs, x.2.op = a.op → x.1 = acc ∨ (scope = true ∧ x.2.performedAt o.scope = true)

/-- A store gives the acknowledgement of its operation, where one is asked for and it is the last (R301, R302). -/
def Acks (s t : State) (acc : Nat) (a : Access) (o : MemOp) (poison : Bool) : Prop :=
  ∀ n addr, LastOf s acc a o true → o.entry = some n → o.result = .ack addr → o.refused = false →
    Answered s t o.eid n (ackToken addr (o.poison || poison))

/-- A load gives the data of its operation, where it is the last (R301). -/
def Loads (s t : State) (acc : Nat) (a : Access) (o : MemOp) (off : Nat) (r : List Byte × Bool) : Prop :=
  ∀ n, LastOf s acc a o false → o.entry = some n →
    Answered s t o.eid n { o with data := o.data ++ spreadBytes off r.1, poison := o.poison || r.2 }.token

/-- The words of one read-modify-write event, lane after lane: the old value of each, whether one was marked or the operand is POISON,
and what the event leaves; a marked word stays, and with a POISON operand every word (R171, R182, R305, R318). -/
def rmwEvent {σ α : Type} (read : σ → Nat → List Byte × Bool) (write : σ → Nat → List Byte → σ) (frozen : Bool)
    (new : Word → α → Option Word) : List (Nat × Nat × α) → σ → List (Nat × Word) × Bool × σ
  | [], s => ([], frozen, s)
  | (lane, at_, x) :: l, s =>
    let r := read s at_
    let old := wordOfBytes r.1
    let s' := if r.2 || frozen then s else match new old x with
      | some v => write s at_ (leBytes 4 v.toNat)
      | none => s
    let rest := rmwEvent read write frozen new l s'
    ((lane, old) :: rest.1, r.2 || rest.2.1, rest.2.2)

/-- On HBM, and in the SRAM of a tile. -/
def hbmEvent {α : Type} (frozen : Bool) (new : Word → α → Option Word) (l : List (Nat × Nat × α)) (s : State) :
    List (Nat × Word) × Bool × State :=
  rmwEvent (fun s pa => s.readHbm pa 4) (fun s pa bs => s.writeHbm (spreadBytes pa bs)) frozen new l s

def sramEvent {α : Type} (frozen : Bool) (new : Word → α → Option Word) (l : List (Nat × Nat × α)) (t : Tile) :
    List (Nat × Word) × Bool × Tile :=
  rmwEvent (fun t a => t.read a 4) (fun t a bs => t.write (spreadBytes a bs) false) frozen new l t

/-- The old values of an atomic are its result, POISON where a word was marked or its operand is (R302, R305). -/
def OldValues (s t : State) (acc : Nat) (a : Access) (o : MemOp) (r : List (Nat × Word) × Bool) : Prop :=
  ∀ n, LastOf s acc a o false → o.entry = some n → o.result = .old → o.refused = false →
    Answered s t o.eid n (fun tag => ⟨lanesOf (fun k => match r.1.find? (fun x => x.1 = k) with
      | some x => some x.2
      | none => laneAt o.lanes k), if o.poison || r.2 then 0xE else tag, none⟩)

/-- HOME_EVENT in HBM (R169, R171, R175, R176, R182, R301, R302, R318). -/
def homeRules (acc : Nat) (a : Access) (o : MemOp) (pa off len : Nat) (bs : List (Nat × Byte)) (op : BitVec 4)
    (l : List (Nat × Nat × Word)) (l2 : List (Nat × Nat × Word × Word)) (poison : Bool) : List EventRule :=
  let atomics (s : State) : List (Nat × Word) × Bool × State :=
    hbmEvent poison (fun old x => some (atomicOp op old x)) (l.map (fun x => (x.1, pa + x.2.1, x.2.2))) s
  let swaps (s : State) : List (Nat × Word) × Bool × State :=
    hbmEvent poison (fun old x => if old = x.1 then some x.2 else none) (l2.map (fun x => (x.1, pa + x.2.1, x.2.2))) s
  [ ⟨.homeEvent acc, fun s => AtHome s acc a o pa ∧ a.kind = .load off len,
      fun s t => OffTrack s acc (fun u => Performed u t acc a o) ∧ Loads s t acc a o off (s.readHbm pa len)⟩,
    ⟨.homeEvent acc, fun s => AtHome s acc a o pa ∧ a.kind = .store bs false,
      fun s t => OffTrack s acc (fun u => Performed (u.writeHbm (bs.map (fun x => (pa + x.1, x.2)))) t acc a o) ∧ Acks s t acc a o false⟩,
    ⟨.homeEvent acc, fun s => AtHome s acc a o pa ∧ a.kind = .store bs true,
      fun s t => OffTrack s acc (fun u => Performed { u with hbmPoison := t.hbmPoison } t acc a o) ∧ Acks s t acc a o true ∧
        ∀ w, w ∈ t.hbmPoison ↔ w ∈ s.hbmPoison ∨ ∃ x ∈ bs, w = (pa + x.1) / 8⟩,
    ⟨.homeEvent acc, fun s => AtHome s acc a o pa ∧ a.kind = .atomic op l poison ∧ (l.map (·.1)).Nodup,
      fun s t => OffTrack s acc (fun u => Performed (atomics u).2.2 t acc a o) ∧ OldValues s t acc a o ((atomics s).1, (atomics s).2.1)⟩,
    ⟨.homeEvent acc, fun s => AtHome s acc a o pa ∧ a.kind = .cas l2 poison ∧ (l2.map (·.1)).Nodup,
      fun s t => OffTrack s acc (fun u => Performed (swaps u).2.2 t acc a o) ∧ OldValues s t acc a o ((swaps s).1, (swaps s).2.1)⟩,
    becomes (.homeEvent acc) (fun s => Waiting s acc a o (.hbm pa) ∧ s.scrubbing pa = true) id ]

/-- HOME_EVENT in device MMIO, where the registers do what they do for the VF (R28, R162, R322); and in another package, whose answer
or refusal comes over the port of its granule (R14 to R16, R162). -/
def awayHomeRules (acc : Nat) (a : Access) (o : MemOp) (pkg ptag pa off len p i : Nat) (bs : List (Nat × Byte)) (op : BitVec 4)
    (l : List (Nat × Nat × Word)) (poison : Bool) : List EventRule :=
  let who (s : State) : BitVec 9 := BitVec.ofNat 9 (s.vfOf a.eid)
  let asked (s : State) (refuses : Bool) : Prop := OnLink s acc a o pkg pa ∧ Config.remoteRefuses s.fresh pa = refuses
  let drawn (s : State) : State := { s with fresh := s.fresh + 1 }
  let faults (s t : State) (family code addr : Nat) (kind : Nat × Nat) : Prop :=
    t.accs.find acc = none ∧ (t.elem a.eid).state = .faulted ∧ t.hbm = s.hbm ∧ t.hbmPoison = s.hbmPoison ∧
    (∀ e, e ≠ a.eid → e ≠ o.eid → t.elem e = s.elem e) ∧ (∀ j, j ≠ i → t.insts.find j = s.insts.find j) ∧
    ∀ x, s.insts.find i = some x → ∃ ev, t.insts.find i = some { x with faults := x.faults ++ [ev] } ∧ (ev.family, ev.code) = (family, code) ∧
      ev.addr = addr ∧ (ev.kind, ev.src) = kind
  let mine (s : State) : Prop := (s.elem a.eid).inst = some i ∧ o.inst = i
  [ ⟨.homeEvent acc, fun s => Waiting s acc a o (.mmio pa) ∧ a.kind = .load off len,
      fun s t => OffTrack s acc (fun u => Performed u t acc a o) ∧ Loads s t acc a o off (s.mmioRead (who s) pa len, false)⟩,
    ⟨.homeEvent acc, fun s => Waiting s acc a o (.mmio pa) ∧ a.kind = .store bs poison,
      fun s t => OffTrack s acc (fun u => Performed (u.mmioWrite (who s) (bs.map (fun x => (pa + x.1, x.2)))) t acc a o)⟩,
    ⟨.homeEvent acc, fun s => Waiting s acc a o (.remote pkg ptag pa off) ∧ s.aqricPort pkg (pa / 64) = .port p,
      fun s t => OffTrack s acc (fun u => t = { u with
          nextId := s.nextId + 1, accs := s.accs.put acc { a with home := .remote pkg ptag pa p, stage := .aqric s.nextId },
          ops := t.ops, elems := t.elems }) ∧
        (∀ e, e ≠ a.eid → e ≠ o.eid → t.elem e = s.elem e) ∧
        ∀ e, t.elem e = { s.elem e with ans := (t.elem e).ans, fences := (t.elem e).fences }⟩,
    becomes (.homeEvent acc) (fun s => Waiting s acc a o (.remote pkg ptag pa off) ∧ s.aqricPort pkg (pa / 64) = .waits) id,
    ⟨.homeEvent acc, fun s => Waiting s acc a o (.remote pkg ptag pa off) ∧ s.aqric.all (fun q => !q.up) = true ∧ mine s,
      fun s t => faults s t 7 cAQRIC 0 (0, a.eid)⟩,
    ⟨.homeEvent acc, fun s => asked s false ∧ a.kind = .load off len,
      fun s t => Performed (drawn s) t acc a o ∧ Loads s t acc a o off (remoteBytes s.fresh pa len)⟩,
    ⟨.homeEvent acc, fun s => asked s false ∧ a.kind = .store bs poison,
      fun s t => Performed (drawn s) t acc a o ∧ Acks s t acc a o poison⟩,
    ⟨.homeEvent acc, fun s => asked s false ∧ a.kind = .atomic op l poison,
      fun s t => Performed (drawn s) t acc a o ∧
        OldValues s t acc a o (l.map (fun x => (x.1, wordOfBytes (remoteBytes s.fresh (pa + x.2.1) 4).1)),
          poison || l.any (fun x => (remoteBytes s.fresh (pa + x.2.1) 4).2))⟩,
    ⟨.homeEvent acc, fun s => asked s true ∧ mine s, fun s t => faults s t 3 0x0C a.va (0, a.eid)⟩ ]

/-- HOME_EVENT of an access of the link that no operation makes: it has performed, or was refused; a write is done with (R15, R162). -/
def linkRules (acc : Nat) (r : LinkReq) : List EventRule :=
  let due (s : State) : Prop := s.accs.find acc = none ∧ s.copyOf acc = none ∧ s.links.find? (fun x => x.id = acc) = some r ∧
    r.answer = none ∧ r.port ≠ none
  [ becomes (.homeEvent acc) (fun s => due s ∧ s.overtakes r.pkg (r.pa / 64) acc = false ∧ r.owner ≠ .write)
      (fun s => { s with
        fresh := s.fresh + 1,
        links := s.links.map (fun x => if x.id = acc then
          { x with answer := some (if Config.remoteRefuses s.fresh r.pa = true then .refused else .done s.fresh) } else x) }),
    becomes (.homeEvent acc) (fun s => due s ∧ s.overtakes r.pkg (r.pa / 64) acc = false ∧ r.owner = .write)
      (fun s => { s with fresh := s.fresh + 1, links := s.links.filter (fun x => x.id ≠ acc) }),
    becomes (.homeEvent acc) (fun s => due s ∧ s.overtakes r.pkg (r.pa / 64) acc = true) id ]

/-- The bank b of a tile takes no other event in this step, and no request of the same kind came to it before (R151). -/
def BankFree (s : State) (tile : Nat) (copy : Bool) (acc b : Nat) : Prop :=
  ((s.tile tile).bankStep = (s.cluster (clusterOf tile)).steps → ∀ x ∈ (s.tile tile).banks, x.1 = b → x.2 = some acc) ∧
  ∀ w ∈ s.bankQueue tile, w.bank = b → w.copy = copy → w.acc = acc

/-- The bank has taken its event of this step. -/
def BankTaken (s : State) (tile b : Nat) : Prop :=
  (s.tile tile).bankStep = (s.cluster (clusterOf tile)).steps ∧ (s.tile tile).banks.find? (fun x => x.1 = b) = some (b, none)

/-- HOME_EVENT for a granule of a copy, and of one whose bank is taken (R151, R156, R171, R185). -/
def copyRules (acc tile : Nat) (c : Copy) (pa pkg i p : Nat) (r : LinkReq) : List EventRule :=
  let n := acc - c.acc0
  let la := (c.laddr + 64 * n) % 2 ^ 23
  let own (s : State) : Prop :=
    s.accs.find acc = none ∧ s.copyOf acc = some (tile, c) ∧ n ∉ c.performed ∧ (s.tile tile).hopsStopped = false ∧ s.forkWaits c = false
  let dueAt (s : State) (k : AccessWant) (h : Home) : Prop :=
    own s ∧ (∀ x ∈ s.links, x.owner ≠ .copy acc) ∧
    s.hostWaits (s.vfOf c.eid) (c.va + 64 * n) k = false ∧ c.va + 64 * n < 2 ^ 49 ∧
    (s.translate (quarterOf c.eid) (s.vfOf c.eid) (c.va + 64 * n) k false).1 = .ok h ∧ s.homeWaits (some tile) h = false
  let due (s : State) (k : AccessWant) : Prop := dueAt s k (.hbm pa)
  let bank : Nat := bankOf (la / 64)
  let marked (s t : State) : Prop :=
    (∀ k, k ≠ tile → t.tile k = s.tile k) ∧
    (t.tile tile).copies = (s.tile tile).copies.map (fun d => if d.id = c.id then { d with performed := d.performed ++ [n] } else d) ∧
    ∃ y, t.tile tile = { s.tile tile with
      copies := (t.tile tile).copies, sram := (t.tile tile).sram, sramPoison := (t.tile tile).sramPoison, counters := (t.tile tile).counters,
      bankWaits := y, bankStep := (t.tile tile).bankStep, banks := (t.tile tile).banks }
  let answered (s : State) (x : LinkAnswer) : Prop := own s ∧ s.links.filter (fun y => y.owner = .copy acc) = [r] ∧ r.answer = some x
  let dropped (s : State) : List LinkReq := s.links.filter (fun y => y.owner ≠ .copy acc)
  [ ⟨.homeEvent acc, fun s => due s .load ∧ c.dir ≠ 1 ∧ BankFree s tile true acc bank,
      fun s t => marked s t ∧ t = { s with walkCache := t.walkCache, tiles := t.tiles } ∧
        (t.tile tile).sram = ((s.tile tile).putWords la (granuleWords (fun i => s.readHbm (pa + i) 8))).sram ∧
        (t.tile tile).sramPoison = ((s.tile tile).putWords la (granuleWords (fun i => s.readHbm (pa + i) 8))).sramPoison⟩,
    ⟨.homeEvent acc, fun s => due s .store ∧ c.dir = 1 ∧ BankFree s tile true acc bank,
      fun s t => marked s t ∧ t = { s with walkCache := t.walkCache, tiles := t.tiles, hbm := t.hbm, hbmPoison := t.hbmPoison } ∧
        (t.tile tile).sram = (s.tile tile).sram ∧ (t.tile tile).sramPoison = (s.tile tile).sramPoison ∧
        t.hbm = (s.putHbmWords pa (granuleWords (fun i => (s.tile tile).read (la + i) 8))).hbm ∧
        t.hbmPoison = (s.putHbmWords pa (granuleWords (fun i => (s.tile tile).read (la + i) 8))).hbmPoison⟩,
    ⟨.homeEvent acc, fun s => due s (if c.dir = 1 then .store else .load) ∧ BankTaken s tile bank,
      fun s t => t = { s with walkCache := t.walkCache, tiles := t.tiles } ∧ (∃ w ∈ (t.tile tile).bankWaits, w.acc = acc ∧ w.copy = true) ∧
        t.tile tile = { s.tile tile with bankWaits := (t.tile tile).bankWaits } ∧ ∀ k, k ≠ tile → t.tile k = s.tile k⟩,
    ⟨.homeEvent acc, fun s => dueAt s .load (.remote pkg i pa 0) ∧ c.dir ≠ 1 ∧ s.aqricPort pkg (pa / 64) = .port p,
      fun s t => t = { s with
        walkCache := t.walkCache, nextId := s.nextId + 1, links := s.links ++ [⟨s.nextId, .copy acc, pkg, pa, 64, false, some p, none⟩] }⟩,
    ⟨.homeEvent acc, fun s => (∃ x, answered s (.done x)) ∧ c.dir ≠ 1 ∧ BankFree s tile true acc bank,
      fun s t => marked s t ∧ t = { s with tiles := t.tiles, links := dropped s } ∧ ∀ x, r.answer = some (.done x) →
        (t.tile tile).sram = ((s.tile tile).putWords la (granuleWords (fun i => remoteBytes x (r.pa + i) 8))).sram ∧
        (t.tile tile).sramPoison = ((s.tile tile).putWords la (granuleWords (fun i => remoteBytes x (r.pa + i) 8))).sramPoison⟩,
    ⟨.homeEvent acc, fun s => (∃ x, answered s (.done x)) ∧ c.dir = 1,
      fun s t => marked s t ∧ t = { s with tiles := t.tiles, links := dropped s } ∧ (t.tile tile).sram = (s.tile tile).sram⟩,
    ⟨.homeEvent acc, fun s => (answered s .refused ∨ answered s .failed) ∧ (s.elem c.eid).inst = some i,
      fun s t => t = { s with elems := t.elems, tiles := t.tiles, links := dropped s, insts := t.insts, recSeq := t.recSeq } ∧
        (t.elem c.eid).state = .faulted ∧ (∀ e, e ≠ c.eid → t.elem e = s.elem e) ∧
        t.tile tile = { s.tile tile with copies := (s.tile tile).copies.filter (fun d => d.id ≠ c.id) } ∧
        (∀ k, k ≠ tile → t.tile k = s.tile k) ∧ (∀ j, j ≠ i → t.insts.find j = s.insts.find j) ∧
        ∀ x, s.insts.find i = some x → ∃ ev, t.insts.find i = some { x with faults := x.faults ++ [ev] } ∧
          (ev.family, ev.code, ev.addr) = if r.answer = some .refused then (3, 0x0C, c.va + 64 * n) else (7, cAQRIC, 0)⟩ ]

/-- HOME_EVENT of a remote SE store or atomic at the bank of its tile: it performs once the bank is free, and answers; a tile that is
gated or has left the partition refuses it, with a NULL token or a fault of the sender (R123, R151, R171, R301, R302, R311). -/
def remoteStoreRules (acc : Nat) (a : Access) (o : MemOp) (tile addr i : Nat) (bs : List (Nat × Byte)) (op : BitVec 4)
    (l : List (Nat × Nat × Word)) (poison : Bool) : List EventRule :=
  let here (s : State) : Prop := Waiting s acc a o (.sram tile addr)
  let open_ (s : State) : Prop := (s.tile tile).gate = .powered ∧ s.partOfCluster (clusterOf tile) = s.partOfCluster (clusterOf (tileOf a.eid))
  let ready (s : State) : Prop := here s ∧ open_ s
  let free (s : State) : Prop := BankFree s tile false acc (bankOf (addr / 64))
  let wrote (s : State) : Tile := (s.tile tile).write (bs.map (fun x => (addr + x.1, x.2))) poison
  let atomics (s : State) : List (Nat × Word) × Bool × Tile :=
    sramEvent poison (fun old x => some (atomicOp op old x)) (l.map (fun x => (x.1, (addr + x.2.1) % 2 ^ 23, x.2.2))) (s.tile tile)
  let became (s t : State) (y : Tile) : Prop := OffTrack s acc (fun u => ∃ z : Tile, Performed (u.setTile tile { s.tile tile with
    sram := y.sram, sramPoison := y.sramPoison, counters := z.counters, bankWaits := z.bankWaits, bankStep := z.bankStep,
    banks := z.banks }) t acc a o)
  [ ⟨.homeEvent acc, fun s => ready s ∧ a.kind = .store bs poison ∧ free s,
      fun s t => became s t (wrote s) ∧ Acks s t acc a o poison⟩,
    ⟨.homeEvent acc, fun s => ready s ∧ a.kind = .atomic op l poison ∧ (l.map (·.1)).Nodup ∧ free s,
      fun s t => became s t (atomics s).2.2 ∧ OldValues s t acc a o ((atomics s).1, (atomics s).2.1)⟩,
    ⟨.homeEvent acc, fun s => here s ∧ ¬open_ s ∧ s.atBank tile acc = false ∧ o.entry.isSome = true,
      fun s t => became s t (s.tile tile) ∧ ∀ n, LastOf s acc a o true → o.entry = some n →
        Answered s t o.eid n (fun _ => ⟨Lanes.empty, 0xD, none⟩)⟩,
    ⟨.homeEvent acc, fun s => here s ∧ ¬open_ s ∧ s.atBank tile acc = false ∧ o.entry = none ∧ (s.elem a.eid).inst = some i ∧ o.inst = i,
      fun s t => t.accs.find acc = none ∧ t.hbm = s.hbm ∧ (t.elem a.eid).state = .faulted ∧ (∀ e, e ≠ a.eid → e ≠ o.eid → t.elem e = s.elem e) ∧
        (∀ k, (t.tile k).sram = (s.tile k).sram ∧ (t.tile k).sramPoison = (s.tile k).sramPoison) ∧
        ∀ x, s.insts.find i = some x → ∃ ev, t.insts.find i = some { x with faults := x.faults ++ [ev] } ∧
          (ev.family, ev.code, ev.addr) = (3, 0x13, tile * 2 ^ 32 + addr)⟩,
    ⟨.homeEvent acc, fun s => ready s ∧ BankTaken s tile (bankOf (addr / 64)),
      fun s t => t = { s with tiles := t.tiles } ∧ (∃ w ∈ (t.tile tile).bankWaits, w.acc = acc ∧ w.copy = false) ∧
        t.tile tile = { s.tile tile with bankWaits := (t.tile tile).bankWaits } ∧ ∀ k, k ≠ tile → t.tile k = s.tile k⟩ ]

/-- A state that a read through a stream of an element leaves: its page, the walk cache, a counter of its tile, and what it has asked of
other packages (R165). -/
def OnlyReads (s t : State) (eid : Nat) : Prop :=
  t = { s with elems := t.elems, tiles := t.tiles, walkCache := t.walkCache, links := t.links, nextId := t.nextId } ∧
  (∀ e, e ≠ eid → t.elem e = s.elem e) ∧ t.elem eid = { s.elem eid with streams := (t.elem eid).streams } ∧
  (∀ n, n ≠ tileOf eid → t.tile n = s.tile n) ∧
  t.tile (tileOf eid) = { s.tile (tileOf eid) with counters := (t.tile (tileOf eid)).counters }

/-- PREFETCH, ANSWER_DELIVERY and COPY_COMPLETE (R86, R153, R156, R301, R319). -/
def answerRules (eid k tile op : Nat) (a : Answer) (tok : Token) (c : Copy) (p : Prefetched) (rest : List Prefetched)
    (f : Nat × Nat × Nat) (x : List Byte × Bool) : List EventRule :=
  let strm (s : State) : Stream := (s.elem eid).stream k
  let fetch (s : State) : Except ReadStop (List Prefetched) × State := s.fetchTokens eid k (strm s)
  let template (s : State) : Except ReadStop (List Byte × Bool) × State := s.readNow eid k (strm s).cfg.scaleVa 64
  let may (s : State) : Prop := (s.elem eid).mayPrefetch (strm s) = true
  let pushed (q : Prefetched) (l : List Prefetched) (s : State) : State := s.modElem eid (fun e => { e with
    streams := upd e.streams k (fun t => { t with buf := t.buf ++ [q], ahead := l, fetch := t.fetch + 1 }) })
  let completes (s t : State) : Prop :=
    t = { s with tiles := t.tiles, elems := t.elems } ∧ (∀ j, j ≠ tile → t.tile j = s.tile j) ∧ (∀ e, e ≠ c.eid → t.elem e = s.elem e) ∧
    t.tile tile = { s.tile tile with copies := (s.tile tile).copies.filter (fun d => d.id ≠ op) }
  [ becomes (.prefetch eid k) (fun s => may s ∧ (strm s).ahead = p :: rest) (pushed p rest),
    ⟨.prefetch eid k, fun s => may s ∧ (strm s).ahead = [] ∧ (fetch s).1 = .ok (p :: rest),
      fun s t => t = pushed p rest (fetch s).2 ∧ OnlyReads s (fetch s).2 eid⟩,
    ⟨.prefetch eid k, fun s => may s ∧ (strm s).ahead = [] ∧ (fetch s).1 = .error .wait, fun s t => t = (fetch s).2 ∧ OnlyReads s t eid⟩,
    ⟨.prefetch eid k, fun s => (s.elem eid).needsTemplate (strm s) = true ∧ (template s).1 = .ok x,
      fun s t => t = (template s).2.modElem eid (fun e => { e with streams := upd e.streams k (fun t => { t with tmpl := some x.1 }) }) ∧
        OnlyReads s (template s).2 eid⟩,
    ⟨.prefetch eid k, fun s => may s ∧ (strm s).ahead = [] ∧ (fetch s).1 = .error (.fault f),
      fun s t => OnlyReads s (fetch s).2 eid ∧ t = (fetch s).2.modElem eid (fun e => { e with streams := upd e.streams k (fun t => { t with
        halted := true, buf := t.buf ++ [{ token := ⟨Lanes.empty, 0, none⟩, fault := some f }] }) })⟩,
    ⟨.answerDelivery eid, fun s => s.deliverable eid = some (a, tok) ∧ a.q.val < (s.elem eid).oq.length,
      fun s t => t.elem eid = { s.elem eid with
          oq := upd (s.elem eid).oq a.q.val (· ++ [tok]), ans := (s.elem eid).ans.filter (fun b => b.id ≠ a.id),
          counters := (t.elem eid).counters } ∧
        (∀ e, e ≠ eid → t.elem e = s.elem e) ∧ t = { s with elems := t.elems, insts := t.insts } ∧
        (a.bucket = false → t.insts = s.insts) ∧ (∀ j, (s.elem eid).inst ≠ some j → t.insts.find j = s.insts.find j) ∧
        (a.bucket = true → (s.cluster (clusterOf (tileOf eid))).injEn = true → ∀ i x, (s.elem eid).inst = some i → s.insts.find i = some x →
          t.insts.find i = some { x with bucket := x.bucket - 1 })⟩,
    ⟨.copyComplete tile op, fun s => (s.tile tile).copies.find? (fun d => d.id = op) = some c ∧ c.performed.length = c.len / 64 ∧ c.lap = none,
      fun s t => completes s t ∧ t.elem c.eid = { s.elem c.eid with ans := (t.elem c.eid).ans } ∧ ∀ n, c.entry = some n →
          Answered s t c.eid n (fun tag => ⟨ackLanes (some (if c.dir = 1 then c.va else c.laddr)), tag, none⟩)⟩,
    ⟨.copyComplete tile op, fun s => (s.tile tile).copies.find? (fun d => d.id = op) = some c ∧ c.performed.length = c.len / 64 ∧
        ∃ n slot, c.lap = some (n, slot) ∧ s.slotTurn (s.tile tile) c n = true ∧ n < (s.elem c.eid).laps.length,
      fun s t => completes s t ∧ t.elem c.eid = { s.elem c.eid with ans := (t.elem c.eid).ans, laps := (t.elem c.eid).laps } ∧
        ∀ n slot, c.lap = some (n, slot) → (∀ j, j ≠ n → (t.elem c.eid).lap j = (s.elem c.eid).lap j) ∧
        ((t.elem c.eid).lap n).filled = ((s.elem c.eid).lap n).filled + 1 ∧ ((t.elem c.eid).lap n).resv = ((s.elem c.eid).lap n).resv - 1 ∧
        ((t.elem c.eid).lap n).wridx = ((s.elem c.eid).lap n).wridx⟩ ]

/-- SOFT_ERROR and SCRUB_DONE (R12, R163, R173). -/
def errorRules (t g eid a i u b : Nat) (bs : List Byte) : List EventRule :=
  let cleared (s v : State) : Prop :=
    v = { s with hbm := v.hbm, hbmPoison := v.hbmPoison, units := v.units, parked := [] } ∧
    v.unit u = { s.unit u with scrub := false } ∧ ∀ n, n ≠ u → v.unit n = s.unit n
  let counted (x : CounterGroup) : CounterGroup :=
    if x.running = true then { x with c := upd x.c 2 (fun n => min (n + 1) (2 ^ 64 - 1)) } else x
  [ ⟨.softError (.corrected t), fun s => (s.tile t).counters.length = 5,
      fun s v => v = { s with tiles := v.tiles } ∧ (∀ k, k ≠ t → v.tile k = s.tile k) ∧
        v.tile t = { s.tile t with counters := (v.tile t).counters } ∧
        nth (v.tile t).counters 0 { } = counted (nth (s.tile t).counters 0 { }) ∧
        ∀ j, j ≠ 0 → nth (v.tile t).counters j { } = nth (s.tile t).counters j { }⟩,
    ⟨.softError (.correctedHbm g), fun _ => True,
      fun s v =>
        let n := (s.cluster g).memErrors + 1
        let w := s.modCluster g (fun c => { c with memErrors := n })
        match s.partOfCluster g with
        | some p => Recorded p 18 0 [.cluster g, .count n] w v
        | none => v = { w with operLog := s.operLog ++ [⟨18, none, 0, s.now, [g, n], false⟩] }⟩,
    ⟨.softError (.buffer eid), fun s => (s.elem eid).inst = some i ∧ (s.elem eid).state ≠ .faulted ∧ (s.tile (tileOf eid)).ueCount = 0,
      fun s v => Faulted s v eid i 10 2 [] ∧
        v = { s with elems := v.elems, tiles := v.tiles, insts := v.insts, recSeq := v.recSeq } ∧ (∀ e, e ≠ eid → v.elem e = s.elem e) ∧
        v.elem eid = { s.elem eid with state := .faulted } ∧ (∀ j, j ≠ i → v.insts.find j = s.insts.find j) ∧
        v.tile (tileOf eid) = { s.tile (tileOf eid) with ueCount := 1 } ∧ ∀ k, k ≠ tileOf eid → v.tile k = s.tile k⟩,
    ⟨.softError (.sram t a), fun _ => True,
      fun s v => v = { s with tiles := v.tiles } ∧ (∀ k, k ≠ t → v.tile k = s.tile k) ∧
        v.tile t = { s.tile t with sramPoison := (v.tile t).sramPoison } ∧
        ∀ w, w ∈ (v.tile t).sramPoison ↔ w ∈ (s.tile t).sramPoison ∨ w = a % 2 ^ 23 / 8⟩,
    ⟨.softError (.hbm a), fun _ => a < 2 ^ 42,
      fun s v => v = { s with hbmPoison := v.hbmPoison, contexts := s.contexts.map (fun y =>
          let base := ((s.part y.2.inst.part).poolBase.toNat + y.2.unit0) * 65536
          (y.1, { y.2 with bad := y.2.bad || decide (base ≤ a ∧ a < base + y.2.length) })) } ∧
        ∀ w, w ∈ v.hbmPoison ↔ w ∈ s.hbmPoison ∨ w = a / 8⟩,
    ⟨.scrubDone, fun s => s.subject.1 = u ∧ (s.unit u).scrub = true ∧ s.parked = [spreadBytes (u * 2 ^ 30 + b) bs] ∧ bs ≠ [] ∧
        b + bs.length ≤ 2 ^ 30 ∧ Memory.wf s.hbm = true,
      fun s v => cleared s v ∧ ∀ x, byteAt v.hbm x =
        if u * 2 ^ 30 + b ≤ x ∧ x < u * 2 ^ 30 + b + bs.length then bs[x - (u * 2 ^ 30 + b)]?.getD 0
        else if x / 2 ^ 30 = u then 0 else byteAt s.hbm x⟩,
    ⟨.scrubDone, fun s => s.subject.1 = u ∧ (s.unit u).scrub = true ∧ s.parked = [],
      fun s v => cleared s v ∧ ∀ b,
        byteAt v.hbm b = (if b / 2 ^ 30 = u then 0 else byteAt s.hbm b) ∧
        (b / 8 ∈ v.hbmPoison ↔ b / 8 ∈ s.hbmPoison ∧ b / 2 ^ 30 ≠ u)⟩ ]

/-! ## Links -/

/-- A link fault of a port (R16, R19, R221): the element enters FAULTED, and its instance has the record. -/
def PortFault (s t : State) (eid i port code : Nat) : Prop :=
  (t.elem eid).state = .faulted ∧ (∀ j, j ≠ i → t.insts.find j = s.insts.find j) ∧ ∀ x, s.insts.find i = some x →
    ∃ ev, t.insts.find i = some { x with faults := x.faults ++ [ev] } ∧ (ev.kind, ev.src) = (4, port) ∧ (ev.family, ev.code) = (7, code) ∧
      ev.slot = none ∧ ev.word = 0 ∧ ev.addr = 0

/-- The Aqric ports (R15, R16). -/
def aqricRules (port : Nat) (a : Access) (o : MemOp) (m : PodAm) (i : Nat) (r : LinkReq) (tile : Nat) (c : Copy) : List EventRule :=
  let at_ (s : State) : AqricPort := nth s.aqric port { up := false }
  let set (s : State) (p : AqricPort) : State := { s with aqric := s.aqric.set port p }
  let down (s : State) : State := set s { at_ s with up := false, draining := true }
  let fails (s : State) (accs : List Access) (links : List LinkReq) (ams : List PodAm) : Prop :=
    port < s.aqric.length ∧ (at_ s).up = true ∧ s.onPort port = accs ∧
    s.links.filter (fun x => x.port = some port ∧ x.answer = none) = links ∧ s.podAms.filter (fun x => x.port = some port) = ams
  let lost (s : State) : State := { down s with links := s.links.filter (fun x => x.id ≠ r.id) }
  [ becomes (.aqricPortFail port) (fun s => fails s [] [] []) down,
    ⟨.aqricPortFail port, fun s => fails s [a] [] [] ∧ s.ops.find a.op = some o ∧ (s.elem a.eid).inst = some i ∧ o.inst = i,
      fun s t => t.aqric = (down s).aqric ∧ t.accs.find a.id = none ∧ t.hbm = s.hbm ∧ t.links = s.links ∧ t.podAms = s.podAms ∧
        PortFault s t a.eid i port cAQRIC⟩,
    ⟨.aqricPortFail port, fun s => fails s [] [] [m] ∧ (s.elem m.eid).inst = some i ∧ m.inst = i,
      fun s t => t = { down s with
          podAms := s.podAms.filter (fun x => x.id ≠ m.id), elems := t.elems, insts := t.insts, recSeq := t.recSeq } ∧
        (∀ e, e ≠ m.eid → t.elem e = s.elem e) ∧ PortFault s t m.eid i port cAQRIC⟩,
    ⟨.aqricPortFail port, fun s => fails s [] [r] [] ∧ (∃ k mark, r.owner = .stream i a.eid k mark) ∧ (s.elem a.eid).inst = some i ∧
        (s.elem a.eid).state ≠ .faulted,
      fun s t => t = { lost s with elems := t.elems, insts := t.insts, recSeq := t.recSeq } ∧ (∀ e, e ≠ a.eid → t.elem e = s.elem e) ∧
        PortFault s t a.eid i port cAQRIC⟩,
    ⟨.aqricPortFail port, fun s => fails s [] [r] [] ∧ (∃ acc, r.owner = .copy acc ∧ s.copyOf acc = some (tile, c)) ∧
        (s.elem c.eid).inst = some i,
      fun s t => t = { lost s with tiles := t.tiles, elems := t.elems, insts := t.insts, recSeq := t.recSeq } ∧
        (∀ e, e ≠ c.eid → t.elem e = s.elem e) ∧ (∀ k, k ≠ tile → t.tile k = s.tile k) ∧
        t.tile tile = { s.tile tile with copies := (s.tile tile).copies.filter (fun d => d.id ≠ c.id) } ∧ PortFault s t c.eid i port cAQRIC⟩,
    becomes (.aqricPortFail port) (fun s => fails s [] [r] [] ∧ r.owner = .write) lost,
    becomes (.aqricPortFail port) (fun s => fails s [] [r] [] ∧ ∃ v, r.owner = .host v ∨ (∃ n, r.owner = .graph n ∨ r.owner = .image n ∨
        r.owner = .report n ∨ r.owner = .bind n) ∨ ∃ am, r.owner = .message am)
      (fun s => { down s with links := s.links.map (fun x => if x.id = r.id then { x with answer := some .failed } else x) }),
    becomes (.aqricRemap port) (fun s => port < s.aqric.length ∧ (at_ s).draining = true ∧ s.onPort port = [] ∧
        ∀ x ∈ s.links, x.port = some port → x.answer ≠ none)
      (fun s => { set s { at_ s with draining := false } with remapped := s.remapped ++ [port] }),
    becomes (.aqricRemap port) (fun s => s.onPort port ≠ [] ∨ ∃ x ∈ s.links, x.port = some port ∧ x.answer = none) id,
    becomes (.aqricReplay port) (fun s => port < s.aqric.length) (fun s => set s { at_ s with replays := (at_ s).replays + 1 }) ]

/-- The counts of a stream's flow in the present second, at a partition (R52). -/
def flowCount (s : State) (p eid k : Nat) : FlowCount :=
  ((s.part p).flowCounts.find? (fun c => c.eid = eid ∧ c.strm = k)).getD { eid, strm := k }

/-- The partition of a stream counts for its flow, and no partition changes else. -/
def Counts (s t : State) (eid k : Nat) (f : FlowCount → FlowCount) : Prop :=
  (∀ p, t.part p = { s.part p with flowCounts := (t.part p).flowCounts }) ∧
  ∀ x, s.instOf eid = some x → x.part < s.parts.length →
    flowCount t x.part eid k = f (flowCount s x.part eid k) ∧ ∀ p, p ≠ x.part → t.part p = s.part p

/-- Of the flows that the package sends, one is as given. -/
def SendsAs (s t : State) (x : TxFlow) : Prop := ∀ y, t.txFlow y = if y = x.key then x else s.txFlow y

/-- The Ethernet ports (R17 to R20, R323). A flow keeps its SEQ, its frames without acknowledgement and its resends whichever streams
name it. -/
def ethRules (port flow eid k : Nat) (f : EthFrame) (y : Flow) (x : TxFlow) (n i : Nat) (u : SentFrame) (tmpl : List Byte) :
    List EventRule :=
  let dropped (s : State) : State := { s with eth := upd s.eth port (fun p => { p with discarded := p.discarded + 1 }) }
  let strm (s : State) : Stream := (s.elem eid).stream k
  let flows (s : State) : List Flow := (nth s.eth port { }).flows
  let named (s : State) : Prop := frameOk port f 0 = true ∧ s.streamOfFlow 6 f.srcIp f.dstIp (hdrFlow f.header) = some (eid, k) ∧
    k < (s.elem eid).streams.length ∧ port < s.eth.length
  let takes (s : State) : Prop := hdrLen f.header % 4 = 0 ∧ ((s.elem eid).state = .run ∨ (s.elem eid).state = .held) ∧
    (strm s).mode = .prefetching ∧ hdrSeq f.header = s.rxNext (frameKey f)
  let took (s t : State) : Prop :=
    strm t = { strm s with ingress := (strm s).ingress ++ [(f.payload.take (hdrLen f.header), hdrLast f.header)] } ∧
    Counts s t eid k (fun c => { c with rxFrames := c.rxFrames + 1, rxBytes := c.rxBytes + hdrLen f.header }) ∧
    (∀ y, t.rxNext y = if y = frameKey f then hdrSeq f.header + 1 else s.rxNext y) ∧
    t = { s with elems := t.elems, parts := t.parts, rxFlows := t.rxFlows, eth := t.eth, ethOut := t.ethOut } ∧
    (∀ e, e ≠ eid → t.elem e = s.elem e) ∧ t.elem eid = { s.elem eid with streams := (t.elem eid).streams } ∧
    (∀ j, j ≠ k → (t.elem eid).stream j = (s.elem eid).stream j) ∧
    nth t.eth port { } = { nth s.eth port { } with flows := flows t } ∧ ∀ q, q ≠ port → nth t.eth q { } = nth s.eth q { }
  let due (s : State) : Prop := s.template eid k = some tmpl ∧ s.txFlow (templateKey tmpl) = x ∧ (s.elem eid).inst.isSome = true ∧
    x.unacked ≠ [] ∧ x.lastAck + 100000 ≤ s.now
  [ becomes (.ethFrameRx port f) (fun _ => frameOk port f 0 = false) dropped,
    becomes (.ethFrameRx port f) (fun s => frameOk port f 0 = true ∧ s.streamOfFlow 6 f.srcIp f.dstIp (hdrFlow f.header) = none) dropped,
    ⟨.ethFrameRx port f, fun s => named s ∧ takes s ∧ ∀ y ∈ flows s, y.owed < 15,
      fun s t => took s t ∧ t.ethOut = s.ethOut ∧ ∃ y ∈ flows t, y.same f = true ∧ 0 < y.owed ∧ y.sample = f⟩,
    ⟨.ethFrameRx port f, fun s => named s ∧ takes s ∧ flows s = [y] ∧ y.same f = true ∧ y.owed = 15,
      fun s t => took s t ∧ t.ethOut = s.ethOut ++ [(port, ackFrame port { y with owed := 16, sample := f } (hdrSeq f.header + 1))] ∧
        flows t = [{ y with owed := 0, sample := f }]⟩,
    ⟨.ethFrameRx port f, fun s => named s ∧ ¬takes s,
      fun s t => t = { s with parts := t.parts } ∧ Counts s t eid k (fun c => { c with discarded := c.discarded + 1 })⟩,
    becomes (.ethAckSend port flow) (fun s => (flows s)[flow]? = some y ∧ 0 < y.owed)
      (fun s => { s with
        ethOut := s.ethOut ++ [(port, ackFrame port y (s.rxNext ⟨y.srcIp, y.dstIp, y.flow⟩))],
        eth := upd s.eth port (fun p => { p with flows := upd p.flows flow (fun y => { y with owed := 0 }) }) }),
    becomes (.ethAckRx port f) (fun _ => frameOk port f 1 = false) dropped,
    becomes (.ethAckRx port f) (fun s => frameOk port f 1 = true ∧ s.streamOfFlow 5 f.dstIp f.srcIp (hdrFlow f.header) = none) dropped,
    ⟨.ethAckRx port f, fun s => frameOk port f 1 = true ∧ s.streamOfFlow 5 f.dstIp f.srcIp (hdrFlow f.header) = some (eid, k) ∧
        s.txFlow ⟨f.dstIp, f.srcIp, hdrFlow f.header⟩ = x ∧ x.unacked[n]? = some u ∧ u.seq = hdrAckSeq f.header ∧
        ∀ j < n, ∀ v, x.unacked[j]? = some v → v.seq ≠ hdrAckSeq f.header,
      fun s t => SendsAs s t { x with unacked := x.unacked.drop (n + 1), lastAck := s.now, resends := 0 } ∧
        t = { s with txFlows := t.txFlows, elems := t.elems, contexts := t.contexts, fresh := t.fresh } ∧
        (∀ e, t.elem e = { s.elem e with ans := (t.elem e).ans }) ∧
        ∀ v ∈ x.unacked.take (n + 1), ∀ e ∈ v.entries, ∀ b ∈ (t.elem v.eid).ans, b.id = e → b.token.isSome = true⟩,
    ⟨.ethResend eid k, fun s => due s ∧ x.resends < 8,
      fun s t => SendsAs s t { x with lastAck := s.now, resends := x.resends + 1 } ∧
        t = { s with txFlows := t.txFlows, ethOut := s.ethOut ++ x.unacked.map (fun v => (v.port, v.frame)) }⟩,
    ⟨.ethResend eid k, fun s => due s ∧ 8 ≤ x.resends ∧ x.unacked.head? = some u ∧ u.inst = some i ∧ (s.elem u.eid).inst = some i ∧
        (s.elem u.eid).state ≠ .faulted,
      fun s t => t = { s with txFlows := t.txFlows, elems := t.elems, insts := t.insts, recSeq := t.recSeq } ∧
        (∀ e, e ≠ u.eid → t.elem e = s.elem e) ∧ PortFault s t u.eid i (36 + u.port) 3⟩ ]

/-! ## Power -/

/-- The heat accumulator after a millisecond (R109). -/
def nextHeat (h : Word) (pwr cshare : BitVec 16) : Word :=
  BitVec.ofInt 32 (max 0 (min 0xFFFFFFFF ((h.toNat : Int) + ((pwr.toNat : Int) - cshare.toNat) * 2 ^ 32 / 2400000)))

/-- The limit of the injection refill after a millisecond (R119). -/
def nextLim (lim capw pwr : Nat) : Nat :=
  if capw = 0 then 0xFFFF
  else if capw < pwr then max 1 (lim / 2)
  else if pwr * 100 < capw * 95 then min 0xFFFF (lim * 2)
  else lim

/-- The answers of elements, and nothing else of them, have changed. -/
def OnlyAnswers (s t : State) : Prop := ∀ e, t.elem e = { s.elem e with ans := (t.elem e).ans }

/-- MELT of a cluster after the update. -/
def meltAfter (s : State) (g : Nat) (pwr cshare : List (BitVec 16)) : Nat :=
  (nextHeat (s.cluster g).heat (nth pwr g 0) (nth cshare g 0)).toNat / 65536

/-- The measurements of a millisecond have arrived in a cluster, the package's with them; with the last cluster the update is complete,
and the operator has the power of the partitions (R57, R109, R119). -/
def Measured (s t : State) (g : Nat) (pwr cshare : List (BitVec 16)) (pkgw : BitVec 16) : Prop :=
  let c := s.cluster g
  let d := t.cluster g
  t.pkgw = pkgw ∧ d.lastMs = some (s.now / 1000000) ∧ d.lim.toNat = nextLim c.lim.toNat c.capw.toNat (nth pwr g 0).toNat ∧
  d = { c with
    pwr := nth pwr g 0, cshare := nth cshare g 0, heat := nextHeat c.heat (nth pwr g 0) (nth cshare g 0), lim := d.lim,
    lastMs := d.lastMs, melt := d.melt, msState := d.melt, slots := d.slots, opnow := d.opnow, volt := d.volt, rampEnd := d.rampEnd } ∧
  (if g = 15 then t.lastMs = some (s.now / 1000000) else t.lastMs = s.lastMs)

/-- A state that only measurements have changed: one cluster, and with the last of them what the operator gets. -/
def MeasuredOnly (s t : State) (g : Nat) (pwr cshare : List (BitVec 16)) (pkgw : BitVec 16) : Prop :=
  Measured s t g pwr cshare pkgw ∧
  t = { s with clusters := t.clusters, pkgw := t.pkgw, lastMs := t.lastMs, parts := t.parts, operLog := t.operLog } ∧
  (g ≠ 15 → t.parts = s.parts ∧ t.operLog = s.operLog) ∧
  (∀ p, t.part p = { s.part p with
    powerSum := (t.part p).powerSum, rate := (t.part p).rate, drops := (t.part p).drops }) ∧
  { t.cluster g with melt := .cool, msState := .cool } = { s.cluster g with
    pwr := (t.cluster g).pwr, cshare := (t.cluster g).cshare, heat := (t.cluster g).heat, lim := (t.cluster g).lim,
    lastMs := (t.cluster g).lastMs, melt := .cool, msState := .cool }

/-- A HARD lease of slot k, the only one of its instance, with what its trap needs: an instance that runs, its task with a record, and
the handler node of the launch, not running (R66, R117). -/
def MayTrap (s : State) (g k : Nat) (l : Lease) (x : Inst) (y : Launch) (a b : Task) (j : Nat) : Prop :=
  l.hard = true ∧ s.insts.find l.inst = some x ∧ x.cluster = g ∧ g < s.clusters.length ∧ x.phase = .run ∧ x.stop = .none ∧
  x.faulted = false ∧ y.part = x.part ∧ x.launch = l.launch ∧ x.task = l.task ∧ x.part < s.parts.length ∧
  (∀ n w, nth (s.cluster g).slots n none = some w → w.inst = l.inst → n = k) ∧
  s.launches.find l.launch = some y ∧ y.tasks[l.task]? = some a ∧ a.gw.ordered = false ∧ a.gw.predN ≠ 255 ∧ a.fchain ≠ 0 ∧
  y.tasks[j]? = some b ∧ b.telling = false ∧ b.gw.predN = 255 ∧ b.gw.taskId = a.gw.handler ∧ b.cancelled = false ∧ b.final = true ∧ b.gw.ttCount ≠ 0 ∧
  s.rects y.part b.gw.w b.gw.h ≠ [] ∧
  ∀ m c, m < j → y.tasks[m]? = some c → ¬(c.gw.predN = 255 ∧ c.gw.taskId = a.gw.handler)

/-- The trap of a HARD lease (R41, R117): the instance knows the reason and is CUT, LEASENOTE is sent, a record without token entries is
written or dropped, the handler node is ready for one run more, and no tile-task counts failed. -/
def Trapped (s t : State) (g : Nat) (l : Lease) (x : Inst) (a b : Task) (j reason : Nat) : Prop :=
  (∃ z, t.insts.find l.inst = some z ∧ z.ended.head? = some (l.handle, reason) ∧ z.stop = .cut false false ∧ z.waveLeft = x.elems ∧
    z.held = x.held ∧ z.faulted = false) ∧
  (∃ o ∈ (t.vf l.vf).out, o.amop = 0x82 ∧ o.operand = BitVec.ofNat 32 (reason + g * 2 ^ 8 + a.gw.taskId * 2 ^ 16) ∧
    o.cont = BitVec.ofNat 64 a.gw.completionVa) ∧
  (let f := (s.part x.part).fault
   (t.part x.part).fault = { f with nextOff := BitVec.ofNat 64 (f.nextOff.toNat + 64) } ∨ (t.part x.part).fault = f.drop) ∧
  (∃ c, t.task? l.launch l.task = some c ∧ c.failedN = a.failedN ∧ c.doneN = a.doneN ∧ c.stopped = a.stopped ∧ c.note = a.note) ∧
  (∃ c, t.task? l.launch j = some c ∧ c.ready = true ∧ c.final = false ∧ c.runs = b.runs) ∧
  t.tiles = s.tiles ∧ OnlyAnswers s t ∧ (∀ n, n ≠ l.inst → t.insts.find n = s.insts.find n) ∧
  (∀ n, n ≠ l.launch → t.launches.find n = s.launches.find n) ∧ ∀ n, n ≠ j → n ≠ l.task → t.task? l.launch n = s.task? l.launch n

/-- UPDATE_1MS at a cluster: measurements and state; the lease that the controller is to end for the budget; and the leases that end for
it or at the ceiling, with the trap of a HARD one (R109, R110, R111, R114, R115, R117, R119). -/
def updateRules (pwr cshare : List (BitVec 16)) (pkgw : BitVec 16) (g k h : Nat) (l : Lease) (x : Inst) (y : Launch) (a b : Task) (j : Nat) :
    List EventRule :=
  let at_ (s : State) : Cluster := s.cluster g
  let due (s : State) : Prop := s.subject.1 = g ∧ s.clusters.length = 16 ∧ (at_ s).slots.length = 16 ∧ g < 16 ∧
    (match (at_ s).lastMs with
      | some m => m < s.now / 1000000
      | none => s.startTime / 1000000 < s.now / 1000000)
  let unasked (s : State) (n : Nat) : Prop := ∀ w, nth (at_ s).slots n none = some w → w.asked = []
  let quiet (s : State) : Prop := due s ∧ s.ctrlQ = [] ∧ ∀ n, unasked s n
  let paid (s : State) : Prop := g ≠ 0 ∨ pkgw ≤ s.sprintw ∨ s.lastLease = none
  let below (s : State) : Prop := (at_ s).melt ≠ .refreeze ∧ meltAfter s g pwr cshare < (at_ s).ceiling.toNat
  let alone (s t : State) : Prop := ∀ n, n ≠ g → t.cluster n = s.cluster n
  let budget (s : State) : Prop := due s ∧ s.ctrlQ = [] ∧ below s ∧ nth (at_ s).slots k none = some l ∧ (∀ n, n ≠ k → unasked s n) ∧
    (g ≠ 0 ∧ l.asked = [6] ∨ g = 0 ∧ l.asked = [] ∧ s.sprintw < pkgw ∧ s.lastLease = some (0, k))
  let ceiling (s : State) : Prop := quiet s ∧ paid s ∧ (at_ s).melt ≠ .refreeze ∧ (at_ s).ceiling.toNat ≤ meltAfter s g pwr cshare
  let ends (s t : State) : Prop := Measured s t g pwr cshare pkgw ∧ alone s t ∧ t.tiles = s.tiles ∧ OnlyAnswers s t ∧ t.hbm = s.hbm ∧
    t.launches = s.launches
  let ended (s t : State) : Prop := Measured s t g pwr cshare pkgw ∧ (t.cluster g).slots = (at_ s).slots.set k none ∧ alone s t
  let knows (s t : State) (l : Lease) (reason : Nat) : Prop := ∀ x, s.insts.find l.inst = some x →
    ∃ y, t.insts.find l.inst = some y ∧ y.ended.head? = some (l.handle, reason)
  [ ⟨.update1ms pwr cshare pkgw, fun s => quiet s ∧ paid s ∧ below s,
      fun s t => MeasuredOnly s t g pwr cshare pkgw ∧ alone s t ∧ (t.cluster g).melt = (at_ s).melt⟩,
    ⟨.update1ms pwr cshare pkgw, fun s => quiet s ∧ paid s ∧ (at_ s).melt = .refreeze,
      fun s t => MeasuredOnly s t g pwr cshare pkgw ∧ alone s t ∧
        (t.cluster g).melt = if meltAfter s g pwr cshare < (at_ s).rearm.toNat then .cool else .refreeze⟩,
    becomes (.update1ms pwr cshare pkgw) (fun s => s.subject.1 = g ∧ (at_ s).lastMs = some (s.now / 1000000)) id,
    ⟨.update1ms pwr cshare pkgw, fun s => quiet s ∧ below s ∧ g = 0 ∧ s.sprintw < pkgw ∧ h ≠ 0 ∧ h < 16 ∧ s.lastLease = some (h, k) ∧
        nth (s.cluster h).slots k none = some l,
      fun s t => MeasuredOnly s t 0 pwr cshare pkgw ∧ (∀ n, n ≠ 0 → n ≠ h → t.cluster n = s.cluster n) ∧
        (t.cluster 0).melt = (s.cluster 0).melt ∧
        t.cluster h = { s.cluster h with slots := (s.cluster h).slots.set k (some { l with asked := 6 :: l.asked }) }⟩,
    ⟨.update1ms pwr cshare pkgw, fun s => budget s ∧ l.hard = false,
      fun s t => ends s t ∧ ended s t ∧ t.vfs = s.vfs ∧ knows s t l 6 ∧ ∀ n, n ≠ l.inst → t.insts.find n = s.insts.find n⟩,
    ⟨.update1ms pwr cshare pkgw, fun s => budget s ∧ MayTrap s g k l x y a b j,
      fun s t => ended s t ∧ Trapped s t g l x a b j 6⟩,
    ⟨.update1ms pwr cshare pkgw, fun s => ceiling s ∧ ∀ n y, nth (at_ s).slots n none = some y → y.hard = false,
      fun s t => ends s t ∧ (t.cluster g).melt = .refreeze ∧ (∀ n, nth (t.cluster g).slots n none = none) ∧
        (∀ n w, nth (at_ s).slots n none = some w → (∀ m v, nth (at_ s).slots m none = some v → v.inst = w.inst → m = n) → knows s t w 5) ∧
        ∀ i, (∀ n w, nth (at_ s).slots n none = some w → w.inst ≠ i) → t.insts.find i = s.insts.find i⟩,
    ⟨.update1ms pwr cshare pkgw, fun s => ceiling s ∧ nth (at_ s).slots k none = some l ∧ MayTrap s g k l x y a b j ∧
        ∀ n w, nth (at_ s).slots n none = some w → n = k,
      fun s t => ended s t ∧ (t.cluster g).melt = .refreeze ∧ Trapped s t g l x a b j 5⟩ ]

/-- BUCKET_REFILL, gating and ungating (R86, R119, R122 to R124). -/
def gateRules (g k : Nat) (i : Nat) (x : Inst) (u : Nat) : List EventRule :=
  let refills (s : State) : Prop := s.subject.1 = g ∧ g < s.clusters.length ∧ (s.cluster g).refilled < s.now / 1000
  let refilled (s : State) : State := s.modCluster g (fun c => { c with refilled := s.now / 1000 })
  let idle (s : State) : Prop := s.holders k = [] ∧ ∀ e ∈ tileElems k, (s.elem e).state = .unoccupied
  let accepted (s : State) : Prop := (∃ w ∈ (s.tile k).bankWaits, if w.copy = true then s.copyOf w.acc ≠ none else s.accs.find w.acc ≠ none) ∨
    ∃ n b, (b, some n) ∈ (s.tile k).banks ∧ s.accs.find n ≠ none
  [ ⟨.bucketRefill, fun s => refills s ∧ (s.cluster g).injEn = true ∧ s.insts.find i = some x ∧
        x.cluster = g ∧ (x.phase = .run ∨ x.phase = .teardown ∨ x.phase = .saving) ∧ x.bucket ≤ (s.cluster g).injDepth.toNat,
      fun s t =>
        let due := (s.now / 1000 - (s.cluster g).refilled) * min (s.cluster g).injRefill.toNat (s.cluster g).lim.toNat
        t.insts.find i = some { x with bucket := min (s.cluster g).injDepth.toNat (x.bucket + due) } ∧
        t = { refilled s with insts := t.insts } ∧
        ∀ j y, s.insts.find j = some y → y.cluster ≠ g → t.insts.find j = some y⟩,
    becomes .bucketRefill (fun s => refills s ∧ (s.cluster g).injEn = false) refilled,
    becomes .autogateTimer (fun s => s.subject.1 = k ∧ tileOk k = true ∧ (s.cluster (clusterOf k)).autogate = true ∧
        max (s.tile k).unoccSince s.startTime + 1000000 ≤ s.now ∧ (s.tile k).gate = .powered ∧ idle s)
      (fun s => s.modTile k (fun t => { t with gate := .closing })),
    ⟨.gateOff, fun s => s.subject.1 = k ∧ (s.tile k).gate = .closing ∧ idle s ∧ ¬accepted s,
      fun s t => t.tile k = { s.tile k with gate := .gated, sram := [], sramPoison := [], retained := none } ∧
        t = { s with tiles := t.tiles, elems := t.elems } ∧ (∀ n, n ≠ k → t.tile n = s.tile n) ∧
        (∀ e, t.elem e = { s.elem e with staged := (t.elem e).staged }) ∧ (∀ e ∈ tileElems k, ∀ h b, (t.elem e).staged ≠ .retained h b) ∧
        ∀ e, e ∉ tileElems k → t.elem e = s.elem e⟩,
    becomes .gateOff (fun s => s.subject.1 = k ∧ accepted s) id,
    becomes .ungateDone (fun s => s.subject.1 = k ∧ (s.tile k).gate = .ungating u ∧ u ≤ s.now)
      (fun s => s.modTile k (fun t => { t with gate := .powered, sram := [], sramPoison := [], unoccSince := s.now })) ]

/-! ## Leases -/

/-- A request that the controller takes next (R111). -/
def Requests (s : State) (i : Nat) (x : Inst) (r : CtrlReq) (us point : Nat) (hard : Bool) : Prop :=
  s.subject.1 = i ∧ s.ctrlOf i true = some r ∧ r.ask = .inr (us, point, hard) ∧ s.insts.find i = some x ∧ s.lastMs.isSome = true ∧
  s.ctrlTurn r.key = true ∧ r.cluster = x.cluster ∧ x.cluster < s.clusters.length

/-- Whether its instance and task may hold a lease: the NOTASK conditions (R111, R334). -/
def MayLease (s : State) (x : Inst) (hard : Bool) : Prop :=
  x.leaseOff = false ∧ ∃ t, s.task? x.launch x.task = some t ∧ t.gw.leaseOk = true ∧ (hard = true → t.gw.hardOk = true)

/-- The clamp conditions (R111). -/
def Clamped (s : State) (i : Nat) (x : Inst) : Prop :=
  (s.vf x.vf).maxop = 3 ∨ (s.vf x.vf).maxn.toNat ≤ s.leasesWith (fun l => l.vf = x.vf) ∨
  4 ≤ s.leasesWith (fun l => l.inst = i) + x.leaseBuf.length ∨ ∀ y ∈ (s.cluster x.cluster).slots, y.isSome = true

/-- A request is gone and its cluster has counted a refusal; else nothing changes but the answers of elements. -/
def OnlyRefused (s t : State) (r : CtrlReq) : Prop :=
  t = { s with
    ctrlQ := s.ctrlQ.erase r, clusters := upd s.clusters r.cluster (fun c => { c with refusedN := c.refusedN + 1 }), elems := t.elems,
    contexts := t.contexts } ∧
  OnlyAnswers s t

/-- The answer of a LEASE comes with a status (R334). -/
def LeaseAnswer (s t : State) (r : CtrlReq) (status : Nat) : Prop :=
  ∀ n, r.entry = some n → Answered s t r.eid n (fun tag => ⟨lanesOfList [BitVec.ofNat 32 status, 0, 0], tag, none⟩)

/-- A power projected to a point of a cluster stays within a bound in W, without rounding (R108, R111). -/
def within (s : State) (g n bound others : Nat) : Prop :=
  others * (nth s.factors (s.cluster g).opnow 0).toNat + (s.cluster g).pwr.toNat * (nth s.factors n 0).toNat ≤
    bound * (nth s.factors (s.cluster g).opnow 0).toNat

/-- The µs until the heat store of a cluster reaches its ceiling at a point whose projected power passes the cooling share, rounded
down (R109, R111). -/
def usLeft (s : State) (g n : Nat) : Nat :=
  let c := s.cluster g
  let f (k : Nat) : Nat := (nth s.factors k 0).toNat
  (c.ceiling.toNat - c.heat.toNat / 65536) * 2400 * 10 ^ 6 * f c.opnow / (65536 * (c.pwr.toNat * f n - c.cshare.toNat * f c.opnow))

/-- A lease is granted for a time at a point: the lowest free slot holds it, its handle is numbered, and it has still to begin (R111,
R112). -/
def Granted (s t : State) (i : Nat) (x : Inst) (r : CtrlReq) (us point : Nat) (hard : Bool) : Prop :=
  let c := s.cluster x.cluster
  let d := t.cluster x.cluster
  t = { s with ctrlQ := s.ctrlQ.erase r, clusters := t.clusters, grants := s.grants + 1, vfs := t.vfs } ∧
  (∀ g, g ≠ x.cluster → t.cluster g = s.cluster g) ∧ (∀ v, v ≠ x.vf → t.vf v = s.vf v) ∧
  d = { c with
    slots := d.slots, serial := d.serial, granted := c.granted + 1, melt := d.melt, opnow := d.opnow, volt := d.volt,
    rampEnd := d.rampEnd } ∧
  ∃ n y, nth c.slots n none = none ∧ (∀ m < n, nth c.slots m none ≠ none) ∧ d.slots = c.slots.set n (some y) ∧
    y.handle = BitVec.ofNat 32 (c.serial.toNat * 2 ^ 16 + x.cluster * 2 ^ 12 + n * 2 ^ 8 + point) ∧ y.inst = i ∧ y.vf = x.vf ∧
    y.point = point ∧ y.us = us ∧ y.hard = hard ∧ y.begin_ = none ∧ y.entry = r.entry ∧ d.serial = c.serial + 1 ∧
    d.melt = (if c.melt = .cool then .sprint else c.melt) ∧ d.opnow = max c.point point

/-- LEASE_REQUEST: refused with NOTASK, CLAMP, REFREEZE, BUDGET or MELT, or granted in full, for less time, or saturated (R111, R112,
R118). -/
def requestRules (i : Nat) (x : Inst) (r : CtrlReq) (us point : Nat) (hard : Bool) : List EventRule :=
  let c (s : State) : Cluster := s.cluster x.cluster
  let v (s : State) : Vf := s.vf x.vf
  let others (s : State) : Nat := total ((List.range 16).map (fun h => if h = x.cluster then 0 else (s.cluster h).pwr.toNat))
  let fits (s : State) : Prop := Requests s i x r us point hard ∧ MayLease s x hard ∧ ¬Clamped s i x
  let cool (s : State) : Prop := fits s ∧ (c s).melt ≠ .refreeze ∧ nth s.factors (c s).opnow 0 ≠ 0 ∧
    ∀ g < 16, nth s.factors (s.cluster g).opnow 0 ≠ 0
  let open_ (s : State) : Prop := cool s ∧ point ≤ (v s).maxop.toNat ∧ us ≤ (v s).maxus.toNat
  let top (s : State) (n : Nat) : Nat := max n (c s).opnow
  let paid (s : State) (n : Nat) : Prop := within s x.cluster (top s n) s.sprintw.toNat (others s)
  let cold (s : State) (n : Nat) : Prop := within s x.cluster (top s n) (c s).cshare.toNat 0
  let k (s : State) : Nat := min point (v s).maxop.toNat
  let d (s : State) : Nat := min us (v s).maxus.toNat
  [ ⟨.leaseRequest, fun s => Requests s i x r us point hard ∧ ¬MayLease s x hard, fun s t => OnlyRefused s t r ∧ LeaseAnswer s t r 4⟩,
    ⟨.leaseRequest, fun s => Requests s i x r us point hard ∧ MayLease s x hard ∧ Clamped s i x,
      fun s t => OnlyRefused s t r ∧ LeaseAnswer s t r 3⟩,
    ⟨.leaseRequest, fun s => fits s ∧ (c s).melt = .refreeze, fun s t => OnlyRefused s t r ∧ LeaseAnswer s t r 1⟩,
    ⟨.leaseRequest, fun s => open_ s ∧ ¬paid s point, fun s t => OnlyRefused s t r ∧ LeaseAnswer s t r 2⟩,
    ⟨.leaseRequest, fun s => open_ s ∧ paid s point ∧ ¬cold s point ∧ usLeft s x.cluster (top s point) < 100,
      fun s t => OnlyRefused s t r ∧ LeaseAnswer s t r 5⟩,
    ⟨.leaseRequest, fun s => open_ s ∧ paid s point ∧ cold s point, fun s t => Granted s t i x r us point hard ∧ t.vfs = s.vfs⟩,
    ⟨.leaseRequest, fun s => open_ s ∧ paid s point ∧ ¬cold s point ∧ 100 ≤ usLeft s x.cluster (top s point),
      fun s t => Granted s t i x r (min us (usLeft s x.cluster (top s point))) point hard ∧ t.vfs = s.vfs⟩,
    ⟨.leaseRequest, fun s => cool s ∧ ((v s).maxop.toNat < point ∨ (v s).maxus.toNat < us) ∧ paid s (k s) ∧ cold s (k s),
      fun s t => Granted s t i x r (d s) (k s) hard ∧ t.vf x.vf = { v s with satcnt := BitVec.ofNat 16 (min 0xFFFF ((v s).satcnt.toNat +
        (if (v s).maxop.toNat < point then 1 else 0) + (if (v s).maxus.toNat < us then 1 else 0))) }⟩ ]

/-- A lease of a slot is gone and its instance knows the reason (R115). -/
def Ended (s t : State) (g k : Nat) (l : Lease) (reason : Nat) : Prop :=
  t = { s with
    clusters := t.clusters, insts := t.insts, ctrlQ := t.ctrlQ, elems := t.elems, contexts := t.contexts } ∧ OnlyAnswers s t ∧
  (∀ n, n ≠ g → t.cluster n = s.cluster n) ∧ (∀ n, n ≠ l.inst → t.insts.find n = s.insts.find n) ∧
  (t.cluster g).slots = (s.cluster g).slots.set k none ∧
  (t.cluster g).melt = (if (s.cluster g).melt = .sprint ∧ ∀ y ∈ (s.cluster g).slots.set k none, y = none then
    (if (s.cluster g).hyst = true ∧ (s.cluster g).rearm.toNat ≤ (s.cluster g).heat.toNat / 65536 then .refreeze else .cool)
    else (s.cluster g).melt) ∧
  ∀ x, s.insts.find l.inst = some x → ∃ y, t.insts.find l.inst = some y ∧ y.ended.head? = some (l.handle, reason) ∧
    (x.leasePort.isSome = true → y.leaseBuf.length = x.leaseBuf.length + 1)

/-- RAIL_REACHED, LEASE_EXPIRY, LEASEEND_REQUEST and LEASE_BUFFER_ENQUEUE (R107, R111, R115 to R117, R334, R335). -/
def leaseEvents (g k i : Nat) (l : Lease) (r : CtrlReq) (h : Word) (tm eid : Nat) (q : Fin 4) (tok : Token) (rest : List Token)
    (x : Inst) (y : Launch) (a b : Task) (j : Nat) : List EventRule :=
  let live (s : State) : Prop := nth (s.cluster g).slots k none = some l ∧ g < s.clusters.length
  let expires (s : State) : Prop := s.subject = (g, k) ∧ live s ∧ l.begin_ = some tm ∧ tm + l.us * 1000 ≤ s.now ∧
    s.ctrlTurn [tm + l.us * 1000, g, 2, k] = true ∧ ∀ n w, nth (s.cluster g).slots n none = some w → w.asked = []
  let asks (s : State) : Prop := s.subject.1 = i ∧ s.ctrlOf i false = some r ∧ r.ask = .inl h ∧ s.ctrlTurn r.key = true ∧ r.cluster = g
  let reason (s t : State) (n : Nat) : Prop := ∀ e, r.entry = some e →
    Answered s t r.eid e (fun tag => ⟨lanesOfList [BitVec.ofNat 32 n], tag, none⟩)
  [ ⟨.railReached, fun s => s.subject = (g, k) ∧ live s ∧ l.begin_ = none ∧ (s.cluster g).rampEnd ≤ s.now,
      fun s t => t = { s with clusters := t.clusters, elems := t.elems, contexts := t.contexts } ∧ OnlyAnswers s t ∧
        (∀ n, n ≠ g → t.cluster n = s.cluster n) ∧
        t.cluster g = { s.cluster g with slots := (s.cluster g).slots.set k (some { l with begin_ := some s.now }) } ∧ ∀ e, l.entry = some e →
          Answered s t l.eid e (fun tag => ⟨lanesOfList [0, BitVec.ofNat 32 l.us, l.handle], tag, none⟩)⟩,
    ⟨.leaseExpiry, fun s => expires s ∧ l.hard = false, fun s t => Ended s t g k l 2 ∧ t.elems = s.elems ∧ t.ctrlQ = s.ctrlQ⟩,
    ⟨.leaseExpiry, fun s => expires s ∧ MayTrap s g k l x y a b j,
      fun s t => (t.cluster g).slots = (s.cluster g).slots.set k none ∧ t.elems = s.elems ∧ Trapped s t g l x a b j 2⟩,
    ⟨.leaseendRequest, fun s => asks s ∧ live s ∧ l.handle = h ∧ (s.cluster g).slotOf i h = some k ∧ l.begin_.isSome = true ∧
        (s.insts.find i).isSome = true,
      fun s t => Ended s t g k l 1 ∧ reason s t 1 ∧ t.ctrlQ = s.ctrlQ.erase r⟩,
    ⟨.leaseendRequest, fun s => asks s ∧ (s.cluster g).slotOf i h = none ∧ ∀ x, s.insts.find i = some x → ∀ e ∈ x.ended, e.1 ≠ h,
      fun s t => reason s t 0 ∧ t = { s with ctrlQ := s.ctrlQ.erase r, elems := t.elems, contexts := t.contexts } ∧ OnlyAnswers s t⟩,
    becomes .leaseBufferEnqueue
      (fun s => s.subject.1 = i ∧ (∃ x, s.insts.find i = some x ∧ x.leaseBuf = tok :: rest ∧ x.leasePort = some (eid, q)) ∧
        (s.elem eid).inst = some i ∧ (s.elem eid).inRoom q.val = true ∧ (s.elem eid).state = .run ∧ (s.tile (tileOf eid)).hopsStopped = false)
      (fun s => putIn eid q.val tok (s.modInst i (fun x => { x with leaseBuf := rest }))) ]

/-! ## The Starter: launches and tasks -/

/-- The launch and task that an event without operands is about. -/
def About (s : State) (l k : Nat) (x : Launch) (a : Task) : Prop :=
  s.subject = (l, k) ∧ s.launches.find l = some x ∧ x.tasks[k]? = some a

/-- A task as a state holds it. -/
def TaskIs (t : State) (l k : Nat) (p : Task → Prop) : Prop := ∃ b, t.task? l k = some b ∧ p b

/-- The final status of a task (R40, R77). -/
def finalStatus (a : Task) : Status := if a.failedN = 0 ∧ a.reason = 0 then .done else if a.cancelled = true then .cancelled else .faulted

/-- The status of a launch, and how many of its tasks are not DONE (R41, R66). -/
def launchStatus (l : List Task) : Nat :=
  if ∃ a ∈ l, a.status = .faulted then 3 else if ∃ a ∈ l, a.status = .cancelled then 4 else 2
def notDone (l : List Task) : Nat := (l.filter (fun a => a.gw.predN ≠ 255 ∧ a.status ≠ .done)).length

/-- A message from the device to a VF (R41). -/
def noticed (v : Nat) (amop : BitVec 8) (operand : Nat) (cont : Nat) (s : State) : State :=
  s.modVf v (fun x => { x with
    out := x.out ++ [⟨amop, x.outSeq, BitVec.ofNat 32 operand, BitVec.ofNat 64 cont, none⟩], outSeq := x.outSeq + 1 })

/-- GRAPH_WALK: every node reached is a task, and the root is ready as from the acceptance; or the launch ends with COMPLETE (R65, R67). -/
def walkGraphRules (l : Nat) (x : Launch) (nodes : List GraphNode) : List EventRule :=
  let visits (s : State) : List GraphNode × Option (Nat × VisitStop) :=
    s.visitAll x.vf (s.tableRoom (s.homeOf x.part)) 300000 [x.root] []
  let due (s : State) : Prop := s.subject.1 = l ∧ s.launches.find l = some x ∧ x.walked = false
  [ ⟨.graphWalk, fun s => due s ∧ visits s = (nodes, none) ∧ countFault nodes = none ∧
        (∀ n, nodes.head? = some n → n.gw.ttCount ≠ 0 ∧ s.rects x.part n.gw.w n.gw.h ≠ []),
      fun s t => t = { s with
          launches := t.launches, parts := t.parts, readyN := s.readyN + 1, vfs := t.vfs, elems := t.elems, contexts := t.contexts,
          remoteOut := t.remoteOut } ∧ OnlyAnswers s t ∧
        (∀ m, m ≠ l → t.launches.find m = s.launches.find m) ∧ ∃ y, t.launches.find l = some y ∧ y.walked = true ∧ y.root = x.root ∧ y.tasks.length = nodes.length ∧
        ∀ k n, nodes[k]? = some n → ∃ b : Task, y.tasks[k]? = some b ∧ b.va = n.va ∧ b.gw = n.gw ∧ b.params = n.params ∧
          b.pending = n.gw.predN ∧ b.ready = decide (k = 0) ∧ (k = 0 → b.readySeq = x.order ∧ b.levelSince = x.since) ∧ b.doneN = 0 ∧ b.failedN = 0 ∧ b.status = .idle⟩,
    ⟨.graphWalk, fun s => due s ∧ ∃ va a, (visits s).2 = some (va, .waits a), fun s t => OnlyAsks s t (.graph l)⟩,
    ⟨.graphWalk, fun s => due s ∧ (s.vf x.vf).orders = [] ∧
        ((∃ va g, (visits s).2 = some (va, .fails g)) ∨ (visits s).2 = none ∧ (countFault (visits s).1).isSome = true),
      fun s t => t.launches.find l = none ∧ t.insts = s.insts ∧ t.elems = s.elems ∧ t.tiles = s.tiles ∧
        (∀ m, m ≠ l → t.launches.find m = s.launches.find m) ∧
        (NoWrites t ∧ s.closings = [] → t.closings = [] ∧
          ∃ o, (t.vf x.vf).out.getLast? = some o ∧ o.amop = 0x80 ∧ o.operand.toNat % 256 = 3) ∧
        (¬NoWrites t ∨ s.closings ≠ [] → t.vfs = s.vfs ∧
          ∃ b operand, t.closings = s.closings ++ [.graph x b (10, 1) operand] ∧ operand.toNat % 256 = 3)⟩ ]

/-- AGING, TASK_FINAL, COMPLETION_PROGRESS_WRITE, FAULTNOTE, COMPLETE and RATE_CAP_SECOND (R37 to R41, R55, R66 to R68, R76, R77). -/
def taskRules (l k : Nat) (x : Launch) (a : Task) (n : Nat × Nat) (p : Nat) : List EventRule :=
  let home (s : State) (pa : Nat) : Prop := Memory.wf s.hbm = true ∧ s.storeHome x.vf a.gw.completionVa = some (.hbm pa) ∧
    ∀ j < 64, s.scrubbing (pa + j) = false
  let heard (t : State) (status : Status) : Prop := ∀ j b, a.succ = [j] → j ≠ k → x.tasks[j]? = some b → b.gw.predN ≠ 255 →
    b.final = false → status = .done → TaskIs t l j (fun c => c.pending = b.pending - 1)
  let aged (s : State) : Prop := About s l k x a ∧ a.ready = true ∧ a.level < 6 ∧ a.levelSince + 10000000 ≤ s.now
  [ becomes .aging (fun s => aged s ∧ x.stopped = false)
      (fun s => s.modTask l k (fun b => { b with level := b.level + 1, levelSince := s.now })),
    becomes .aging (fun s => About s l k x a ∧ (a.ready = false ∨ x.stopped = true)) (fun s => s),
    ⟨.taskFinal, fun s => About s l k x a ∧ x.walked = true ∧ a.telling = false ∧ a.final = false ∧ a.doneN + a.failedN = a.gw.ttCount ∧ a.pre = [] ∧
        s.instsOf l k = [] ∧ (a.gw.ttCount ≠ 0 ∨ a.ready = true ∨ a.stopped = true) ∧ a.gw.predN ≠ 255,
      fun s t => TaskIs t l k (fun b => b.final = true ∧ b.status = finalStatus a ∧ b.end_ = s.now ∧ b.ready = false ∧
          b.doneN = a.doneN ∧ b.failedN = a.failedN) ∧ t.insts = s.insts ∧ t.elems = s.elems ∧ t.tiles = s.tiles ∧
        (∀ m, m ≠ l → t.launches.find m = s.launches.find m) ∧
        (∀ pa, home s pa → (byteAt t.hbm pa).toNat = (match finalStatus a with
            | .done => 2
            | .cancelled => 4
            | _ => 3) ∧
          bytesAt t.hbm (pa + 0x20) 8 = leBytes 8 ((s.srcSeqs.find pa).getD 0 + 1) ∧
          t.srcSeqs.find pa = some ((s.srcSeqs.find pa).getD 0 + 1)) ∧
        (∀ pa, home s pa → NoWrites s → TaskIs t l k (fun b => b.telling = false) ∧ heard t (finalStatus a)) ∧
        ∀ pa, home s pa → ¬NoWrites s → TaskIs t l k (fun b => b.telling = true) ∧ ∀ j, j ≠ k → t.task? l j = s.task? l j⟩,
    ⟨.taskFinal, fun s => About s l k x a ∧ a.telling = true ∧ NoWrites s ∧ a.gw.predN ≠ 255,
      fun s t => TaskIs t l k (fun b => b.telling = false ∧ b.status = a.status) ∧ heard t a.status ∧
        t = { s with launches := t.launches, parts := t.parts, readyN := t.readyN }⟩,
    becomes .taskFinal (fun s => About s l k x a ∧ a.telling = true ∧ ¬NoWrites s) id,
    ⟨.completionProgressWrite, fun s => About s l k x a ∧ a.dirty = true ∧ a.final = false ∧ a.status ≠ .idle,
      fun s t => TaskIs t l k (fun b => b.dirty = false ∧ b.wrote = s.now ∧ b.doneN = a.doneN ∧ b.failedN = a.failedN) ∧
        t.insts = s.insts ∧ t.elems = s.elems ∧ t.tiles = s.tiles ∧ (∀ m, m ≠ l → t.launches.find m = s.launches.find m) ∧
        (∀ j, j ≠ k → t.task? l j = s.task? l j) ∧ ∀ pa, home s pa → bytesAt t.hbm (pa + 8) 8 = leBytes 4 a.doneN ++ leBytes 4 a.failedN ∧
          t.srcSeqs.find pa = some ((s.srcSeqs.find pa).getD 0 + 1)⟩,
    ⟨.faultnote, fun s => About s l k x a ∧ a.note = some n ∧ a.noted = false ∧ x.vf ≠ 511 ∧ NoWrites s,
      fun s t => t = { s.modTask l k (fun b => { b with noted := true }) with vfs := t.vfs, parts := t.parts } ∧
        (∀ p, t.part p = { s.part p with rate := (t.part p).rate, drops := (t.part p).drops }) ∧
        (∀ v, v ≠ x.vf → v ≠ 511 → t.vf v = s.vf v) ∧
        (∃ o, (t.vf 511).out = (s.vf 511).out ++ [o] ∧ o.amop = 0x81 ∧ o.operand.toNat % 256 = n.1 % 256 ∧
          o.cont = BitVec.ofNat 64 a.gw.completionVa) ∧
        t.vf x.vf = (noticed x.vf 0x81 (n.1 + n.2 * 2 ^ 8 + a.gw.taskId * 2 ^ 16) a.gw.completionVa s).vf x.vf⟩,
    becomes .complete
      (fun s => s.subject.1 = l ∧ s.launches.find l = some x ∧ x.walked = true ∧ (∀ b ∈ x.tasks, b.final = true ∧ b.runs = 0) ∧
        (∀ b ∈ x.tasks, b.note.isSome = true → b.noted = true) ∧ NoWrites s)
      (fun s => noticed x.vf 0x80 (launchStatus x.tasks + min (notDone x.tasks) 0xFFFF * 2 ^ 16)
        ((x.tasks.head?.map (fun b => b.gw.completionVa)).getD 0) { s with launches := s.launches.drop l }),
    becomes .faultnote (fun s => About s l k x a ∧ ¬NoWrites s) id,
    becomes .complete (fun s => s.subject.1 = l ∧ s.launches.find l = some x ∧ ¬NoWrites s) id,
    ⟨.rateCapSecond p, fun s => s.now % 10 ^ 9 = 0 ∧ p < s.parts.length,
      fun s t => (∀ c, c ≠ 13 → nth (t.part p).rate c 0 = 0 ∧ nth (t.part p).drops c 0 = nth (s.part p).drops c 0) ∧
        (∃ links, (∀ r ∈ links, r.cls = 13) ∧ t.operLog = s.operLog ++ links ++
          (s.clustersOf p).map (fun g => ⟨15, some p, 0, s.now, [g, (s.cluster g).granted, (s.cluster g).refusedN], true⟩)) ∧
        (p = 0 → ∀ k y, s.eth[k]? = some y → ∃ fec crc trained,
          ⟨13, none, 36 + k, s.now, [fec, crc, trained, y.discarded], false⟩ ∈ t.operLog) ∧
        (p = 0 → ∀ k y, s.aqric[k]? = some y → ∃ fec crc trained,
          ⟨13, none, k, s.now, [fec, crc, trained, y.replays], false⟩ ∈ t.operLog) ∧
        ((policyEntry (s.part p).active 13).level = 3 → (policyEntry (s.part p).active 13).rate = 31 → ∀ c ∈ (s.part p).flowCounts,
          ⟨13, some p, 0, s.now, [c.eid, c.strm, c.txFrames, c.txBytes, c.rxFrames, c.rxBytes, c.discarded], false⟩ ∈ t.operLog) ∧
        (t.part p).flowCounts = [] ∧
        (∀ g ∈ s.clustersOf p, t.cluster g = { s.cluster g with granted := 0, refusedN := 0 }) ∧
        (∀ g, g ∉ s.clustersOf p → t.cluster g = s.cluster g) ∧ (∀ q, q ≠ p → t.part q = s.part q) ∧
        t = { s with clusters := t.clusters, parts := t.parts, operLog := t.operLog }⟩ ]

/-! ## The Starter: instances -/

/-- The instance that an event without operands is about, with its task. -/
def Concerns (s : State) (i : Nat) (x : Inst) (a : Task) : Prop :=
  s.subject.1 = i ∧ s.insts.find i = some x ∧ s.task? x.launch x.task = some a

/-- BINDING_DECISION and MINRES_REACHED (R69 to R71, R74, R79). -/
def bindRules (p l k : Nat) (x : Launch) (a : Task) (o : Nat × Nat × Nat) (i : Nat) (y : Inst) : List EventRule :=
  let begun (s : State) : State := s.modPart p (fun z => { z with decide_ := false })
  let u (s : State) : State := (begun s).pruneTask l k
  [ becomes (.bindingDecision p) (fun s => (s.part p).decide_ = true ∧ s.readyList p = []) begun,
    ⟨.bindingDecision p, fun s => (s.part p).decide_ = true ∧ ∃ a, s.bindStop p = some a, fun s t => OnlyAsks s t (.bind p)⟩,
    ⟨.bindingDecision p, fun s => (s.part p).decide_ = true ∧ s.bindStop p = none ∧ (begun s).readyList p = [(l, k)] ∧ (u s).readyList p = [(l, k)] ∧
        (u s).launches.find l = some x ∧ x.tasks[k]? = some a ∧ a.ready = true ∧ a.final = false ∧ a.gw.ordered = false ∧ a.pre = [] ∧
        a.gw.instances = 1 ∧ a.gw.replicate = false ∧ a.stopped = false ∧ a.nextIdx < a.gw.ttCount ∧ (u s).instsOf l k = [] ∧
        (u s).residentMatch l k x.vf x.part a.gw = none ∧ (u s).freeFit l k x.part a.gw.w a.gw.h = some o ∧
        (u s).placePending o a.gw.w a.gw.h = false,
      fun s t => ∃ z, t.insts.find s.nextId = some z ∧ z.launch = l ∧ z.task = k ∧ z.num = 0 ∧ z.vf = x.vf ∧ z.part = x.part ∧
        z.cluster = o.1 ∧ z.row0 = o.2.1 ∧ z.col0 = o.2.2 ∧ z.w = a.gw.w ∧ z.h = a.gw.h ∧ z.phase = .relay ∧ z.held = [] ∧
        z.level = a.level ∧ TaskIs t l k (fun b => b.bound = true ∧ b.ready = false ∧
          (a.bound = false → b.status = .running ∧ b.start = s.now)) ∧
        t.elems = s.elems ∧ (∀ j, j ≠ s.nextId → t.insts.find j = s.insts.find j) ∧ (∀ n, n ∉ z.tiles → t.tile n = s.tile n) ∧
        (∀ n ∈ z.tiles, t.tile n = { s.tile n with gate := (t.tile n).gate } ∧ (t.tile n).gate ≠ .gated ∧ (t.tile n).gate ≠ .closing) ∧
        ∀ m, m ≠ l → t.launches.find m = s.launches.find m⟩,
    becomes (.bindingDecision p) (fun s => (s.part p).decide_ = true ∧ s.bindStop p = none ∧ (begun s).readyList p = [(l, k)] ∧ (u s).readyList p = [(l, k)] ∧
        (u s).launches.find l = some x ∧ x.tasks[k]? = some a ∧ a.pre = [] ∧ (u s).residentMatch l k x.vf x.part a.gw = none ∧
        (u s).freeFit l k x.part a.gw.w a.gw.h = some o ∧ (u s).placePending o a.gw.w a.gw.h = true) u,
    becomes .minresReached
      (fun s => s.subject.1 = i ∧ s.insts.find i = some y ∧ y.phase = .run ∧ y.minresTaken = false ∧
        y.commitTime + (s.part y.part).minres.toNat * 1000 ≤ s.now)
      (fun s => (s.modInst i (fun z => { z with minresTaken := true })).modPart y.part (fun z => { z with decide_ := true })) ]

/-- RELAY_STAGED, CONFIG_FETCH_FAULT, RESTORE_DONE and COMMIT_WAVE (R78 to R80, R102, R103, R255). -/
def relayRules (i : Nat) (x : Inst) (a : Task) (im : Image) (f : ImgFail) (c : Context) (n : Nat) : List EventRule :=
  let clear (s : State) : Prop := ∀ e ∈ x.elems, (s.elem e).state = .unoccupied ∧ (s.elem e).inst = none
  let relays (s : State) : Prop := Concerns s i x a ∧ x.phase = .relay ∧ s.instsOf x.launch x.task = [(i, x)] ∧ a.pre = [] ∧
    a.gw.replicate = false
  let resumes (s : State) : Prop := Concerns s i x a ∧ x.phase = .relay ∧ x.ctx = some n ∧ s.contexts.find n = some c ∧ clear s ∧
    s.poolWaits x.part c.unit0 c.units = false
  [ ⟨.relayStaged, fun s => Concerns s i x a ∧ x.phase = .relay ∧ x.ctx = none ∧ clear s ∧ ∃ r, s.instStop x = some r,
      fun s t => OnlyAsks s t (.image i)⟩,
    ⟨.relayStaged, fun s => Concerns s i x a ∧ x.phase = .relay ∧ x.ctx = none ∧ clear s ∧ s.instStop x = none ∧ s.instImage x = .ok im,
      fun s t => t.insts.find i = some { x with
          phase := .staged, hash := im.hash, baton := x.place.port im.baton, leasePort := x.place.port im.lease } ∧ t.hbm = s.hbm ∧
        (∀ e ∈ x.elems, (t.elem e).staged = .relay i (((im.banks.find? (fun b => b.1 = e)).map (·.2)).getD Bank.empty) ∧
          t.elem e = { s.elem e with staged := (t.elem e).staged }) ∧
        (∀ n ∈ x.tiles, t.tile n = { s.tile n with retained := (t.tile n).retained }) ∧ Untouched s t x.elems [i] x.tiles ∧
        t = { s with
          insts := t.insts, elems := t.elems, tiles := t.tiles, walkCache := t.walkCache, parts := t.parts, operLog := t.operLog }⟩,
    ⟨.configFetchFault, fun s => relays s ∧ x.ctx = none ∧ ∃ r, s.instStop x = some r, fun s t => OnlyAsks s t (.image i)⟩,
    becomes .configFetchFault (fun s => relays s ∧ x.ctx = none ∧ s.instStop x = none ∧ s.instImage x = .error f ∧
        s.recordsWait x.part (s.imageRecord x f).1 = true) (fun s => s),
    ⟨.configFetchFault, fun s => relays s ∧ x.ctx = none ∧ s.instStop x = none ∧ (s.cluster x.cluster).old = none ∧ s.instImage x = .error f ∧ s.recordsWait x.part (s.imageRecord x f).1 = false,
      fun s t => t.insts.find i = none ∧ (∀ e ∈ x.elems, t.elem e = { s.elem e with staged := .none, ans := (t.elem e).ans }) ∧
        (∀ n ∈ x.tiles, t.tile n = { s.tile n with retained := none, sweep := none }) ∧ Untouched s t x.elems [i] x.tiles ∧
        TaskIs t x.launch x.task (fun b => b.stopped = true ∧ b.ready = false ∧ b.reason = (if a.reason = 0 then 1 else a.reason) ∧
          b.failedN = a.failedN + (a.gw.ttCount - a.nextIdx) ∧ b.nextIdx = a.gw.ttCount)⟩,
    ⟨.restoreDone, fun s => resumes s ∧ s.contextReads x c = true ∧ footprintOf s x ≠ 0 ∧ x.tiles ≠ [] ∧
        ∀ n ∈ x.tiles, (s.tile n).sweep = none ∧ (s.tile n).gate = .powered,
      fun s t => t = { s with tiles := t.tiles } ∧ (∀ n, n ∉ x.tiles → t.tile n = s.tile n) ∧ ∀ n ∈ x.tiles,
        t.tile n = { s.tile n with sweep := some (Sweep.start true (footprintOf s x) (c.sramOf x n).1 (c.sramOf x n).2) }⟩,
    becomes .restoreDone (fun s => resumes s ∧ s.contextReads x c = true ∧ (∃ n ∈ x.tiles, (s.tile n).sweep ≠ none) ∧
        ∃ n ∈ x.tiles, (s.tile n).swept = false) id,
    ⟨.restoreDone, fun s => resumes s ∧ s.contextReads x c = true ∧ x.tiles ≠ [] ∧ ∀ n ∈ x.tiles, (s.tile n).swept = true,
      fun s t => t = { s with tiles := t.tiles, insts := t.insts } ∧ t.insts.find i = some { x with phase := .staged } ∧
        (∀ n ∈ x.tiles, t.tile n = { s.tile n with sweep := none }) ∧ Untouched s t [] [i] x.tiles⟩,
    becomes .restoreDone (fun s => s.subject.1 = i ∧ s.insts.find i = some x ∧ x.phase = .relay ∧ x.ctx = some n ∧
        s.contexts.find n = some c ∧ s.poolWaits x.part c.unit0 c.units = true) id,
    ⟨.restoreDone, fun s => relays s ∧ resumes s ∧ s.contextReads x c = false ∧ (s.cluster x.cluster).old = none,
      fun s t => t.insts.find i = none ∧ t.contexts.find n = none ∧ (∀ n ∈ x.tiles, t.tile n = { s.tile n with sweep := none }) ∧
        Untouched s t [] [i] x.tiles ∧
        TaskIs t x.launch x.task (fun b => b.stopped = true ∧ b.failedN = a.failedN + x.held.length + (a.gw.ttCount - a.nextIdx))⟩,
    ⟨.commitWave, fun s => s.subject.1 = i ∧ s.insts.find i = some x ∧ x.phase = .staged ∧ clear s ∧ ∀ n ∈ x.tiles, (s.tile n).gate = .powered,
      fun s t => t.insts.find i = some { x with phase := .commit } ∧ t.elems = s.elems ∧ t.hbm = s.hbm ∧ (x.ctx.isSome = true → t.tiles = s.tiles) ∧
        (x.ctx = none → ∀ n ∈ x.tiles, (t.tile n).sram = [] ∧ (t.tile n).sramPoison = [])⟩ ]

/-- The bank that an element commits: an AG's c6 and c7 hold PARAM_VA (R74). -/
def committed (s : State) (e va : Nat) : Bank :=
  let b := (s.elem e).staged.bank
  if elemType e = .ag then { b with consts := (b.consts.set 6 (BitVec.ofNat 32 va)).set 7 (BitVec.ofNat 32 (va / 2 ^ 32)) } else b

/-- A token as a resume gives it back: its log starts afresh (R92, R102). -/
def resumed (now : Nat) (l : List Token) : List Token :=
  l.map (fun t => { t with pacer := t.pacer.map (fun g => { g with birth := now }) })

/-- COMMIT_DONE without a context, and of a resumed instance (R74, R79, R82, R86, R97, R102, R126, R136). -/
def commitRules (i : Nat) (x : Inst) (a : Task) (n : Nat) (c : Context) : List EventRule :=
  let port (p : Option (Nat × Fin 4)) : Option (Nat × Fin 4) := p.map (fun p => (movedElem c.inst x p.1, p.2))
  let gen (s : State) : Nat := ((x.tiles.map (fun n => (s.tile n).gen)).foldl max 0 + 1) % 65536
  [ ⟨.commitDone, fun s => Concerns s i x a ∧ x.phase = .commit ∧ x.ctx = none ∧ x.waiting = none ∧ x.finInjected = false ∧ x.boundary = false ∧
        x.elems.Nodup ∧ x.tiles.Nodup ∧ s.instsOf x.launch x.task = [(i, x)] ∧ 0 < a.unissued x.num,
      fun s t => t.insts.find i = some { x with
          phase := .run, gen := gen s, bucket := (s.cluster x.cluster).injDepth.toNat, commitTime := s.now, yielded := false,
          minresTaken := false, ctx := none, again := false } ∧ t.hbm = s.hbm ∧ Untouched s t x.elems [i] x.tiles ∧ TaskIs t x.launch x.task (fun b => b.gen = gen s) ∧
        (∀ e ∈ x.elems,
          let y := t.elem e
          y.state = .run ∧ y.inst = some i ∧ y.bank = committed s e a.gw.paramVa ∧ y.en = (committed s e a.gw.paramVa).initEn ∧
          (∀ k < 8, nth y.p k .no = if (committed s e a.gw.paramVa).initPred.getLsbD k then .yes else .no) ∧
          y.v = List.replicate 8 (Lanes.all 0) ∧ y.a = List.replicate 4 0 ∧ y.credits = List.replicate 16 8 ∧ y.inflight = [] ∧
          y.oq = List.replicate 4 [] ∧ y.flags = 0 ∧ y.staged = .none) ∧
        ∀ n ∈ x.tiles, (t.tile n).gen = gen s ∧ (t.tile n).endpoints = (((s.tile n).retained.map (·.endpoints)).getD (List.replicate 16 0)) ∧
          (t.tile n).sram = (s.tile n).sram⟩,
    ⟨.commitDone, fun s => Concerns s i x a ∧ x.phase = .commit ∧ x.ctx = some n ∧ s.contexts.find n = some c ∧ x.waiting = none ∧
        x.boundary = false ∧ c.inst.finInjected = false ∧ x.elems.Nodup ∧ x.tiles.Nodup ∧ c.inst.part < s.parts.length ∧
        s.instsOf x.launch x.task = [(i, x)] ∧ (x.held ≠ [] ∨ 0 < a.unissued x.num) ∧
        ∀ e ∈ c.elements, e.inst = some i ∧ e.reissue = [],
      fun s t => t.insts.find i = some { x with
          phase := .run, gen := gen s, bucket := (s.cluster x.cluster).injDepth.toNat, commitTime := s.now, yielded := false,
          minresTaken := false, ctx := none, again := false, baton := port c.inst.baton, leasePort := port c.inst.leasePort,
          hash := c.inst.hash, watchdog := c.inst.watchdog, leaseBuf := c.inst.leaseBuf, ended := c.inst.ended, finInjected := false,
          farOut := c.inst.farOut } ∧
        t.hbm = s.hbm ∧ t.contexts.find n = none ∧ TaskIs t x.launch x.task (fun b => b.gen = gen s) ∧
        (t.part c.inst.part).poolRuns = (s.part c.inst.part).poolRuns.filter (fun r => r.1 ≠ c.unit0) ∧
        (∀ j, j ≠ i → t.insts.find j = s.insts.find j) ∧ (∀ n, n ∉ x.tiles → t.tile n = s.tile n) ∧
        (∀ e, e ∉ x.elems → t.elem e = { s.elem e with credits := (t.elem e).credits, withdrawn := (t.elem e).withdrawn }) ∧
        (∀ (k e : Nat) (y : Element), x.elems[k]? = some e → c.elements[k]? = some y → t.elem e = { y with
          state := y.before, staged := .none,
          bank := (if elemType e = .ag then { y.bank with
            consts := (y.bank.consts.set 6 (BitVec.ofNat 32 a.gw.paramVa)).set 7 (BitVec.ofNat 32 (a.gw.paramVa / 2 ^ 32)) } else y.bank),
          iq := y.iq.map (resumed s.now), oq := y.oq.map (resumed s.now), rb := y.rb.map (fun r => (resumed s.now r.toList).head?),
          counters := List.replicate 3 { }, credits := (t.elem e).credits, withdrawn := (t.elem e).withdrawn }) ∧
        ∀ (k m : Nat) (y : Tile), x.tiles[k]? = some m → c.tiles[k]? = some y → (t.tile m).gen = gen s ∧ (t.tile m).endpoints = y.endpoints ∧
          (t.tile m).sram = (s.tile m).sram.filter (fun b => b.1 < 1024 * a.gw.footprint) ∧
          (t.tile m).sramPoison = (s.tile m).sramPoison.filter (fun w => w < 128 * a.gw.footprint) ∧
          (t.tile m).retained = none ∧ (t.tile m).hopsStopped = false ∧ (t.tile m).epBuf.map List.length = y.epBuf.map List.length ∧
          (t.tile m).copies.map (fun d => (d.id, d.performed, d.dir, d.va, d.laddr, d.len)) =
            y.copies.map (fun d => (d.id, d.performed, d.dir, d.va, d.laddr, d.len))⟩ ]

/-- BATON and TDONE_ACCOUNTING (R59, R75, R76, R215). -/
def batonRules (i : Nat) (x : Inst) (a : Task) (eid : Nat) (q : Fin 4) (d : TDone) (rest : List TDone) (j : Nat) (z : Inst) :
    List EventRule :=
  let due (s : State) : Prop := Concerns s i x a ∧ x.baton = some (eid, q) ∧ s.batonDue x a = true ∧ a.gw.replicate = false ∧ x.feed = [] ∧
    (∀ y ∈ s.insts, y.2.launch = x.launch → y.2.task = x.task → x.num ≤ y.2.num) ∧ (s.elem eid).inRoom q.val = true ∧
    (s.elem eid).state = .run
  let others (s : State) (held : List Nat) (more : Bool) : Prop := ∀ y ∈ s.instsOf x.launch x.task, ∀ z, s.insts.find y.1 = some z →
    (if y.1 = i then held ≠ [] else z.held ≠ [] ∨ (more = true ∧ z.boundary = false))
  [ ⟨.baton, fun s => due s ∧ others s [a.nextIdx] (decide (a.nextIdx + 1 < a.gw.ttCount)),
      fun s t => (∃ y, t.insts.find i = some y ∧ y.held = x.held ++ [a.nextIdx] ∧ y.feed = [] ∧ y.policy = (s.part x.part).active) ∧
        TaskIs t x.launch x.task (fun b => b.nextIdx = a.nextIdx + 1) ∧ t.hbm = s.hbm ∧
        Untouched s t [eid] [i] [] ∧ (∀ m, m ≠ x.launch → t.launches.find m = s.launches.find m) ∧
        (t.elem eid).iq = upd (s.elem eid).iq q.val (fun l => l ++ [⟨lanesOfList
          ([BitVec.ofNat 32 a.nextIdx, BitVec.ofNat 32 x.num, BitVec.ofNat 32 a.gw.ttCount] ++
            (if a.gw.batonVa = 0 then [] else a.params.take 13)), 0, none⟩])⟩,
    ⟨.baton, fun s => due s ∧ a.nextIdx + 1 = a.gw.ttCount ∧ a.ready = true ∧ a.pre = [] ∧ j ≠ i ∧
        (∀ y ∈ s.instsOf x.launch x.task, y.1 = i ∨ y.1 = j) ∧ (∃ y ∈ s.instsOf x.launch x.task, y.1 = j) ∧ s.insts.find j = some z ∧
        z.phase = .run ∧ z.stop = .none ∧ z.faulted = false ∧ z.finInjected = false ∧ z.held = [] ∧ z.tdones = [],
      fun s t => (∃ y, t.insts.find i = some y ∧ y.held = x.held ++ [a.nextIdx]) ∧ t.hbm = s.hbm ∧
        (∀ m, m ≠ x.launch → t.launches.find m = s.launches.find m) ∧
        (∃ y, t.insts.find j = some y ∧ y.finInjected = true ∧ y.phase = .teardown) ∧
        TaskIs t x.launch x.task (fun b => b.nextIdx = a.gw.ttCount ∧ b.ready = false ∧ b.reserved = [])⟩,
    ⟨.tdoneAccounting, fun s => Concerns s i x a ∧ x.tdones = d :: rest ∧ x.faulted = false ∧ d.index ∈ x.held ∧
        s.askStops (s.statsReach x) = true,
      fun s t => OnlyAsks s t (.report i)⟩,
    ⟨.tdoneAccounting, fun s => Concerns s i x a ∧ x.tdones = d :: rest ∧ x.faulted = false ∧ d.index ∈ x.held ∧ a.gw.replicate = false ∧
        s.askStops (s.statsReach x) = false,
      fun s t => (∃ y, t.insts.find i = some y ∧ y.held = x.held.erase d.index ∧ y.tdones = rest ∧ y.policy = (s.part x.part).active) ∧
        TaskIs t x.launch x.task (fun b => b.doneN = a.doneN + 1 ∧ b.failedN = a.failedN) ∧
        (∀ m, m ≠ x.launch → t.launches.find m = s.launches.find m) ∧
        (others s (x.held.erase d.index) false → t.tiles = s.tiles ∧ (∀ j, j ≠ i → t.insts.find j = s.insts.find j) ∧
          ∀ e, t.elem e = { s.elem e with counts := (t.elem e).counts, ans := (t.elem e).ans } ∧
            (e ∉ x.elems → (t.elem e).counts = (s.elem e).counts)) ∧
        ∀ pa v, (s.launches.find x.launch).map (·.vf) = some v → Memory.wf s.hbm = true →
          s.storeHome v (a.gw.completionVa + 0x40) = some (.hbm pa) → (∀ n < 64, s.scrubbing (pa + n) = false) →
          others s (x.held.erase d.index) false → bytesAt t.hbm pa 64 = statsAdd (s.report x).1 (s.report x).2.1 s.now (s.readHbm pa 64).1⟩ ]

/-! ## Stops -/

/-- STARTER_FAULT and WATCHDOG_DEADLOCK (R87, R221, R224, R225). -/
def faultRules (i : Nat) (x : Inst) (a : Task) (f : FaultEvent) (rest : List FaultEvent) : List EventRule :=
  let counts : Prop := f.family ≠ 6 ∧ f.family ≠ 9 ∧ ¬(f.family = 10 ∧ (f.code = 3 ∨ f.code = 4))
  let handed (s t : State) : Prop := ∀ y, s.launches.find x.launch = some y → f.family = 3 → levelOf f.policy 9 = 2 → rateLimit f.policy 9 = 31 →
    ∃ r ∈ t.operLog, r.cls = 9 ∧ r.part = some y.part ∧ coarse f.policy 9 (.addr f.addr) ∈ r.fields ∧
      coarse f.policy 9 (.payload f.word.toNat) ∈ r.fields ∧ (f.kind = 0 → coarse f.policy 9 (.elem f.src) ∈ r.fields)
  [ becomes .starterFault (fun s => Concerns s i x a ∧ x.faults = f :: rest ∧ s.recordsWait x.part f = true) (fun s => s),
    ⟨.starterFault, fun s => Concerns s i x a ∧ x.faults = f :: rest ∧ s.recordsWait x.part f = false ∧ counts ∧ x.faulted = false ∧ a.gw.replicate = false ∧ a.pre = [] ∧
        a.nextIdx ≤ a.gw.ttCount ∧ s.instsOf x.launch x.task = [(i, x)],
      fun s t => Untouched s t [] [i] x.tiles ∧ (∀ n ∈ x.tiles, t.tile n = { s.tile n with hopsStopped := false, sweep := none }) ∧
        (∀ m, m ≠ x.launch → t.launches.find m = s.launches.find m) ∧ (∃ y, t.insts.find i = some y ∧ y.faulted = true ∧ y.held = [] ∧ y.feed = [] ∧ y.tdones = [] ∧ y.faults = rest) ∧
        TaskIs t x.launch x.task (fun b => b.stopped = true ∧ b.ready = false ∧ b.nextIdx = a.gw.ttCount ∧
          b.failedN = a.failedN + x.held.length + (a.gw.ttCount - a.nextIdx) ∧
          b.reason = if a.reason ≠ 0 then a.reason else if f.family = 7 then 3 else 1) ∧ handed s t⟩,
    ⟨.starterFault, fun s => Concerns s i x a ∧ x.faults = f :: rest ∧ s.recordsWait x.part f = false ∧ (¬counts ∨ x.faulted = true),
      fun s t => t.insts.find i = some { x with faults := rest } ∧ t.elems = s.elems ∧ t.tiles = s.tiles ∧
        (∀ j, j ≠ i → t.insts.find j = s.insts.find j) ∧ (∀ m, m ≠ x.launch → t.launches.find m = s.launches.find m) ∧
        TaskIs t x.launch x.task (fun b => b.stopped = a.stopped ∧ b.failedN = a.failedN ∧ b.nextIdx = a.nextIdx) ∧ handed s t⟩,
    ⟨.watchdogDeadlock, fun s => s.subject.1 = i ∧ s.insts.find i = some x ∧ 2 ^ 20 ≤ x.watchdog ∧ x.faulted = false ∧ x.stop = .none ∧
        (x.phase = .run ∨ x.phase = .teardown),
      fun s t => (∀ e ∈ x.elems, (s.elem e).inst = some i → t.elem e = { s.elem e with state := .faulted }) ∧
        (∀ e, (e ∈ x.elems → (s.elem e).inst ≠ some i) → t.elem e = s.elem e) ∧ (∀ j, j ≠ i → t.insts.find j = s.insts.find j) ∧
        t = { s with elems := t.elems, insts := t.insts, recSeq := t.recSeq } ∧
        ∃ y, t.insts.find i = some y ∧ y.watchdog = 0 ∧ x.faults.length < y.faults.length ∧
          (∀ ev ∈ y.faults.drop x.faults.length, ev.family = 5 ∧ ev.code = 1 ∧ ev.time = s.now) ∧
          ∀ e ∈ x.elems, (s.elem e).inst = some i → (∃ l ∈ (s.elem e).iq, l ≠ []) →
            ∃ ev ∈ y.faults.drop x.faults.length, ev.kind = 0 ∧ ev.src = e ∧ (∀ q l tok, (s.elem e).iq[q]? = some l → tok ∈ l →
              ⟨tok, 0, q, e, false⟩ ∈ ev.tokens) ∧ ∀ q l tok, (s.elem e).oq[q]? = some l → tok ∈ l → ⟨tok, 1, q, e, false⟩ ∈ ev.tokens⟩ ]

/-- FAULT_RELEASE (R226). -/
def releaseRules (i : Nat) (x : Inst) : List EventRule :=
  let asked (s : State) : Prop := s.subject.1 = i ∧ s.insts.find i = some x ∧ x.faulted = true ∧ x.releaseAsked = true ∧ x.faults = []
  [ ⟨.faultRelease, fun s => asked s ∧ x.releasing = false,
      fun s t => t.insts.find i = some { x with releasing := true, stop := .none, waveLeft := [] } ∧
        (∀ j, j ≠ i → t.insts.find j = s.insts.find j) ∧ (∀ n, t.tile n = { s.tile n with egressReq := (t.tile n).egressReq }) ∧
        (∀ e, (e ∈ x.elems → (s.elem e).inst ≠ some i) → t.elem e = s.elem e) ∧
        t = { s with insts := t.insts, elems := t.elems, accs := t.accs, ops := t.ops, tiles := t.tiles, track := t.track } ∧
        ∀ e ∈ x.elems, (s.elem e).inst = some i → t.elem e = { s.elem e with state := .faulted, reissue := [] }⟩,
    ⟨.faultRelease, fun s => asked s ∧ x.releasing = true ∧ s.releaseDrained i x = true,
      fun s t => t.insts.find i = none ∧ (∀ j, j ≠ i → t.insts.find j = s.insts.find j) ∧
        ∀ e ∈ x.elems, (t.elem e).state = .unoccupied ∧ (t.elem e).inst = none ∧
        (∀ l ∈ (t.elem e).iq, l = []) ∧ ∀ l ∈ (t.elem e).oq, l = []⟩ ]

/-- HOLD_WAVE_ARRIVAL and HOLD_COMPLETE (R91, R94, R230, R232, R233). -/
def holdRules (eid i : Nat) (x : Inst) (w : StepWait) (p : Nat) : List EventRule :=
  let reaches (s : State) : Prop := s.insts.find? (fun y => y.2.waveLeft.contains eid) = some (i, x) ∧ s.insts.find i = some x ∧
    x.waveNext eid = true ∧ (s.elem eid).inst = some i ∧ ((s.elem eid).state = .run ∨ (s.elem eid).state = .stopping)
  let step (s : State) : Prop := s.subject.1 = i ∧ s.stepWaits.find? (fun y => y.inst = i && s.stepDone y) = some w
  let held (s : State) : Prop := s.subject.1 = i ∧ s.insts.find i = some x ∧ s.stepWaits.find? (fun y => y.inst = i && s.stepDone y) = none ∧
    ∃ e, x.stop = .hold e false
  let part (s : State) : Option Nat := s.partOfCluster (clusterOf (tileOf w.eid))
  let stepped (slot : Nat) (s : State) : State := noticed 511 0x80 slot 0 { s with stepWaits := s.stepWaits.erase w }
  [ becomes (.holdWaveArrival eid) (fun s => reaches s ∧ ∃ e b, x.stop = .hold e b)
      (fun s => (s.modInst i (fun y => { y with waveLeft := y.waveLeft.erase eid })).modElem eid (fun e =>
        { e with before := e.state, state := .held })),
    ⟨.holdWaveArrival eid, fun s => reaches s ∧ ∃ d l, x.stop = .cut d l,
      fun s t => t.insts.find i = some { x with waveLeft := x.waveLeft.erase eid } ∧ (t.elem eid).state = .cut ∧
        (∀ e, t.elem e = { s.elem e with
          state := (t.elem e).state, before := (t.elem e).before, withdrawn := (t.elem e).withdrawn }) ∧
        (t.elem eid).before = (s.elem eid).state ∧ (∀ e, e ≠ eid → (t.elem e).state = (s.elem e).state) ∧
        t = { s with insts := t.insts, elems := t.elems, contexts := t.contexts } ∧ ∀ j, j ≠ i → t.insts.find j = s.insts.find j⟩,
    ⟨.holdComplete, fun s => held s ∧ x.holdDone = false ∧ s.frozen x = true ∧ x.faults = [],
      fun s t => t.insts.find i = some { x with holdDone := true } ∧ Untouched s t [] [i] [] ∧
        ∃ o, (t.vf 511).out = (s.vf 511).out ++ [o] ∧ o.amop = 0x80 ∧ o.operand = 0⟩,
    becomes .holdComplete (fun s => s.subject.1 = i ∧ s.insts.find i = some x ∧ (∃ e, x.stop = .hold e true) ∧ x.holdDone = false ∧
        s.stepWaits.find? (fun y => y.inst = i && s.stepDone y) = none ∧
        s.frozen x = true ∧ x.faults = [])
      (fun s => s.modInst i (fun y => { y with holdDone := true })),
    becomes .holdComplete (fun s => step s ∧ part s = none) (stepped w.slot),
    becomes .holdComplete (fun s => step s ∧ part s = some p ∧ levelOf (policyAt s w.eid p) 12 = 0) (stepped 0),
    becomes .holdComplete (fun s => step s ∧ part s = some p ∧ levelOf (policyAt s w.eid p) 12 = 1 ∧ HasRoom s p (policyAt s w.eid p) 12)
      (fun s => stepped 0 (passedOne p 12 s)),
    becomes .holdComplete (fun s => step s ∧ part s = some p ∧ 2 ≤ levelOf (policyAt s w.eid p) 12 ∧ HasRoom s p (policyAt s w.eid p) 12 ∧
        w.slot < 2 ^ 32)
      (fun s => stepped w.slot (passedOne p 12 s)),
    becomes .holdComplete (fun s => step s ∧ part s = some p ∧ levelOf (policyAt s w.eid p) 12 ≠ 0 ∧ ¬HasRoom s p (policyAt s w.eid p) 12)
      (fun s => stepped 0 (droppedOne p 12 s)) ]

/-- The hops of an instance stopped and its loads kept for re-issue (R92, R93). -/
def hopsOff (s : State) (x : Inst) : State :=
  x.elems.foldl (fun (u : State) e => u.dropLoads e true) (x.tiles.foldl (fun (u : State) n => u.modTile n (fun y => { y with hopsStopped := true })) s)

/-- SAVE_START and SAVE_END (R92 to R98). -/
def saveRules (i : Nat) (x : Inst) (a : Task) (u n : Nat) : List EventRule :=
  let starts (s : State) (d l : Bool) : Prop := s.subject.1 = i ∧ s.insts.find i = some x ∧ x.stop = .cut d l ∧ (x.phase = .run ∨ x.phase = .teardown) ∧
    s.frozen x = true ∧ x.part < s.parts.length
  let room (s : State) : Option Nat := freeRun (s.part x.part).poolRuns (s.part x.part).poolSize.toNat
    (((hopsOff s x).recordLength x (footprintOf s x) true + 65535) / 65536)
  let stopped (s t : State) : Prop := t.hbm = s.hbm ∧ (∀ j, j ≠ i → t.insts.find j = s.insts.find j) ∧ t.launches = s.launches ∧
    (∀ k, t.tile k = (hopsOff s x).tile k) ∧ (∀ k ∈ x.tiles, (t.tile k).hopsStopped = true) ∧ ∀ e, t.elem e = { s.elem e with reissue := (t.elem e).reissue }
  let ends (s : State) : Prop := Concerns s i x a ∧ x.phase = .saving ∧ s.drained i x = true ∧ a.gw.replicate = false
  let saves (s : State) : Prop := ends s ∧ x.alloc = some (u, n) ∧ s.poolWaits x.part u n = false ∧ ∃ l, x.stop = .cut false l
  let swept (s : State) : Prop := saves s ∧ x.tiles ≠ [] ∧ ∀ k ∈ x.tiles, (s.tile k).swept = true
  let others (s t : State) : Prop := ∀ j, j ≠ i → t.insts.find j = s.insts.find j
  let fits (s : State) : List (Nat × Nat × Nat) := s.rects ((s.launches.find x.launch).map (·.part) |>.getD 0) a.gw.w a.gw.h
  let gone (t : State) : Prop := t.insts.find i = none ∧ ∀ e ∈ x.elems, (t.elem e).state = .unoccupied ∧ (t.elem e).inst = none
  [ ⟨.saveStart, fun s => starts s false false ∧ (room s).isSome = true,
      fun s t => stopped s t ∧ ∃ c m, t.insts.find i = some { x with phase := .saving, alloc := some (c, m) } ∧
        (t.part x.part).poolRuns = (s.part x.part).poolRuns ++ [(c, m)] ∧ c + m ≤ (s.part x.part).poolSize.toNat ∧
        ∀ r ∈ (s.part x.part).poolRuns, c + m ≤ r.1 ∨ r.1 + r.2 ≤ c⟩,
    ⟨.saveStart, fun s => starts s true false,
      fun s t => stopped s t ∧ t.parts = s.parts ∧ t.insts.find i = some { x with phase := .saving, alloc := none }⟩,
    ⟨.saveStart, fun s => starts s false false ∧ room s = none,
      fun s t => (∀ q, (t.part q).poolRuns = (s.part q).poolRuns) ∧ t.contexts.map (·.1) = s.contexts.map (·.1) ∧
        ∃ y, t.insts.find i = some y ∧ y.stop = .none ∧ y.boundary = true ∧ y.held = x.held⟩,
    ⟨.saveEnd, fun s => saves s ∧ x.tiles ≠ [] ∧ footprintOf s x ≠ 0 ∧ ∀ k ∈ x.tiles, (s.tile k).sweep = none,
      fun s t => t = { s with tiles := t.tiles } ∧ (∀ k, k ∉ x.tiles → t.tile k = s.tile k) ∧
        ∀ k ∈ x.tiles, t.tile k = { s.tile k with sweep := some (Sweep.start false (footprintOf s x) [] []) }⟩,
    becomes .saveEnd (fun s => saves s ∧ (∃ k ∈ x.tiles, (s.tile k).sweep ≠ none) ∧ ∃ k ∈ x.tiles, (s.tile k).swept = false) id,
    becomes .saveEnd (fun s => ends s ∧ x.alloc = some (u, n) ∧ s.poolWaits x.part u n = true) id,
    ⟨.saveEnd, fun s => swept s ∧ s.badTiles x = [] ∧ fits s ≠ [],
      fun s t => gone t ∧ others s t ∧ (∃ c, t.contexts.find s.nextId = some c ∧ c.inst = x ∧ c.unit0 = u ∧ c.units = n ∧ c.time = s.now ∧
          c.bad = false ∧ c.elements.length = x.elems.length ∧ c.tiles.length = x.tiles.length ∧
          c.length = s.recordLength x (footprintOf s x) false ∧
          (∀ k m : Nat, x.tiles[k]? = some m → x.tiles.Nodup → (c.tiles[k]?).map (fun (y : Tile) => y.sram) = (s.tile m).sweep.map (fun w => w.sram)) ∧
          (a.status = .preempted → x.gone = [] → x.elems.Nodup → x.tiles.Nodup → (∀ e ∈ x.elems, (s.elem e).inst = some i) →
            Memory.wf s.hbm = true → t.contextReads x c = true)) ∧
        TaskIs t x.launch x.task (fun b => b.ready = true ∧ b.status = .preempted ∧ b.failedN = a.failedN ∧
          ∃ p, b.pre = a.pre ++ [p] ∧ p.id = i ∧ p.num = x.num ∧ p.held = x.held ∧ p.ctx = s.nextId)⟩,
    ⟨.saveEnd, fun s => ends s ∧ x.alloc = none ∧ fits s ≠ [],
      fun s t => gone t ∧ others s t ∧ TaskIs t x.launch x.task (fun b => b.failedN = a.failedN + x.held.length)⟩,
    ⟨.saveEnd, fun s => ends s ∧ x.alloc = none ∧ fits s = [] ∧ a.pre = [] ∧ a.gw.ttCount ≠ 0 ∧ a.final = false ∧ a.stopped = false ∧
        a.nextIdx ≤ a.gw.ttCount ∧ (s.cluster x.cluster).old = none,
      fun _ t => gone t ∧ TaskIs t x.launch x.task (fun b => b.failedN = a.failedN + x.held.length + (a.gw.ttCount - a.nextIdx) ∧
        b.stopped = true ∧ b.ready = false ∧ b.pre = [] ∧ b.reason = if a.reason = 0 then 2 else a.reason)⟩,
    ⟨.saveEnd, fun s => swept s ∧ s.badTiles x ≠ [] ∧ x.tiles.Nodup,
      fun s t => gone t ∧ ∀ k ∈ s.badTiles x, (t.tile k).ueCount = (s.tile k).ueCount + 1⟩ ]

/-! ## The whole machine -/

/-- What an accumulator has taken (R208 to R210): nothing, one more firing's terms, or another accumulator. -/
inductive AccTree where
  | start
  | term (x : AccTree) (t : Nat → Option Term)
  | join (x y : AccTree)

/-- The terms of a tree, the latest last. -/
def AccTree.terms : AccTree → List (Nat → Option Term)
  | .start => []
  | .term x t => x.terms ++ [t]
  | .join x y => x.terms ++ y.terms

/-- Six tokens of an accumulator, as XSEND gives them, merged into another as XMERGE takes them (R209, R296, R297). -/
def mergedAcc (d : Bool) (x y : Acc) : Acc :=
  (List.range 6).foldl (fun (x : Acc) j =>
    let word (l : Nat) : Nat := (BitVec.ofNat 32 (y.reg false l / 2 ^ (32 * j))).toNat * 2 ^ (32 * j)
    let z := x.setRegs d (fun k =>
      if d then (x.reg true k + word (2 * k) + word (2 * k + 1) * 2 ^ 192) % 2 ^ 384 else (x.reg false k + word k) % 2 ^ 192)
    if j = 0 then { z with lost := z.lost || y.lost, tov := z.tov || y.tov } else z) x

/-- The accumulator of a tree: cleared with a window exponent, then as the tree says. -/
def AccTree.acc (d : Bool) (we : BitVec 12) : AccTree → Acc
  | .start => { Acc.zero with we }
  | .term x t => (x.acc d we).take d t
  | .join x y => mergedAcc d (x.acc d we) (y.acc d we)

/-- The floors of the terms of one register, added (R210). -/
def floorsAt (we : BitVec 12) (k : Nat) (l : List (Nat → Option Term)) : Int :=
  (l.map (fun t => match t k with
    | some (some (i, e)) => if we.toInt ≤ e then i * 2 ^ (e - we.toInt).toNat else i / 2 ^ (we.toInt - e).toNat
    | _ => 0)).sum

/-- Element k of the first result, tested against 0 as a bit pattern: lane k, or under D pair k (R239). -/
def liveElem (d : Bool) (l : Lanes) (k : Nat) : Prop :=
  if d then validAt l (2 * k) = true ∧ validAt l (2 * k + 1) = true ∧ (wordAt l (2 * k) ≠ 0 ∨ wordAt l (2 * k + 1) ≠ 0)
  else validAt l k = true ∧ wordAt l k ≠ 0

/-- Element k is valid and zero. -/
def zeroElem (d : Bool) (l : Lanes) (k : Nat) : Prop :=
  if d then validAt l (2 * k) = true ∧ validAt l (2 * k + 1) = true ∧ wordAt l (2 * k) = 0 ∧ wordAt l (2 * k + 1) = 0
  else validAt l k = true ∧ wordAt l k = 0

end Sys2Proof.Claims

open Sys2Proof Sys2Proof.Machine Sys2Proof.Claims

/-- R258 to R264: each integer instruction, lane-wise, pair-wise or scalar, writes its result and flags. -/
def Obligations.IntegerResults : Prop := Holds (integerRules.map LaneRule.rule) ∧ Holds (pairRules ++ scalarRules)

/-- R281: float arithmetic, an exact value rounded once. -/
def Obligations.FloatArithmeticResults : Prop := Holds floatArithRules

/-- R282: float selection, comparison and exponents. -/
def Obligations.FloatSelectionResults : Prop := Holds floatSelectRules

/-- R283: FCLASS sets exactly the bit of the element's class. -/
def Obligations.FclassSetsOneBit : Prop := Holds [elemRule .fclass (fun w a _ _ => (2 ^ classBit w a, 0))]

/-- R284 to R286: the conversions and FRRED. -/
def Obligations.ConversionResults : Prop := Holds convertRules

/-- R287: the special functions, their bounds and their stated results.
Model's choices in it: logs 6, 18. -/
def Obligations.SpecialFunctionResults : Prop := Holds specialRules ∧ SpecialBounded ∧ SpecialInputs ∧ SpecialExact

/-- R288 and R289: lane moves and valid masks. -/
def Obligations.LaneMoveResults : Prop := Holds laneMoveRules

/-- R290 to R292: reductions and scans.
Model's choices in it: log 17. -/
def Obligations.ReductionAndScanResults : Prop := Holds reductionRules

/-- R295: XCLR, XADD and XMAC change the accumulator of DA by the exact values of their terms, and nothing else.
Model's choices in it: log 19. -/
def Obligations.AccumulatorTerms : Prop := Holds accRules

/-- R296 and R297: XSEND gives the six pieces of an accumulator, and XMERGE adds one.
Model's choices in it: log 19. -/
def Obligations.AccumulatorPieces : Prop :=
  ∀ j, Holds [sendRule j, mergeRule j]

/-- R211 and R298: XRD rounds each register once, and XFLAG gives the flags. -/
def Obligations.AccumulatorReads : Prop := Holds accReadRules

/-- R267 to R271: PASS, DUP, FILT, GATE, MERGE and ZIP.
Model's choices in it: log 16. -/
def Obligations.PassingResults : Prop := Holds passRules

/-- R273: ISECT and UNION.
Model's choices in it: log 21. -/
def Obligations.JoinResults : Prop := Holds [joinRule .isect false, joinRule .union true]

/-- R274 and R276: RETAG, TAGSEL, CNT and ENDGEN.
Model's choices in it: log 16. -/
def Obligations.TagResults : Prop := Holds tagRules

/-- R275, R277 and R278: ALOOP, PSET, SLOTEN and PACK. -/
def Obligations.ShapeResults : Prop := Holds shapeRules

/-- R304 to R308: the loads, stores and atomics of an SE on its tile, the hash instructions and the lap-buffer instructions; no
byte of memory changes but those stored to. Which accessing lane gives the address in an acknowledgement of STSX is a free value
(log 15).
Model's choices in it: logs 23, 24, 27, 31. -/
def Obligations.ScratchpadResults : Prop := Holds sramRules ∧ Holds hashRules ∧ Holds lapRules

/-- R317 and R318: LDG, STG, GATH, SCAT, ATMG and CASG issue the accesses of their lanes. Which accessing lane gives the address
in an acknowledgement of SCAT is a free value (log 15).
Model's choices in it: log 32. -/
def Obligations.IndexAccesses : Prop := Holds indexRules

/-- R311: RSTS and RATM.
Model's choices in it: log 40. -/
def Obligations.RemoteAccesses : Prop := Holds remoteRules

/-- R180, R309 and R319: FENCES and FENCEG. -/
def Obligations.FenceTokens : Prop := Holds [fenceRule .fences, fenceRule .fenceg]

/-- R310: CPY.
Model's choices in it: log 41. -/
def Obligations.CopyIssue : Prop := Holds [copyRule]

/-- R314, R319 to R321 and R323: PATLD, PLANELD and WLD, PATSET and PREF, and PATST.
Model's choices in it: logs 15, 28, 33, 34, 35, 36, 37, 38, 39. -/
def Obligations.PatternAccesses : Prop :=
  Holds ([movedRule .patld, movedRule .planeld, movedRule .wld] ++ setRules) ∧ (∀ band, Holds [patRule band]) ∧
  ∀ tmpl, Holds [egressRule, egressEndRule tmpl]

/-- R326 to R329: MCFG, MWLOAD, MEXPT, MPLANE, MCLR and MSWAP change the matrix state and nothing else; MDRAIN and MSTAT read it.
Model's choices in it: log 44. -/
def Obligations.MatrixResults : Prop := Holds matrixRules ∧ Holds drainRules ∧ PlaneAdds

/-- R334 to R336, R338 to R340 and R345: LEASE, LEASEEND, MELTRD, CNTRD, CNTCTL, PACE, TSTAMP, FLAGRD and FLAGCLR.
Model's choices in it: log 55. -/
def Obligations.RuntimeResults : Prop := Holds leaseRules ∧ Holds counterRules ∧ Holds traceRules

/-- R346: POLICYRD reads 64 bytes of the policy, all zero where there is none. -/
def Obligations.PolicyRead : Prop := Holds [policyRule]

/-- R333, R341 and R342: TDONE and YIELD report to the Starter, and BRK holds its instance. -/
def Obligations.TaskReports : Prop := (∀ i x n, Holds (reportRules i x n)) ∧ ∀ i x, Holds [breakRule i x]

/-- R343: AMSEND.
Model's choices in it: logs 42, 43. -/
def Obligations.SentMessages : Prop := ∀ amop operand cont,
  Holds [sendHostRule amop operand cont, sendHomeRule amop operand cont, sendPodRule amop operand cont] ∧
  ∀ dest, Holds [sendBadRule amop operand cont dest]

/-- R332: TRAP faults with family 8 and its code. -/
def Obligations.TrapFaults : Prop :=
  HoldsFaults [⟨.trap, Clean, 8, fun w => w.imm.toNat % 256, fun _ _ _ => 0⟩]

/-- R170: a POISON control operand faults POISON-CONTROL.
Model's choices in it: logs 16, 20. -/
def Obligations.PoisonControlFaults : Prop := HoldsFaults controlFaults

/-- R170, R257: a POISON result of a lane-wise integer instruction reaches no register and no predicate. -/
def Obligations.PoisonReachesNoRegister : Prop :=
  ∀ x ∈ integerRules, HoldsFaults [poisonFault x.instr (fun w _ fo => ¬BuiltFits w fo)]

/-- Operands outside their ranges fault, and nothing is written.
Model's choices in it: logs 20, 38, 39, 40. -/
def Obligations.OperandFaults : Prop := HoldsFaults operandFaults

/-- R150, R157 and R300: misaligned and out-of-range addresses fault, and nothing is stored. R319: a check that failed in a
prefetch is taken by the firing that would move the token.
Model's choices in it: logs 32, 39. -/
def Obligations.AddressFaults : Prop :=
  HoldsFaults addressFaults ∧
  ∀ family code addr, HoldsFaults ([Instr.patld, Instr.planeld, Instr.wld].map (fun i =>
    ⟨i, fun _ _ fo => ∃ p, fo.firing.moved = some p ∧ p.fault = some (family, code, addr), family, fun _ => code,
      fun _ _ _ => addr⟩))

/-- R32, R35, R36, R38, R42 and R58 to R60: the messages that name no launch.
Model's choices in it: logs 7, 51, 52, 74, 102, 121, 133, 136, 147, 153. -/
def Obligations.HostMessages : Prop := ∀ m, Happen (messageRules m) ∧ Happen (signalRules m) ∧ Happen [policyWaitRule m] ∧
  Happen (stallRules m) ∧ ∀ k, Happen (policyRefusals m k)

/-- R33 and R34: LAUNCH, CANCEL, PREEMPT and RESUME.
Model's choices in it: logs 72, 73, 111, 118, 121, 153. -/
def Obligations.LaunchMessages : Prop :=
  ∀ m l x, Happen (launchRules m l x) ∧ Happen (launchRefusals m l x) ∧ ∀ i y, Happen (cutRules m l x i y)

/-- R230 to R232: DBGHOLD, its release, and DBGREAD.
Model's choices in it: logs 75, 76, 77, 113, 124, 154. -/
def Obligations.DebugMessages : Prop := ∀ m, (∀ p, Happen (filterRules m p)) ∧
  ∀ i x, Happen (debugRules m i x) ∧ Happen (debugRefusals m i x)

/-- R30 and R41: a message of a VF that is off, out of sequence or without the right is refused by name and has no effect.
Model's choices in it: log 51. -/
def Obligations.RefusedMessages : Prop := ∀ m, Happen (refusedRules m)

/-- R44: the boot ROM's check, FWLOAD, the firmware's start; R21: the lanes of Lewen.
Model's choices in it: logs 3, 5, 89, 98, 117. -/
def Obligations.BootEvents : Prop := ∀ m pkg bad allLanes, Happen (bootRules m pkg bad allLanes)

/-- R14, R28, R36, R42, R162 and R343: what the host and other packages read and write, and the messages handed over.
Model's choices in it: logs 7, 25, 90, 92, 133, 136, 146, 155. -/
def Obligations.OutsideAccesses : Prop :=
  (∀ vf va len bytes, Happen (hostRules vf va len bytes)) ∧
  (∀ (vf : BitVec 9) (va : DWord) len pkg pa r, Happen (awayRules (.hostRead vf va len) vf.toNat va.toNat len .load false
    (fun x => .data vf.toNat va.toNat (remoteBytes x pa len).1 (remoteBytes x pa len).2) pkg pa r)) ∧
  (∀ (vf : BitVec 9) (va : DWord) bytes pkg pa r, Happen (awayRules (.hostWrite vf va bytes) vf.toNat va.toNat bytes.length .store true
    (fun _ => .done vf.toNat va.toNat) pkg pa r)) ∧
  (∀ pkg ptag pa len bs op b new kind, Happen (packageRules pkg ptag pa len bs op b new kind)) ∧
  ∀ p k v eid q y rest w o later, Happen (deliveryRules p k v eid q y rest w o later)

/-- R26, R27, R45, R46, R96, R104, R105, R108, R118 to R123, R163 and R216: the registers of device MMIO take what is written.
Model's choices in it: logs 25, 26, 82, 84, 85, 86, 88, 89, 134. -/
def Obligations.RegisterWrites : Prop :=
  (∀ v g u p val byte, Happen (adminWrites v g u p val byte)) ∧
  (∀ who p k off trace val, Happen (tenantWrites who p k off trace val)) ∧ ∀ p g n off val, Happen (plainWrites p g n off val)

/-- R26 and R27: a register write without the right is discarded and counted, and changes nothing else.
Model's choices in it: log 134. -/
def Obligations.ForeignWrites : Prop :=
  ∀ who n p k off trace word val byte, Happen (foreignWrites who n p k off trace word val byte)

/-- R84, R86, R94, R134 to R140, R173 and R176: tokens, credits and messages on their way.
Model's choices in it: logs 47, 56, 127, 143. -/
def Obligations.FabricEvents : Prop :=
  (∀ eid k r tok i d, Happen (transferRules eid k r tok i d)) ∧
  (∀ msg m ch tile eid k i f rest d, Happen (farRules msg m ch tile eid k i f rest d)) ∧
  ∀ tile msg a i response m x ch f, Happen (trackRules tile msg a i response m x ch f)

/-- R83 and R84: FINISH through an element, and the end of the element's task.
Model's choices in it: logs 46, 47, 57. -/
def Obligations.FinishFront : Prop := ∀ eid q i tok l, Happen (finishRules eid q i tok l)

/-- R142 to R146: which slot an element fires.
Model's choices in it: logs 16, 21, 31, 126. -/
def Obligations.SelectionChoice : Prop := ∀ eid i, Happen (selectionRules eid i)

/-- R12, R86, R153, R156, R161 to R176, R301 and R319: accesses, copies, prefetches and answers on their way, and soft errors.
Model's choices in it: logs 9, 24, 41, 48, 49, 91, 93, 102, 106, 114, 133. -/
def Obligations.MemoryEvents : Prop :=
  (∀ acc a o p pa c i, Happen (walkRules acc a o p pa c i)) ∧
  (∀ acc a o pa off len bs op l l2 poison, Happen (homeRules acc a o pa off len bs op l l2 poison)) ∧
  (∀ acc a o pkg ptag pa off len p i bs op l poison, Happen (awayHomeRules acc a o pkg ptag pa off len p i bs op l poison)) ∧
  (∀ acc r, Happen (linkRules acc r)) ∧
  (∀ acc tile c pa pkg i p r, Happen (copyRules acc tile c pa pkg i p r)) ∧
  (∀ acc a o tile addr i bs op l poison, Happen (remoteStoreRules acc a o tile addr i bs op l poison)) ∧
  (∀ eid k tile op a tok c p rest f x, Happen (answerRules eid k tile op a tok c p rest f x)) ∧
  ∀ t g eid a i u b bs, Happen (errorRules t g eid a i u b bs)

/-- R15 to R20 and R323: the Aqric and Ethernet ports.
Model's choices in it: logs 94, 95, 96, 97, 114, 115, 116, 129, 132, 144, 146, 148, 149, 150. -/
def Obligations.LinkEvents : Prop :=
  (∀ port a o m i r tile c, Happen (aqricRules port a o m i r tile c)) ∧
  ∀ port flow eid k f y x n i u tmpl, Happen (ethRules port flow eid k f y x n i u tmpl)

/-- R86, R109, R110, R114, R115, R119 and R122 to R124: the millisecond's update, the buckets, and the gates of tiles.
Model's choices in it: logs 7, 78, 83, 84, 137, 152. -/
def Obligations.PowerEvents : Prop :=
  (∀ pwr cshare pkgw g k h l x y a b j, Happen (updateRules pwr cshare pkgw g k h l x y a b j)) ∧ ∀ g k i x u, Happen (gateRules g k i x u)

/-- R107, R111, R112, R115, R116, R334 and R335: how leases are decided, begin and end.
Model's choices in it: logs 79, 82, 137, 152. -/
def Obligations.LeaseEvents : Prop :=
  (∀ i x r us point hard, Happen (requestRules i x r us point hard)) ∧
  ∀ g k i l r h tm eid q tok rest x y a b j,
    Happen (leaseEvents g k i l r h tm eid q tok rest x y a b j)

/-- R37 to R41, R55, R65 to R68, R76 and R77: launches and tasks from the walk to COMPLETE.
Model's choices in it: logs 54, 58, 60, 66, 70, 71, 119, 129, 133, 147, 158, 159. -/
def Obligations.TaskEvents : Prop :=
  (∀ l x nodes, Happen (walkGraphRules l x nodes)) ∧ ∀ l k x a n p, Happen (taskRules l k x a n p)

/-- R59, R69 to R82, R86, R102, R103, R126, R215 and R255: instances bound, relayed, committed and fed with indices.
Model's choices in it: logs 10, 29, 30, 59, 65, 67, 123, 133, 160. -/
def Obligations.InstanceEvents : Prop :=
  (∀ p l k x a o i y, Happen (bindRules p l k x a o i y)) ∧ (∀ i x a im f c n, Happen (relayRules i x a im f c n)) ∧
  (∀ i x a n c, Happen (commitRules i x a n c)) ∧ ∀ i x a eid q d rest j z, Happen (batonRules i x a eid q d rest j z)

/-- R87, R91 to R98, R221, R224 to R226, R230, R232 and R233: faults, releases, holds and saves.
Model's choices in it: logs 10, 61, 62, 63, 64, 80, 100, 123, 128, 133, 151. -/
def Obligations.StopEvents : Prop :=
  (∀ i x a f rest, Happen (faultRules i x a f rest)) ∧ (∀ i x, Happen (releaseRules i x)) ∧
  (∀ eid i x w p, Happen (holdRules eid i x w p)) ∧ ∀ i x a u n, Happen (saveRules i x a u n)

/-- R25, R26, R36, R46, R69, R96, R104, R108, R118, R119, R120, R122 and R163: the registers whose reset values the spec states. -/
def Obligations.ResetValues : Prop :=
  (∀ v, ((State.reset.vf v).en = true ↔ v = 511) ∧ (State.reset.vf v).urgentOk = false ∧ (State.reset.vf v).root = 0 ∧
    (v < 512 → (State.reset.vf v).part.toNat = v / 32) ∧ (State.reset.vf v).satcnt = 0 ∧ (State.reset.vf v).maxn = 0 ∧
    (State.reset.vf v).maxop = 3 ∧ (State.reset.vf v).maxus = 0) ∧
  (∀ p, p < 16 → (State.reset.part p).minres = 50 ∧ (State.reset.part p).poolBase = 0 ∧ (State.reset.part p).poolSize = 0 ∧
    (State.reset.part p).fault = { } ∧ (State.reset.part p).trace = { } ∧ (State.reset.part p).tkey = 0 ∧
    (State.reset.part p).active = [] ∧ (State.reset.part p).handlers.all (fun h => h.hen == false && h.queue.isEmpty) = true) ∧
  (∀ g, g < 16 → (State.reset.cluster g).part = 0xFF ∧ (State.reset.cluster g).pwr = 0 ∧ (State.reset.cluster g).cshare = 0 ∧
    (State.reset.cluster g).capw = 0 ∧ (State.reset.cluster g).rearm = 0x4000 ∧ (State.reset.cluster g).ceiling = 0xF000 ∧
    (State.reset.cluster g).baseop = 3 ∧ (State.reset.cluster g).hyst = true ∧ (State.reset.cluster g).autogate = false ∧
    (State.reset.cluster g).lim = 0xFFFF ∧ (State.reset.cluster g).hotw = 0 ∧ (State.reset.cluster g).srd = 0 ∧
    (State.reset.cluster g).greq = 0 ∧ (State.reset.cluster g).heat = 0 ∧ (State.reset.cluster g).slots.all Option.isNone = true) ∧
  (∀ u, (State.reset.unit u).owner = 31 ∧ (State.reset.unit u).scrub = false) ∧
  State.reset.sprintw = 6000 ∧ State.reset.pkgw = 0 ∧ State.reset.factors = [141, 174, 212, 256, 300, 340, 390, 466]

/-- Memory after reset lists nothing and so has the canonical form.
Model's choices in it: log 1. -/
def Obligations.ResetMemoryForm : Prop :=
  Memory.wf State.reset.hbm = true ∧ ∀ a, byteAt State.reset.hbm a = blank

/-- Every step keeps the canonical form of HBM: addresses strictly rising, and no listed byte that an unlisted one reads as. -/
def Obligations.StepKeepsMemoryForm : Prop :=
  ∀ s t : State, Memory.wf s.hbm = true → step s = .next t → Memory.wf t.hbm = true

/-- R29, R141, R234 to R242: the bytes of a well-formed instruction that has a word decode to it: every Siroux instruction, and
every message of the host whose AMOP is below 0x80.
Model's choices in it: logs 12, 13. -/
def Obligations.DecodeEncode : Prop :=
  ∀ (i : Instr) (rest : List Byte), i.wellFormed = true →
    ((opcodeOf i).isSome = true ∨ ∃ m, amOf i = some m ∧ m.sender = .host ∧ m.amop.getLsbD 7 = false) →
    decode (encode i ++ rest) = .ok (i, rest)

/-- R141, R234, R245: a slot word that decodes is the word of the instruction that it decodes to: no bit is dropped.
Model's choices in it: logs 12, 13. -/
def Obligations.EncodeDecode : Prop :=
  ∀ (w : BitVec 128) (i : Instr), decodeSlot w = .ok i → encodeWord i = some w ∧ i.wellFormed = true

/-- The words that the spec's examples give for FADD.D (R246), AADD.wrap, XMAC.D, STG.ack, LEASE and LAUNCH, and four words that
no check passes: no V, an unassigned opcode, OTAG 0xF, a reserved specifier (R141, R243, R245). -/
def Obligations.DecodeWords : Prop :=
  decodeSlot 0xA0025215802027E22897D21000000000 = .ok (.fadd
    { pri := 1, condT := 1, condF := 4, test0 := some ⟨0, true, 0⟩, test1 := some ⟨1, false, 0xC⟩, da := .o 1, db := .none,
      otag := 1, deq := 1, sa := .head 0, sb := .c 2, sc := .none, pd := 2, pm := .anyLane, rnd := 0, d := true, kt := false,
      sat := false, ack := false, x := false, imm := 0 }) ∧
  decodeSlot 0x80001200001837E02D9D000100000000 = .ok (.aadd
    { pri := 0, condT := 0, condF := 0, test0 := some ⟨0, true, 0⟩, test1 := none, da := .a 1, db := .none, otag := 0, deq := 1,
      sa := .a 1, sb := .c 3, sc := .c 4, pd := 0, pm := .keep, rnd := 0, d := false, kt := false, sat := false, ack := false,
      x := true, imm := 0 }) ∧
  decodeSlot 0x80001216002CEFE0684FC01000000000 = .ok (.xmac
    { pri := 0, condT := 0, condF := 0, test0 := some ⟨0, true, 0⟩, test1 := some ⟨1, true, 0⟩, da := .x 0, db := .none,
      otag := 0, deq := 3, sa := .head 0, sb := .head 1, sc := .none, pd := 0, pm := .keep, rnd := 0, d := true, kt := false,
      sat := false, ack := false, x := false, imm := 0 }) ∧
  decodeSlot 0x800012160088A7E0684FC002A0000000 = .ok (.stg
    { pri := 0, condT := 0, condF := 0, test0 := some ⟨0, true, 0⟩, test1 := some ⟨1, true, 0⟩, da := .o 1, db := .none,
      otag := 0, deq := 3, sa := .head 0, sb := .head 1, sc := .none, pd := 0, pm := .keep, rnd := 0, d := false, kt := false,
      sat := false, ack := true, x := false, imm := 0xA0000000 }) ∧
  decodeSlot 0x80001A0000C12FE08AFFC00000000000 = .ok (.lease
    { pri := 0, condT := 0, condF := 0, test0 := some ⟨2, true, 0⟩, test1 := none, da := .o 3, db := .none, otag := 0, deq := 4,
      sa := .head 2, sb := .none, sc := .none, pd := 0, pm := .keep, rnd := 0, d := false, kt := false, sat := false,
      ack := false, x := false, imm := 0 }) ∧
  decodeAm .host 0x011280120000000D00001F4000000200 = .launch
    { amop := 1, vf := 37, part := 0, seq := 18, operand := 0xD, cont := 0x1F4000000200, sender := .host } ∧
  decodeSlot 0 = .error .empty ∧ decodeSlot (0x80000000000000000000000000000000 ||| 0x1FF <<< 79) = .error .opcode ∧
  decodeSlot (0xA0025215802027E22897D21000000000 ||| 0xF <<< 65) = .error .otagFinish ∧
  decodeSlot (0xA0025215802027E22897D21000000000 ||| 30 <<< 56) = .error .reserved

/-- A step runs what stands next. A firing in focus: the instruction of its word, on the state as it is. Else the turn at the head
of the agenda, on the state without that turn: an event, with its subject; a message of the host, decoded and with the PART of the
VF table (R29); a due firing of an element, FLAGCLR first and else the oldest (R146, R345), which then stands in focus and runs.
Else a new round of turns (the model's order of them: log 4).
Model's choices in it: logs 8, 101. -/
def Obligations.StepRunsDecoded : Prop :=
  (∀ (s : State) (fo : Focus) (i : Instr), s.focus = some fo → decodeSlot fo.firing.word = .ok i → step s = exec i s) ∧
  (∀ (s : State) (fo : Focus) (r : Reject), s.focus = some fo → decodeSlot fo.firing.word = .error r →
    step s = .refused .illegalWord) ∧
  (∀ (s : State) (i : Instr) (x : Nat × Nat) (rest : List Turn), s.focus = none → s.agenda = .event i x :: rest →
    step s = exec i { s with agenda := rest, subject := x }) ∧
  (∀ (s : State) (w : BitVec 128) (later : List (BitVec 128)) (rest : List Turn), s.focus = none → s.agenda = .hostAm :: rest →
    s.amIn = w :: later →
    step s = exec (amInstr { amOfWord .host w with part := if (amOfWord .host w).vf = 511 then 0 else (s.vf (amOfWord .host w).vf.toNat).part })
      { s with agenda := rest, amIn := later }) ∧
  (∀ (s : State) (eid : Nat) (f : Firing) (i : Instr) (rest : List Turn), s.focus = none → s.agenda = .writeBack eid :: rest →
    (((s.elem eid).inflight.filter (fun f => f.remaining = 0)).find? (fun f => f.opc = 0x18D) = some f ∨
      ((s.elem eid).inflight.filter (fun f => f.remaining = 0)).find? (fun f => f.opc = 0x18D) = none ∧
      ((s.elem eid).inflight.filter (fun f => f.remaining = 0)).head? = some f) →
    decodeSlot f.word = .ok i →
    step s = exec i { ({ s with agenda := rest }.modElem eid (fun e =>
      { e with inflight := e.inflight.filter (fun x => x.seq ≠ f.seq) })) with focus := some ⟨eid, f⟩ }) ∧
  ∀ s : State, s.focus = none → s.agenda = [] → ∃ l, step s = .next { s with agenda := l ++ [.tick 1] }

/-- Every instruction and every event answers a next state in every state: a fault of the spec is a next state too (R223). -/
def Obligations.EveryInstructionAnswers : Prop := ∀ (i : Instr) (s : State), ∃ t, exec i s = .next t

/-- Bytes read as they were last written, in HBM and in a tile's SRAM with its wrap at 8 MiB (R150); every other byte reads as
before; a marked word written whole loses its marker, one written in part keeps it, and a POISON token marks every word it touches
(R171). -/
def Obligations.MemoryReadsWhatWasWritten : Prop :=
  (∀ (m : List Host.Cell) (a : Nat) (bs : List Byte), Memory.wf m = true → Memory.wf (putBytes m a bs) = true ∧
    ∀ x, byteAt (putBytes m a bs) x = if a ≤ x ∧ x < a + bs.length then bs[x - a]?.getD 0 else byteAt m x) ∧
  (∀ (m : List Host.Cell) (a n : Nat), Memory.wf m = true → bytesAt m a n = (List.range n).map (fun k => byteAt m (a + k))) ∧
  (∀ (s : State) (a : Nat) (bs : List Byte), Memory.wf s.hbm = true →
    let t := s.writeHbm (spreadBytes a bs)
    t = { s with hbm := t.hbm, hbmPoison := t.hbmPoison } ∧
    (∀ x, byteAt t.hbm x = if a ≤ x ∧ x < a + bs.length then bs[x - a]?.getD 0 else byteAt s.hbm x) ∧
    ∀ w, w ∈ t.hbmPoison ↔ w ∈ s.hbmPoison ∧ ¬(a ≤ 8 * w ∧ 8 * w + 8 ≤ a + bs.length)) ∧
  ∀ (u : Tile) (a : Nat) (bs : List Byte), Memory.wf u.sram = true → bs.length ≤ 2 ^ 23 →
    let t := u.write (spreadBytes a bs) false
    t = { u with sram := t.sram, sramPoison := t.sramPoison } ∧
    (∀ k, k < bs.length → byteAt t.sram ((a + k) % 2 ^ 23) = bs[k]?.getD 0) ∧
    (∀ x, x < 2 ^ 23 → (∀ k, k < bs.length → x ≠ (a + k) % 2 ^ 23) → byteAt t.sram x = byteAt u.sram x) ∧
    (∀ w, w ∈ t.sramPoison ↔ w ∈ u.sramPoison ∧ ¬∀ j, j < 8 → ∃ k, k < bs.length ∧ (a + k) % 2 ^ 23 = 8 * w + j) ∧
    let v := u.write (spreadBytes a bs) true
    v = { u with sramPoison := v.sramPoison } ∧
    (∀ w, w ∈ v.sramPoison ↔ w ∈ u.sramPoison ∨ ∃ k, k < bs.length ∧ w = (a + k) % 2 ^ 23 / 8) ∧
    ∀ x, x < 2 ^ 23 → (u.read x 1).2 = decide (x / 8 ∈ u.sramPoison) ∧
      (u.read x 1).1 = [if x / 8 ∈ u.sramPoison then 0 else byteAt u.sram x]

/-- R210: an accumulator is the same for every tree and order in which its terms come together; with fewer than 2^32 firings and OV
clear, W is the sum of the floors. -/
def Obligations.AccumulatorOrder : Prop :=
  (∀ (d : Bool) (we : BitVec 12) (x y : AccTree), x.terms.Perm y.terms → x.acc d we = y.acc d we) ∧
  ∀ (d : Bool) (we : BitVec 12) (x : AccTree) (k : Nat), k < elemCount d → x.terms.length < 2 ^ 32 →
    (x.acc d we).ov d k = false → (x.acc d we).w d k = floorsAt we k x.terms

/-- R239: the value that each mode gives PD, from the first result and the tag of the first dequeued input. -/
def Obligations.PredicateModes : Prop :=
  ∀ (d : Bool) (l : Lanes) (tag : Tag) (old : Pred),
    predValue .keep d (some l) (some tag) old = old ∧
    (predValue .lane0 d (some l) (some tag) old = .yes ↔ liveElem d l 0) ∧
    (predValue .anyLane d (some l) (some tag) old = .yes ↔ ∃ k, k < elemCount d ∧ liveElem d l k) ∧
    (predValue .allLanes d (some l) (some tag) old = .yes ↔ ∀ k, k < elemCount d → ¬zeroElem d l k) ∧
    predValue .setTrue d (some l) (some tag) old = .yes ∧ predValue .setFalse d (some l) (some tag) old = .no ∧
    (predValue .endTag d (some l) (some tag) old = .yes ↔ 8 ≤ tag.toNat ∧ tag.toNat ≤ 12) ∧
    (predValue .invert d (some l) (some tag) old = .yes ↔ old ≠ .yes) ∧
    ∀ pm, pm ≠ .keep → predValue pm d (some l) (some tag) old = .yes ∨ predValue pm d (some l) (some tag) old = .no
end

