-- ==== Sys2Proof/Laws/Memory.lean ====
section
/-! SUPPORT. The canonical form of memory: what each operation over cells keeps, and what a read after a write gives. -/

namespace Sys2Proof.Machine

/-- The canonical form in the words of lists. -/
def Canon (m : List Host.Cell) : Prop := m.Pairwise (fun a b => a.1 < b.1) ∧ ∀ c ∈ m, c.2 ≠ blank

theorem wf_iff (m : List Host.Cell) : Memory.wf m = true ↔ Canon m := by
  unfold Canon
  induction m with
  | nil => simp [Memory.wf]
  | cons c m ih =>
    cases m with
    | nil => simp [Memory.wf]
    | cons d m =>
      simp only [Memory.wf, Bool.and_eq_true, bne_iff_ne, ne_eq, decide_eq_true_eq, ih]
      constructor
      · rintro ⟨⟨h1, h2⟩, h3, h4⟩
        refine ⟨List.pairwise_cons.mpr ⟨fun x hx => ?_, h3⟩, ?_⟩
        · rcases List.mem_cons.mp hx with rfl | hx
          · exact h2
          · exact Nat.lt_trans h2 ((List.pairwise_cons.mp h3).1 x hx)
        · intro x hx
          rcases List.mem_cons.mp hx with rfl | hx
          · exact h1
          · exact h4 x hx
      · rintro ⟨h1, h2⟩
        have h := List.pairwise_cons.mp h1
        exact ⟨⟨h2 c (by simp), h.1 d (by simp)⟩, h.2, fun x hx => h2 x (List.mem_cons_of_mem _ hx)⟩

theorem Canon.sublist {l m : List Host.Cell} (h : Canon m) (k : l.Sublist m) : Canon l :=
  ⟨h.1.sublist k, fun c hc => h.2 c (k.subset hc)⟩

/-! ## Bytes -/

@[simp] theorem byteAt_nil (a : Nat) : byteAt [] a = blank := rfl

/-- A byte that no cell lists. -/
theorem byteAt_unlisted {m : List Host.Cell} {a : Nat} (h : ∀ c ∈ m, c.1 ≠ a) : byteAt m a = blank := by
  induction m with
  | nil => rfl
  | cons c m ih =>
    simp only [byteAt]
    rw [if_neg (h c (by simp)), ih fun d hd => h d (List.mem_cons_of_mem _ hd)]

theorem byteAt_append_left {l m : List Host.Cell} {a : Nat} (h : ∀ c ∈ m, c.1 ≠ a) : byteAt (l ++ m) a = byteAt l a := by
  induction l with
  | nil => simpa using byteAt_unlisted h
  | cons c l ih => simp only [List.cons_append, byteAt, ih]

theorem byteAt_append_right {l m : List Host.Cell} {a : Nat} (h : ∀ c ∈ l, c.1 ≠ a) : byteAt (l ++ m) a = byteAt m a := by
  induction l with
  | nil => rfl
  | cons c l ih =>
    simp only [List.cons_append, byteAt]
    rw [if_neg (h c (by simp)), ih fun d hd => h d (List.mem_cons_of_mem _ hd)]

/-! ## Writing -/

theorem mem_cellsOf {bs : List Byte} {a : Nat} {c : Host.Cell} (h : c ∈ cellsOf a bs) :
    a ≤ c.1 ∧ c.1 < a + bs.length ∧ c.2 ≠ blank := by
  induction bs generalizing a with
  | nil => simp [cellsOf] at h
  | cons b bs ih =>
    simp only [cellsOf] at h
    have step : c ∈ cellsOf (a + 1) bs → a ≤ c.1 ∧ c.1 < a + (b :: bs).length ∧ c.2 ≠ blank := fun hc => by
      have := ih hc
      simp only [List.length_cons]
      exact ⟨by omega, by omega, this.2.2⟩
    split at h
    · exact step h
    · rcases List.mem_cons.mp h with rfl | h
      · exact ⟨Nat.le_refl _, by simp, ‹_›⟩
      · exact step h

theorem cellsOf_canon (a : Nat) (bs : List Byte) : Canon (cellsOf a bs) := by
  refine ⟨?_, fun c hc => (mem_cellsOf hc).2.2⟩
  induction bs generalizing a with
  | nil => simp [cellsOf]
  | cons b bs ih =>
    simp only [cellsOf]
    split
    · exact ih (a + 1)
    · exact List.pairwise_cons.mpr ⟨fun c hc => (mem_cellsOf hc).1, ih (a + 1)⟩

theorem byteAt_cellsOf (a : Nat) (bs : List Byte) (x : Nat) :
    byteAt (cellsOf a bs) x = if a ≤ x ∧ x < a + bs.length then bs[x - a]?.getD 0 else blank := by
  induction bs generalizing a with
  | nil =>
    simp only [cellsOf, byteAt_nil, List.length_nil]
    split <;> simp [blank]
  | cons b bs ih =>
    have key : ∀ l, (x ≠ a → byteAt l x = byteAt (cellsOf (a + 1) bs) x) → (x = a → byteAt l x = b) →
        byteAt l x = if a ≤ x ∧ x < a + (b :: bs).length then (b :: bs)[x - a]?.getD 0 else blank := by
      intro l h1 h2
      by_cases hx : x = a
      · rw [h2 hx]
        simp [hx]
      · rw [h1 hx, ih]
        simp only [List.length_cons]
        by_cases hy : a ≤ x
        · obtain ⟨k, rfl⟩ : ∃ k, x = a + 1 + k := ⟨x - a - 1, by omega⟩
          have e1 : a + 1 + k - a = k + 1 := by omega
          have e2 : a + 1 + k - (a + 1) = k := by omega
          rw [e1, e2, List.getElem?_cons_succ]
          congr 1
          simp only [eq_iff_iff]
          omega
        · rw [if_neg (by omega), if_neg (by omega)]
    simp only [cellsOf]
    split
    · exact key _ (fun _ => rfl) (fun hx => by
        subst hx
        rw [byteAt_unlisted fun c hc => by have := (mem_cellsOf hc).1; omega]
        exact ‹b = blank›.symm)
    · exact key _ (fun hx => by simp only [byteAt]; rw [if_neg (Ne.symm hx)]) (fun hx => by simp [byteAt, hx])

theorem mem_takeWhile_lt {m : List Host.Cell} {a : Nat} {c : Host.Cell} (h : c ∈ m.takeWhile (fun c => c.1 < a)) : c.1 < a := by
  simpa using List.mem_takeWhile_imp h

/-- Behind the cells below an address, a canonical memory lists none below it. -/
theorem Canon.dropWhile_ge {m : List Host.Cell} (h : Canon m) {a : Nat} {c : Host.Cell}
    (hc : c ∈ m.dropWhile (fun c => c.1 < a)) : a ≤ c.1 := by
  induction m with
  | nil => simp at hc
  | cons d m ih =>
    rw [List.dropWhile_cons] at hc
    split at hc
    · exact ih (h.sublist (List.sublist_cons_self d m)) hc
    · rename_i hn
      have hd : ¬ d.1 < a := by simpa using hn
      rcases List.mem_cons.mp hc with rfl | hc
      · omega
      · have := (List.pairwise_cons.mp h.1).1 c hc
        omega

theorem Canon.append {l m : List Host.Cell} (hl : Canon l) (hm : Canon m) (h : ∀ c ∈ l, ∀ d ∈ m, c.1 < d.1) : Canon (l ++ m) :=
  ⟨List.pairwise_append.mpr ⟨hl.1, hm.1, h⟩, fun c hc => (List.mem_append.mp hc).elim (hl.2 c) (hm.2 c)⟩

theorem putBytes_canon {m : List Host.Cell} (h : Canon m) (a : Nat) (bs : List Byte) : Canon (putBytes m a bs) := by
  have hd : Canon (m.dropWhile (fun c => c.1 < a)) := h.sublist (List.dropWhile_sublist _)
  refine ((h.sublist (List.takeWhile_sublist _)).append (cellsOf_canon a bs) fun c hc d hd => ?_).append
    (hd.sublist (List.dropWhile_sublist _)) fun c hc d hx => ?_
  · exact Nat.lt_of_lt_of_le (mem_takeWhile_lt hc) (mem_cellsOf hd).1
  · have hx := hd.dropWhile_ge hx
    rcases List.mem_append.mp hc with hc | hc
    · have := mem_takeWhile_lt hc
      omega
    · have := (mem_cellsOf hc).2.1
      omega

/-- What every byte reads as after a write. -/
theorem byteAt_putBytes {m : List Host.Cell} (h : Canon m) (a : Nat) (bs : List Byte) (x : Nat) :
    byteAt (putBytes m a bs) x = if a ≤ x ∧ x < a + bs.length then bs[x - a]?.getD 0 else byteAt m x := by
  have hd : Canon (m.dropWhile (fun c => c.1 < a)) := h.sublist (List.dropWhile_sublist _)
  have hm : byteAt m x = byteAt (m.takeWhile (fun c => c.1 < a) ++ m.dropWhile (fun c => c.1 < a)) x := by
    rw [List.takeWhile_append_dropWhile]
  unfold putBytes
  by_cases h1 : x < a
  · rw [if_neg (by omega), hm, List.append_assoc, byteAt_append_left, byteAt_append_left]
    · intro c hc
      have := h.dropWhile_ge hc
      omega
    · intro c hc
      rcases List.mem_append.mp hc with hc | hc
      · have := (mem_cellsOf hc).1
        omega
      · have := hd.dropWhile_ge hc
        omega
  · have hl : ∀ c ∈ m.takeWhile (fun c => c.1 < a), c.1 ≠ x := fun c hc => by
      have := mem_takeWhile_lt hc
      omega
    rw [List.append_assoc, byteAt_append_right hl]
    by_cases h2 : x < a + bs.length
    · rw [byteAt_append_left, byteAt_cellsOf, if_pos ⟨by omega, h2⟩, if_pos ⟨by omega, h2⟩]
      intro c hc
      have := hd.dropWhile_ge hc
      omega
    · rw [if_neg (by omega), hm, byteAt_append_right hl, byteAt_append_right]
      · have hs : byteAt (m.dropWhile (fun c => c.1 < a)) x = byteAt
            ((m.dropWhile (fun c => c.1 < a)).takeWhile (fun c => c.1 < a + bs.length) ++
              (m.dropWhile (fun c => c.1 < a)).dropWhile (fun c => c.1 < a + bs.length)) x := by
          rw [List.takeWhile_append_dropWhile]
        rw [hs, byteAt_append_right]
        intro c hc
        have := mem_takeWhile_lt hc
        omega
      · intro c hc
        have := (mem_cellsOf hc).2.1
        omega

theorem putByte_canon {m : List Host.Cell} (h : Canon m) (a : Nat) (b : Byte) : Canon (putByte m a b) := putBytes_canon h a [b]

theorem clearRange_canon {m : List Host.Cell} (h : Canon m) (a n : Nat) : Canon (clearRange m a n) :=
  h.sublist List.filter_sublist

theorem filter_canon {m : List Host.Cell} (h : Canon m) (p : Host.Cell → Bool) : Canon (m.filter p) := h.sublist List.filter_sublist

/-- Writes of single bytes, one behind the other, keep the form. -/
theorem putAll_canon {m : List Host.Cell} (h : Canon m) (bs : List (Nat × Byte)) :
    Canon (bs.foldl (fun m b => putByte m b.1 b.2) m) := by
  induction bs generalizing m with
  | nil => exact h
  | cons b bs ih => exact ih (putByte_canon h b.1 b.2)

theorem writeMem_canon {m : List Host.Cell} (h : Canon m) (p : List Nat) (bs : List (Nat × Byte)) : Canon (writeMem m p bs).1 :=
  putAll_canon h bs

/-! ## HBM and the tile SRAM -/

theorem writeHbm_canon {s : State} (h : Canon s.hbm) (bs : List (Nat × Byte)) : Canon (s.writeHbm bs).hbm := putAll_canon h bs

theorem poisonHbm_canon {s : State} (h : Canon s.hbm) (l : List Nat) : Canon (s.poisonHbm l).hbm := h

theorem write_canon {t : Tile} (h : Canon t.sram) (bs : List (Nat × Byte)) (poison : Bool) : Canon (t.write bs poison).sram := by
  unfold Tile.write
  split
  · exact h
  · exact putAll_canon h _

/-- The HBM of the reset state has the form. -/
theorem reset_canon : Canon State.reset.hbm := ⟨List.Pairwise.nil, fun _ h => nomatch h⟩

end Sys2Proof.Machine
end

