-- ==== Sys2Proof/Laws/PerInstr.lean ====
section
/-! SUPPORT. What holds of every instruction as syntax, one lemma for each constructor. -/

namespace Sys2Proof.Laws

/-- The row of the opcode of a Siroux instruction builds that instruction again, its opcode fits its 9 bits, and an instruction is
no slot word and message at once (R29, R234, R243). -/
def Rows.Statement (i : Instr) : Prop :=
  (∀ opc w, opcodeOf i = some (opc, w) → opc < 512 ∧ ∃ r, opRow? opc = some r ∧ r.ins w = i) ∧ (opcodeOf i = none ∨ amOf i = none)

theorem Rows.ofSlot {i : Instr} {opc : Nat} {w : Slot} {r : OpRow} (h : opcodeOf i = some (opc, w)) (hr : opRow? opc = some r)
    (hi : r.ins w = i) (hn : opc < 512) (ha : amOf i = none) : Rows.Statement i :=
  ⟨fun a b e => by rw [h] at e; cases e; exact ⟨hn, r, hr, hi⟩, .inr ha⟩

theorem Rows.ofOther {i : Instr} (h : opcodeOf i = none) : Rows.Statement i :=
  ⟨fun a b e => (by rw [h] at e; exact nomatch e), .inl h⟩

theorem Rows.launch (m : Am) : Rows.Statement (.launch m) := Rows.ofOther rfl
theorem Rows.cancel (m : Am) : Rows.Statement (.cancel m) := Rows.ofOther rfl
theorem Rows.preempt (m : Am) : Rows.Statement (.preempt m) := Rows.ofOther rfl
theorem Rows.resume (m : Am) : Rows.Statement (.resume m) := Rows.ofOther rfl
theorem Rows.signal (m : Am) : Rows.Statement (.signal m) := Rows.ofOther rfl
theorem Rows.order (m : Am) : Rows.Statement (.order m) := Rows.ofOther rfl
theorem Rows.policy (m : Am) : Rows.Statement (.policy m) := Rows.ofOther rfl
theorem Rows.maproot (m : Am) : Rows.Statement (.maproot m) := Rows.ofOther rfl
theorem Rows.fwloadOpen (m : Am) : Rows.Statement (.fwloadOpen m) := Rows.ofOther rfl
theorem Rows.fwloadClose (m : Am) : Rows.Statement (.fwloadClose m) := Rows.ofOther rfl
theorem Rows.dbgread (m : Am) : Rows.Statement (.dbgread m) := Rows.ofOther rfl
theorem Rows.dbghold (m : Am) : Rows.Statement (.dbghold m) := Rows.ofOther rfl
theorem Rows.dbgholdRelease (m : Am) : Rows.Statement (.dbgholdRelease m) := Rows.ofOther rfl
theorem Rows.userAm (m : Am) : Rows.Statement (.userAm m) := Rows.ofOther rfl
theorem Rows.amUndefined (m : Am) : Rows.Statement (.amUndefined m) := Rows.ofOther rfl
theorem Rows.userAmDelivery (part entry : Nat) : Rows.Statement (.userAmDelivery part entry) := Rows.ofOther rfl
theorem Rows.deviceAmDelivery (vf : Nat) : Rows.Statement (.deviceAmDelivery vf) := Rows.ofOther rfl
theorem Rows.hostRead (vf : BitVec 9) (va : DWord) (len : Nat) : Rows.Statement (.hostRead vf va len) := Rows.ofOther rfl
theorem Rows.hostWrite (vf : BitVec 9) (va : DWord) (bytes : List Byte) : Rows.Statement (.hostWrite vf va bytes) := Rows.ofOther rfl
theorem Rows.vfTableWrite (who : BitVec 9) (v : Nat) (val : DWord) : Rows.Statement (.vfTableWrite who v val) := Rows.ofOther rfl
theorem Rows.attestationGo (who : BitVec 9) (part : Nat) (val : DWord) : Rows.Statement (.attestationGo who part val) := Rows.ofOther rfl
theorem Rows.tkeyWrite (who : BitVec 9) (part idx : Nat) (val : DWord) : Rows.Statement (.tkeyWrite who part idx val) := Rows.ofOther rfl
theorem Rows.savePoolWrite (who : BitVec 9) (part : Nat) (val : DWord) : Rows.Statement (.savePoolWrite who part val) := Rows.ofOther rfl
theorem Rows.partitionLayoutWrite (who : BitVec 9) (g : Nat) (val : DWord) : Rows.Statement (.partitionLayoutWrite who g val) := Rows.ofOther rfl
theorem Rows.retirementWrite (who : BitVec 9) (g : Nat) (val : DWord) : Rows.Statement (.retirementWrite who g val) := Rows.ofOther rfl
theorem Rows.clusterControlWrite (who : BitVec 9) (g : Nat) (val : DWord) : Rows.Statement (.clusterControlWrite who g val) := Rows.ofOther rfl
theorem Rows.sprintRegisterWrite (who : BitVec 9) (val : DWord) : Rows.Statement (.sprintRegisterWrite who val) := Rows.ofOther rfl
theorem Rows.vfClampWrite (who : BitVec 9) (v : Nat) (val : DWord) : Rows.Statement (.vfClampWrite who v val) := Rows.ofOther rfl
theorem Rows.throttleWrite (who : BitVec 9) (g : Nat) (val : DWord) : Rows.Statement (.throttleWrite who g val) := Rows.ofOther rfl
theorem Rows.gateRequestWrite (who : BitVec 9) (g : Nat) (val : DWord) : Rows.Statement (.gateRequestWrite who g val) := Rows.ofOther rfl
theorem Rows.ownershipWrite (who : BitVec 9) (u : Nat) (val : Byte) : Rows.Statement (.ownershipWrite who u val) := Rows.ofOther rfl
theorem Rows.recordBufferWrite (who : BitVec 9) (part : Nat) (trace : Bool) (word : Nat) (val : DWord) : Rows.Statement (.recordBufferWrite who part trace word val) := Rows.ofOther rfl
theorem Rows.registerWrite (who : BitVec 9) (off : Nat) (val : DWord) : Rows.Statement (.registerWrite who off val) := Rows.ofOther rfl
theorem Rows.firmwareStart (pkg : BitVec 8) (bad : List Nat) : Rows.Statement (.firmwareStart pkg bad) := Rows.ofOther rfl
theorem Rows.lewenTrain (allLanes : Bool) : Rows.Statement (.lewenTrain allLanes) := Rows.ofOther rfl
theorem Rows.bindingDecision (part : Nat) : Rows.Statement (.bindingDecision part) := Rows.ofOther rfl
theorem Rows.finishArrival (eid q : Nat) : Rows.Statement (.finishArrival eid q) := Rows.ofOther rfl
theorem Rows.finishForward (eid : Nat) : Rows.Statement (.finishForward eid) := Rows.ofOther rfl
theorem Rows.elementFreed (eid : Nat) : Rows.Statement (.elementFreed eid) := Rows.ofOther rfl
theorem Rows.holdWaveArrival (eid : Nat) : Rows.Statement (.holdWaveArrival eid) := Rows.ofOther rfl
theorem Rows.softError (place : SoftPlace) : Rows.Statement (.softError place) := Rows.ofOther rfl
theorem Rows.trackLinkFault (msg : Nat) : Rows.Statement (.trackLinkFault msg) := Rows.ofOther rfl
theorem Rows.update1ms (pwr cshare : List (BitVec 16)) (pkgw : BitVec 16) : Rows.Statement (.update1ms pwr cshare pkgw) := Rows.ofOther rfl
theorem Rows.tokenTransfer (eid entry : Nat) : Rows.Statement (.tokenTransfer eid entry) := Rows.ofOther rfl
theorem Rows.farTokenArrival (msg : Nat) : Rows.Statement (.farTokenArrival msg) := Rows.ofOther rfl
theorem Rows.endpointDelivery (tile ch : Nat) : Rows.Statement (.endpointDelivery tile ch) := Rows.ofOther rfl
theorem Rows.creditReturn (msg : Nat) : Rows.Statement (.creditReturn msg) := Rows.ofOther rfl
theorem Rows.trackInject (tile : Nat) (response : Bool) : Rows.Statement (.trackInject tile response) := Rows.ofOther rfl
theorem Rows.answerDelivery (eid : Nat) : Rows.Statement (.answerDelivery eid) := Rows.ofOther rfl
theorem Rows.homeEvent (acc : Nat) : Rows.Statement (.homeEvent acc) := Rows.ofOther rfl
theorem Rows.prefetch (eid strm : Nat) : Rows.Statement (.prefetch eid strm) := Rows.ofOther rfl
theorem Rows.walkDone (acc : Nat) : Rows.Statement (.walkDone acc) := Rows.ofOther rfl
theorem Rows.copyComplete (tile op : Nat) : Rows.Statement (.copyComplete tile op) := Rows.ofOther rfl
theorem Rows.remoteAccessRx (r : RemoteAccess) : Rows.Statement (.remoteAccessRx r) := Rows.ofOther rfl
theorem Rows.aqricPortFail (port : Nat) : Rows.Statement (.aqricPortFail port) := Rows.ofOther rfl
theorem Rows.aqricRemap (port : Nat) : Rows.Statement (.aqricRemap port) := Rows.ofOther rfl
theorem Rows.ethFrameRx (port : Nat) (f : EthFrame) : Rows.Statement (.ethFrameRx port f) := Rows.ofOther rfl
theorem Rows.ethAckRx (port : Nat) (f : EthFrame) : Rows.Statement (.ethAckRx port f) := Rows.ofOther rfl
theorem Rows.ethAckSend (port flow : Nat) : Rows.Statement (.ethAckSend port flow) := Rows.ofOther rfl
theorem Rows.ethResend (eid strm : Nat) : Rows.Statement (.ethResend eid strm) := Rows.ofOther rfl
theorem Rows.rateCapSecond (part : Nat) : Rows.Statement (.rateCapSecond part) := Rows.ofOther rfl
theorem Rows.mov (w : Slot) : Rows.Statement (.mov w) := Rows.ofSlot rfl rfl rfl (by decide) rfl
theorem Rows.nop (w : Slot) : Rows.Statement (.nop w) := Rows.ofSlot rfl rfl rfl (by decide) rfl
theorem Rows.add (w : Slot) : Rows.Statement (.add w) := Rows.ofSlot rfl rfl rfl (by decide) rfl
theorem Rows.sub (w : Slot) : Rows.Statement (.sub w) := Rows.ofSlot rfl rfl rfl (by decide) rfl
theorem Rows.adds (w : Slot) : Rows.Statement (.adds w) := Rows.ofSlot rfl rfl rfl (by decide) rfl
theorem Rows.subs (w : Slot) : Rows.Statement (.subs w) := Rows.ofSlot rfl rfl rfl (by decide) rfl
theorem Rows.addus (w : Slot) : Rows.Statement (.addus w) := Rows.ofSlot rfl rfl rfl (by decide) rfl
theorem Rows.subus (w : Slot) : Rows.Statement (.subus w) := Rows.ofSlot rfl rfl rfl (by decide) rfl
theorem Rows.mul (w : Slot) : Rows.Statement (.mul w) := Rows.ofSlot rfl rfl rfl (by decide) rfl
theorem Rows.mulh (w : Slot) : Rows.Statement (.mulh w) := Rows.ofSlot rfl rfl rfl (by decide) rfl
theorem Rows.mulhu (w : Slot) : Rows.Statement (.mulhu w) := Rows.ofSlot rfl rfl rfl (by decide) rfl
theorem Rows.mad (w : Slot) : Rows.Statement (.mad w) := Rows.ofSlot rfl rfl rfl (by decide) rfl
theorem Rows.div (w : Slot) : Rows.Statement (.div w) := Rows.ofSlot rfl rfl rfl (by decide) rfl
theorem Rows.divu (w : Slot) : Rows.Statement (.divu w) := Rows.ofSlot rfl rfl rfl (by decide) rfl
theorem Rows.rem (w : Slot) : Rows.Statement (.rem w) := Rows.ofSlot rfl rfl rfl (by decide) rfl
theorem Rows.remu (w : Slot) : Rows.Statement (.remu w) := Rows.ofSlot rfl rfl rfl (by decide) rfl
theorem Rows.neg (w : Slot) : Rows.Statement (.neg w) := Rows.ofSlot rfl rfl rfl (by decide) rfl
theorem Rows.abs (w : Slot) : Rows.Statement (.abs w) := Rows.ofSlot rfl rfl rfl (by decide) rfl
theorem Rows.min (w : Slot) : Rows.Statement (.min w) := Rows.ofSlot rfl rfl rfl (by decide) rfl
theorem Rows.max (w : Slot) : Rows.Statement (.max w) := Rows.ofSlot rfl rfl rfl (by decide) rfl
theorem Rows.minu (w : Slot) : Rows.Statement (.minu w) := Rows.ofSlot rfl rfl rfl (by decide) rfl
theorem Rows.maxu (w : Slot) : Rows.Statement (.maxu w) := Rows.ofSlot rfl rfl rfl (by decide) rfl
theorem Rows.and (w : Slot) : Rows.Statement (.and w) := Rows.ofSlot rfl rfl rfl (by decide) rfl
theorem Rows.or (w : Slot) : Rows.Statement (.or w) := Rows.ofSlot rfl rfl rfl (by decide) rfl
theorem Rows.xor (w : Slot) : Rows.Statement (.xor w) := Rows.ofSlot rfl rfl rfl (by decide) rfl
theorem Rows.andn (w : Slot) : Rows.Statement (.andn w) := Rows.ofSlot rfl rfl rfl (by decide) rfl
theorem Rows.not (w : Slot) : Rows.Statement (.not w) := Rows.ofSlot rfl rfl rfl (by decide) rfl
theorem Rows.shl (w : Slot) : Rows.Statement (.shl w) := Rows.ofSlot rfl rfl rfl (by decide) rfl
theorem Rows.shr (w : Slot) : Rows.Statement (.shr w) := Rows.ofSlot rfl rfl rfl (by decide) rfl
theorem Rows.sar (w : Slot) : Rows.Statement (.sar w) := Rows.ofSlot rfl rfl rfl (by decide) rfl
theorem Rows.rol (w : Slot) : Rows.Statement (.rol w) := Rows.ofSlot rfl rfl rfl (by decide) rfl
theorem Rows.clz (w : Slot) : Rows.Statement (.clz w) := Rows.ofSlot rfl rfl rfl (by decide) rfl
theorem Rows.popc (w : Slot) : Rows.Statement (.popc w) := Rows.ofSlot rfl rfl rfl (by decide) rfl
theorem Rows.brev (w : Slot) : Rows.Statement (.brev w) := Rows.ofSlot rfl rfl rfl (by decide) rfl
theorem Rows.bfx (w : Slot) : Rows.Statement (.bfx w) := Rows.ofSlot rfl rfl rfl (by decide) rfl
theorem Rows.bfi (w : Slot) : Rows.Statement (.bfi w) := Rows.ofSlot rfl rfl rfl (by decide) rfl
theorem Rows.sel (w : Slot) : Rows.Statement (.sel w) := Rows.ofSlot rfl rfl rfl (by decide) rfl
theorem Rows.cmpeq (w : Slot) : Rows.Statement (.cmpeq w) := Rows.ofSlot rfl rfl rfl (by decide) rfl
theorem Rows.cmpne (w : Slot) : Rows.Statement (.cmpne w) := Rows.ofSlot rfl rfl rfl (by decide) rfl
theorem Rows.cmplt (w : Slot) : Rows.Statement (.cmplt w) := Rows.ofSlot rfl rfl rfl (by decide) rfl
theorem Rows.cmple (w : Slot) : Rows.Statement (.cmple w) := Rows.ofSlot rfl rfl rfl (by decide) rfl
theorem Rows.cmpltu (w : Slot) : Rows.Statement (.cmpltu w) := Rows.ofSlot rfl rfl rfl (by decide) rfl
theorem Rows.cmpleu (w : Slot) : Rows.Statement (.cmpleu w) := Rows.ofSlot rfl rfl rfl (by decide) rfl
theorem Rows.add64 (w : Slot) : Rows.Statement (.add64 w) := Rows.ofSlot rfl rfl rfl (by decide) rfl
theorem Rows.sub64 (w : Slot) : Rows.Statement (.sub64 w) := Rows.ofSlot rfl rfl rfl (by decide) rfl
theorem Rows.mul64 (w : Slot) : Rows.Statement (.mul64 w) := Rows.ofSlot rfl rfl rfl (by decide) rfl
theorem Rows.cmplt64 (w : Slot) : Rows.Statement (.cmplt64 w) := Rows.ofSlot rfl rfl rfl (by decide) rfl
theorem Rows.amov (w : Slot) : Rows.Statement (.amov w) := Rows.ofSlot rfl rfl rfl (by decide) rfl
theorem Rows.aadd (w : Slot) : Rows.Statement (.aadd w) := Rows.ofSlot rfl rfl rfl (by decide) rfl
theorem Rows.fadd (w : Slot) : Rows.Statement (.fadd w) := Rows.ofSlot rfl rfl rfl (by decide) rfl
theorem Rows.fsub (w : Slot) : Rows.Statement (.fsub w) := Rows.ofSlot rfl rfl rfl (by decide) rfl
theorem Rows.fmul (w : Slot) : Rows.Statement (.fmul w) := Rows.ofSlot rfl rfl rfl (by decide) rfl
theorem Rows.ffma (w : Slot) : Rows.Statement (.ffma w) := Rows.ofSlot rfl rfl rfl (by decide) rfl
theorem Rows.ffms (w : Slot) : Rows.Statement (.ffms w) := Rows.ofSlot rfl rfl rfl (by decide) rfl
theorem Rows.fnma (w : Slot) : Rows.Statement (.fnma w) := Rows.ofSlot rfl rfl rfl (by decide) rfl
theorem Rows.fmin (w : Slot) : Rows.Statement (.fmin w) := Rows.ofSlot rfl rfl rfl (by decide) rfl
theorem Rows.fmax (w : Slot) : Rows.Statement (.fmax w) := Rows.ofSlot rfl rfl rfl (by decide) rfl
theorem Rows.fabs (w : Slot) : Rows.Statement (.fabs w) := Rows.ofSlot rfl rfl rfl (by decide) rfl
theorem Rows.fneg (w : Slot) : Rows.Statement (.fneg w) := Rows.ofSlot rfl rfl rfl (by decide) rfl
theorem Rows.fcopysgn (w : Slot) : Rows.Statement (.fcopysgn w) := Rows.ofSlot rfl rfl rfl (by decide) rfl
theorem Rows.fcmpeq (w : Slot) : Rows.Statement (.fcmpeq w) := Rows.ofSlot rfl rfl rfl (by decide) rfl
theorem Rows.fcmplt (w : Slot) : Rows.Statement (.fcmplt w) := Rows.ofSlot rfl rfl rfl (by decide) rfl
theorem Rows.fcmple (w : Slot) : Rows.Statement (.fcmple w) := Rows.ofSlot rfl rfl rfl (by decide) rfl
theorem Rows.fcmpun (w : Slot) : Rows.Statement (.fcmpun w) := Rows.ofSlot rfl rfl rfl (by decide) rfl
theorem Rows.fdiv (w : Slot) : Rows.Statement (.fdiv w) := Rows.ofSlot rfl rfl rfl (by decide) rfl
theorem Rows.fsqrt (w : Slot) : Rows.Statement (.fsqrt w) := Rows.ofSlot rfl rfl rfl (by decide) rfl
theorem Rows.frcp (w : Slot) : Rows.Statement (.frcp w) := Rows.ofSlot rfl rfl rfl (by decide) rfl
theorem Rows.frsq (w : Slot) : Rows.Statement (.frsq w) := Rows.ofSlot rfl rfl rfl (by decide) rfl
theorem Rows.frint (w : Slot) : Rows.Statement (.frint w) := Rows.ofSlot rfl rfl rfl (by decide) rfl
theorem Rows.fclass (w : Slot) : Rows.Statement (.fclass w) := Rows.ofSlot rfl rfl rfl (by decide) rfl
theorem Rows.fscale (w : Slot) : Rows.Statement (.fscale w) := Rows.ofSlot rfl rfl rfl (by decide) rfl
theorem Rows.fexpn (w : Slot) : Rows.Statement (.fexpn w) := Rows.ofSlot rfl rfl rfl (by decide) rfl
theorem Rows.xclr (w : Slot) : Rows.Statement (.xclr w) := Rows.ofSlot rfl rfl rfl (by decide) rfl
theorem Rows.xadd (w : Slot) : Rows.Statement (.xadd w) := Rows.ofSlot rfl rfl rfl (by decide) rfl
theorem Rows.xmac (w : Slot) : Rows.Statement (.xmac w) := Rows.ofSlot rfl rfl rfl (by decide) rfl
theorem Rows.xmerge (w : Slot) : Rows.Statement (.xmerge w) := Rows.ofSlot rfl rfl rfl (by decide) rfl
theorem Rows.xsend (w : Slot) : Rows.Statement (.xsend w) := Rows.ofSlot rfl rfl rfl (by decide) rfl
theorem Rows.xrd (w : Slot) : Rows.Statement (.xrd w) := Rows.ofSlot rfl rfl rfl (by decide) rfl
theorem Rows.xflag (w : Slot) : Rows.Statement (.xflag w) := Rows.ofSlot rfl rfl rfl (by decide) rfl
theorem Rows.cvtfi (w : Slot) : Rows.Statement (.cvtfi w) := Rows.ofSlot rfl rfl rfl (by decide) rfl
theorem Rows.cvtfu (w : Slot) : Rows.Statement (.cvtfu w) := Rows.ofSlot rfl rfl rfl (by decide) rfl
theorem Rows.cvtif (w : Slot) : Rows.Statement (.cvtif w) := Rows.ofSlot rfl rfl rfl (by decide) rfl
theorem Rows.cvtuf (w : Slot) : Rows.Statement (.cvtuf w) := Rows.ofSlot rfl rfl rfl (by decide) rfl
theorem Rows.cvtsd (w : Slot) : Rows.Statement (.cvtsd w) := Rows.ofSlot rfl rfl rfl (by decide) rfl
theorem Rows.cvtds (w : Slot) : Rows.Statement (.cvtds w) := Rows.ofSlot rfl rfl rfl (by decide) rfl
theorem Rows.cvtdi (w : Slot) : Rows.Statement (.cvtdi w) := Rows.ofSlot rfl rfl rfl (by decide) rfl
theorem Rows.cvtid (w : Slot) : Rows.Statement (.cvtid w) := Rows.ofSlot rfl rfl rfl (by decide) rfl
theorem Rows.fsinpi (w : Slot) : Rows.Statement (.fsinpi w) := Rows.ofSlot rfl rfl rfl (by decide) rfl
theorem Rows.fcospi (w : Slot) : Rows.Statement (.fcospi w) := Rows.ofSlot rfl rfl rfl (by decide) rfl
theorem Rows.frred (w : Slot) : Rows.Statement (.frred w) := Rows.ofSlot rfl rfl rfl (by decide) rfl
theorem Rows.fexp2 (w : Slot) : Rows.Statement (.fexp2 w) := Rows.ofSlot rfl rfl rfl (by decide) rfl
theorem Rows.flog2 (w : Slot) : Rows.Statement (.flog2 w) := Rows.ofSlot rfl rfl rfl (by decide) rfl
theorem Rows.ftanh (w : Slot) : Rows.Statement (.ftanh w) := Rows.ofSlot rfl rfl rfl (by decide) rfl
theorem Rows.fsigm (w : Slot) : Rows.Statement (.fsigm w) := Rows.ofSlot rfl rfl rfl (by decide) rfl
theorem Rows.lswap (w : Slot) : Rows.Statement (.lswap w) := Rows.ofSlot rfl rfl rfl (by decide) rfl
theorem Rows.lrot (w : Slot) : Rows.Statement (.lrot w) := Rows.ofSlot rfl rfl rfl (by decide) rfl
theorem Rows.lperm (w : Slot) : Rows.Statement (.lperm w) := Rows.ofSlot rfl rfl rfl (by decide) rfl
theorem Rows.lbcast (w : Slot) : Rows.Statement (.lbcast w) := Rows.ofSlot rfl rfl rfl (by decide) rfl
theorem Rows.lxor (w : Slot) : Rows.Statement (.lxor w) := Rows.ofSlot rfl rfl rfl (by decide) rfl
theorem Rows.lcomp (w : Slot) : Rows.Statement (.lcomp w) := Rows.ofSlot rfl rfl rfl (by decide) rfl
theorem Rows.lexp (w : Slot) : Rows.Statement (.lexp w) := Rows.ofSlot rfl rfl rfl (by decide) rfl
theorem Rows.lshup (w : Slot) : Rows.Statement (.lshup w) := Rows.ofSlot rfl rfl rfl (by decide) rfl
theorem Rows.vmask (w : Slot) : Rows.Statement (.vmask w) := Rows.ofSlot rfl rfl rfl (by decide) rfl
theorem Rows.vvalid (w : Slot) : Rows.Statement (.vvalid w) := Rows.ofSlot rfl rfl rfl (by decide) rfl
theorem Rows.vradd (w : Slot) : Rows.Statement (.vradd w) := Rows.ofSlot rfl rfl rfl (by decide) rfl
theorem Rows.vrmin (w : Slot) : Rows.Statement (.vrmin w) := Rows.ofSlot rfl rfl rfl (by decide) rfl
theorem Rows.vrmax (w : Slot) : Rows.Statement (.vrmax w) := Rows.ofSlot rfl rfl rfl (by decide) rfl
theorem Rows.vrfadd (w : Slot) : Rows.Statement (.vrfadd w) := Rows.ofSlot rfl rfl rfl (by decide) rfl
theorem Rows.vrfmax (w : Slot) : Rows.Statement (.vrfmax w) := Rows.ofSlot rfl rfl rfl (by decide) rfl
theorem Rows.vscan (w : Slot) : Rows.Statement (.vscan w) := Rows.ofSlot rfl rfl rfl (by decide) rfl
theorem Rows.vfscan (w : Slot) : Rows.Statement (.vfscan w) := Rows.ofSlot rfl rfl rfl (by decide) rfl
theorem Rows.pass (w : Slot) : Rows.Statement (.pass w) := Rows.ofSlot rfl rfl rfl (by decide) rfl
theorem Rows.dup (w : Slot) : Rows.Statement (.dup w) := Rows.ofSlot rfl rfl rfl (by decide) rfl
theorem Rows.filt (w : Slot) : Rows.Statement (.filt w) := Rows.ofSlot rfl rfl rfl (by decide) rfl
theorem Rows.gate (w : Slot) : Rows.Statement (.gate w) := Rows.ofSlot rfl rfl rfl (by decide) rfl
theorem Rows.merge (w : Slot) : Rows.Statement (.merge w) := Rows.ofSlot rfl rfl rfl (by decide) rfl
theorem Rows.zip (w : Slot) : Rows.Statement (.zip w) := Rows.ofSlot rfl rfl rfl (by decide) rfl
theorem Rows.isect (w : Slot) : Rows.Statement (.isect w) := Rows.ofSlot rfl rfl rfl (by decide) rfl
theorem Rows.union (w : Slot) : Rows.Statement (.union w) := Rows.ofSlot rfl rfl rfl (by decide) rfl
theorem Rows.retag (w : Slot) : Rows.Statement (.retag w) := Rows.ofSlot rfl rfl rfl (by decide) rfl
theorem Rows.tagsel (w : Slot) : Rows.Statement (.tagsel w) := Rows.ofSlot rfl rfl rfl (by decide) rfl
theorem Rows.aloop (w : Slot) : Rows.Statement (.aloop w) := Rows.ofSlot rfl rfl rfl (by decide) rfl
theorem Rows.cnt (w : Slot) : Rows.Statement (.cnt w) := Rows.ofSlot rfl rfl rfl (by decide) rfl
theorem Rows.endgen (w : Slot) : Rows.Statement (.endgen w) := Rows.ofSlot rfl rfl rfl (by decide) rfl
theorem Rows.pset (w : Slot) : Rows.Statement (.pset w) := Rows.ofSlot rfl rfl rfl (by decide) rfl
theorem Rows.sloten (w : Slot) : Rows.Statement (.sloten w) := Rows.ofSlot rfl rfl rfl (by decide) rfl
theorem Rows.pack (w : Slot) : Rows.Statement (.pack w) := Rows.ofSlot rfl rfl rfl (by decide) rfl
theorem Rows.lds (w : Slot) : Rows.Statement (.lds w) := Rows.ofSlot rfl rfl rfl (by decide) rfl
theorem Rows.sts (w : Slot) : Rows.Statement (.sts w) := Rows.ofSlot rfl rfl rfl (by decide) rfl
theorem Rows.ldsx (w : Slot) : Rows.Statement (.ldsx w) := Rows.ofSlot rfl rfl rfl (by decide) rfl
theorem Rows.stsx (w : Slot) : Rows.Statement (.stsx w) := Rows.ofSlot rfl rfl rfl (by decide) rfl
theorem Rows.atms (w : Slot) : Rows.Statement (.atms w) := Rows.ofSlot rfl rfl rfl (by decide) rfl
theorem Rows.cass (w : Slot) : Rows.Statement (.cass w) := Rows.ofSlot rfl rfl rfl (by decide) rfl
theorem Rows.tas (w : Slot) : Rows.Statement (.tas w) := Rows.ofSlot rfl rfl rfl (by decide) rfl
theorem Rows.hins (w : Slot) : Rows.Statement (.hins w) := Rows.ofSlot rfl rfl rfl (by decide) rfl
theorem Rows.hfind (w : Slot) : Rows.Statement (.hfind w) := Rows.ofSlot rfl rfl rfl (by decide) rfl
theorem Rows.lbput (w : Slot) : Rows.Statement (.lbput w) := Rows.ofSlot rfl rfl rfl (by decide) rfl
theorem Rows.lbget (w : Slot) : Rows.Statement (.lbget w) := Rows.ofSlot rfl rfl rfl (by decide) rfl
theorem Rows.lbstat (w : Slot) : Rows.Statement (.lbstat w) := Rows.ofSlot rfl rfl rfl (by decide) rfl
theorem Rows.fences (w : Slot) : Rows.Statement (.fences w) := Rows.ofSlot rfl rfl rfl (by decide) rfl
theorem Rows.cpy (w : Slot) : Rows.Statement (.cpy w) := Rows.ofSlot rfl rfl rfl (by decide) rfl
theorem Rows.rsts (w : Slot) : Rows.Statement (.rsts w) := Rows.ofSlot rfl rfl rfl (by decide) rfl
theorem Rows.ratm (w : Slot) : Rows.Statement (.ratm w) := Rows.ofSlot rfl rfl rfl (by decide) rfl
theorem Rows.ldg (w : Slot) : Rows.Statement (.ldg w) := Rows.ofSlot rfl rfl rfl (by decide) rfl
theorem Rows.stg (w : Slot) : Rows.Statement (.stg w) := Rows.ofSlot rfl rfl rfl (by decide) rfl
theorem Rows.gath (w : Slot) : Rows.Statement (.gath w) := Rows.ofSlot rfl rfl rfl (by decide) rfl
theorem Rows.scat (w : Slot) : Rows.Statement (.scat w) := Rows.ofSlot rfl rfl rfl (by decide) rfl
theorem Rows.atmg (w : Slot) : Rows.Statement (.atmg w) := Rows.ofSlot rfl rfl rfl (by decide) rfl
theorem Rows.casg (w : Slot) : Rows.Statement (.casg w) := Rows.ofSlot rfl rfl rfl (by decide) rfl
theorem Rows.patld (w : Slot) : Rows.Statement (.patld w) := Rows.ofSlot rfl rfl rfl (by decide) rfl
theorem Rows.patst (w : Slot) : Rows.Statement (.patst w) := Rows.ofSlot rfl rfl rfl (by decide) rfl
theorem Rows.planeld (w : Slot) : Rows.Statement (.planeld w) := Rows.ofSlot rfl rfl rfl (by decide) rfl
theorem Rows.wld (w : Slot) : Rows.Statement (.wld w) := Rows.ofSlot rfl rfl rfl (by decide) rfl
theorem Rows.fenceg (w : Slot) : Rows.Statement (.fenceg w) := Rows.ofSlot rfl rfl rfl (by decide) rfl
theorem Rows.patset (w : Slot) : Rows.Statement (.patset w) := Rows.ofSlot rfl rfl rfl (by decide) rfl
theorem Rows.pref (w : Slot) : Rows.Statement (.pref w) := Rows.ofSlot rfl rfl rfl (by decide) rfl
theorem Rows.mcfg (w : Slot) : Rows.Statement (.mcfg w) := Rows.ofSlot rfl rfl rfl (by decide) rfl
theorem Rows.mwload (w : Slot) : Rows.Statement (.mwload w) := Rows.ofSlot rfl rfl rfl (by decide) rfl
theorem Rows.mexpt (w : Slot) : Rows.Statement (.mexpt w) := Rows.ofSlot rfl rfl rfl (by decide) rfl
theorem Rows.mplane (w : Slot) : Rows.Statement (.mplane w) := Rows.ofSlot rfl rfl rfl (by decide) rfl
theorem Rows.mdrain (w : Slot) : Rows.Statement (.mdrain w) := Rows.ofSlot rfl rfl rfl (by decide) rfl
theorem Rows.mclr (w : Slot) : Rows.Statement (.mclr w) := Rows.ofSlot rfl rfl rfl (by decide) rfl
theorem Rows.mswap (w : Slot) : Rows.Statement (.mswap w) := Rows.ofSlot rfl rfl rfl (by decide) rfl
theorem Rows.mstat (w : Slot) : Rows.Statement (.mstat w) := Rows.ofSlot rfl rfl rfl (by decide) rfl
theorem Rows.trap (w : Slot) : Rows.Statement (.trap w) := Rows.ofSlot rfl rfl rfl (by decide) rfl
theorem Rows.brk (w : Slot) : Rows.Statement (.brk w) := Rows.ofSlot rfl rfl rfl (by decide) rfl
theorem Rows.lease (w : Slot) : Rows.Statement (.lease w) := Rows.ofSlot rfl rfl rfl (by decide) rfl
theorem Rows.leaseend (w : Slot) : Rows.Statement (.leaseend w) := Rows.ofSlot rfl rfl rfl (by decide) rfl
theorem Rows.meltrd (w : Slot) : Rows.Statement (.meltrd w) := Rows.ofSlot rfl rfl rfl (by decide) rfl
theorem Rows.cntrd (w : Slot) : Rows.Statement (.cntrd w) := Rows.ofSlot rfl rfl rfl (by decide) rfl
theorem Rows.cntctl (w : Slot) : Rows.Statement (.cntctl w) := Rows.ofSlot rfl rfl rfl (by decide) rfl
theorem Rows.pace (w : Slot) : Rows.Statement (.pace w) := Rows.ofSlot rfl rfl rfl (by decide) rfl
theorem Rows.tstamp (w : Slot) : Rows.Statement (.tstamp w) := Rows.ofSlot rfl rfl rfl (by decide) rfl
theorem Rows.tdone (w : Slot) : Rows.Statement (.tdone w) := Rows.ofSlot rfl rfl rfl (by decide) rfl
theorem Rows.yield (w : Slot) : Rows.Statement (.yield w) := Rows.ofSlot rfl rfl rfl (by decide) rfl
theorem Rows.amsend (w : Slot) : Rows.Statement (.amsend w) := Rows.ofSlot rfl rfl rfl (by decide) rfl
theorem Rows.flagrd (w : Slot) : Rows.Statement (.flagrd w) := Rows.ofSlot rfl rfl rfl (by decide) rfl
theorem Rows.flagclr (w : Slot) : Rows.Statement (.flagclr w) := Rows.ofSlot rfl rfl rfl (by decide) rfl
theorem Rows.policyrd (w : Slot) : Rows.Statement (.policyrd w) := Rows.ofSlot rfl rfl rfl (by decide) rfl
theorem Rows.selection (eid : Nat) : Rows.Statement (.selection eid) := Rows.ofOther rfl
theorem Rows.aqricReplay (port : Nat) : Rows.Statement (.aqricReplay port) := Rows.ofOther rfl
theorem Rows.complete : Rows.Statement .complete := Rows.ofOther rfl
theorem Rows.faultnote : Rows.Statement .faultnote := Rows.ofOther rfl
theorem Rows.powerUp : Rows.Statement .powerUp := Rows.ofOther rfl
theorem Rows.graphWalk : Rows.Statement .graphWalk := Rows.ofOther rfl
theorem Rows.aging : Rows.Statement .aging := Rows.ofOther rfl
theorem Rows.minresReached : Rows.Statement .minresReached := Rows.ofOther rfl
theorem Rows.relayStaged : Rows.Statement .relayStaged := Rows.ofOther rfl
theorem Rows.configFetchFault : Rows.Statement .configFetchFault := Rows.ofOther rfl
theorem Rows.commitWave : Rows.Statement .commitWave := Rows.ofOther rfl
theorem Rows.commitDone : Rows.Statement .commitDone := Rows.ofOther rfl
theorem Rows.baton : Rows.Statement .baton := Rows.ofOther rfl
theorem Rows.tdoneAccounting : Rows.Statement .tdoneAccounting := Rows.ofOther rfl
theorem Rows.taskFinal : Rows.Statement .taskFinal := Rows.ofOther rfl
theorem Rows.completionProgressWrite : Rows.Statement .completionProgressWrite := Rows.ofOther rfl
theorem Rows.watchdogDeadlock : Rows.Statement .watchdogDeadlock := Rows.ofOther rfl
theorem Rows.bucketRefill : Rows.Statement .bucketRefill := Rows.ofOther rfl
theorem Rows.holdComplete : Rows.Statement .holdComplete := Rows.ofOther rfl
theorem Rows.saveStart : Rows.Statement .saveStart := Rows.ofOther rfl
theorem Rows.saveEnd : Rows.Statement .saveEnd := Rows.ofOther rfl
theorem Rows.restoreDone : Rows.Statement .restoreDone := Rows.ofOther rfl
theorem Rows.starterFault : Rows.Statement .starterFault := Rows.ofOther rfl
theorem Rows.faultRelease : Rows.Statement .faultRelease := Rows.ofOther rfl
theorem Rows.leaseRequest : Rows.Statement .leaseRequest := Rows.ofOther rfl
theorem Rows.railReached : Rows.Statement .railReached := Rows.ofOther rfl
theorem Rows.leaseExpiry : Rows.Statement .leaseExpiry := Rows.ofOther rfl
theorem Rows.leaseendRequest : Rows.Statement .leaseendRequest := Rows.ofOther rfl
theorem Rows.leaseBufferEnqueue : Rows.Statement .leaseBufferEnqueue := Rows.ofOther rfl
theorem Rows.autogateTimer : Rows.Statement .autogateTimer := Rows.ofOther rfl
theorem Rows.gateOff : Rows.Statement .gateOff := Rows.ofOther rfl
theorem Rows.ungateDone : Rows.Statement .ungateDone := Rows.ofOther rfl
theorem Rows.scrubDone : Rows.Statement .scrubDone := Rows.ofOther rfl

end Sys2Proof.Laws
end

