-- ==== Sys2Proof/Laws/Tables.lean ====
section
/-! SUPPORT. Lemmas about sparse tables and about lists used as small arrays. -/

namespace Sys2Proof.Machine

@[simp] theorem NMap.find_put_self {α : Type} (m : NMap α) (n : Nat) (x : α) : (m.put n x).find n = some x := by
  induction m with
  | nil => simp [NMap.put, NMap.find]
  | cons e m ih =>
    obtain ⟨k, v⟩ := e
    simp only [NMap.put]
    split
    · simp [NMap.find]
    · split
      · simp [NMap.find]
      · have : ¬ k = n := fun h => by omega
        simp [NMap.find, this, ih]

theorem NMap.find_put_ne {α : Type} (m : NMap α) {n k : Nat} (x : α) (h : k ≠ n) :
    (m.put n x).find k = m.find k := by
  induction m with
  | nil => simp [NMap.put, NMap.find, Ne.symm h]
  | cons e m ih =>
    obtain ⟨j, v⟩ := e
    simp only [NMap.put]
    split
    · simp [NMap.find, Ne.symm h]
    · split
      · subst_vars; simp [NMap.find, Ne.symm h]
      · simp [NMap.find, ih]

theorem NMap.find_put {α : Type} (m : NMap α) (n k : Nat) (x : α) :
    (m.put n x).find k = if k = n then some x else m.find k := by
  split
  · subst_vars; simp
  · exact NMap.find_put_ne m x ‹_›

theorem NMap.drop_cons {α : Type} (k : Nat) (v : α) (m : NMap α) (n : Nat) :
    NMap.drop ((k, v) :: m) n = if k = n then NMap.drop m n else (k, v) :: NMap.drop m n := by
  by_cases h : k = n <;> simp [NMap.drop, h]

theorem NMap.find_drop_self {α : Type} (m : NMap α) (n : Nat) : (NMap.drop m n).find n = none := by
  induction m with
  | nil => rfl
  | cons e m ih =>
    obtain ⟨k, v⟩ := e
    rw [NMap.drop_cons]
    split
    · exact ih
    · simp [NMap.find, *]

theorem NMap.find_drop_ne {α : Type} (m : NMap α) {n k : Nat} (h : k ≠ n) :
    (NMap.drop m n).find k = m.find k := by
  induction m with
  | nil => rfl
  | cons e m ih =>
    obtain ⟨j, v⟩ := e
    rw [NMap.drop_cons]
    split
    · subst_vars; simp [NMap.find, ih, Ne.symm h]
    · simp [NMap.find, ih]

@[simp] theorem upd_length {α : Type} (l : List α) (n : Nat) (f : α → α) : (upd l n f).length = l.length := by
  simp [upd]

theorem getElem?_upd {α : Type} (l : List α) (n k : Nat) (f : α → α) :
    (upd l n f)[k]? = (l[k]?).map (fun x => if k = n then f x else x) := by
  rw [upd, List.getElem?_modify]
  by_cases h : k = n
  · subst h; simp
  · simp [h, Ne.symm h]

theorem nth_upd_self {α : Type} (l : List α) (n : Nat) (f : α → α) (d : α) (h : n < l.length) :
    nth (upd l n f) n d = f (nth l n d) := by
  rw [nth, nth, getElem?_upd, List.getElem?_eq_getElem h]
  simp

theorem nth_upd_ne {α : Type} (l : List α) {n k : Nat} (f : α → α) (d : α) (h : k ≠ n) :
    nth (upd l n f) k d = nth l k d := by
  simp [nth, getElem?_upd, h]

end Sys2Proof.Machine
end

