-- ==== Sys2Proof/Laws/State.lean ====
section
/-! SUPPORT. What each named update of State leaves: one lemma for each field that it does not write. -/

namespace Sys2Proof.Machine

@[simp] theorem State.setElem_now (s : State) (eid : Nat) (e : Element) : (s.setElem eid e).now = s.now := rfl
@[simp] theorem State.setElem_boot (s : State) (eid : Nat) (e : Element) : (s.setElem eid e).boot = s.boot := rfl
@[simp] theorem State.setElem_flash (s : State) (eid : Nat) (e : Element) : (s.setElem eid e).flash = s.flash := rfl
@[simp] theorem State.setElem_firmware (s : State) (eid : Nat) (e : Element) : (s.setElem eid e).firmware = s.firmware := rfl
@[simp] theorem State.setElem_window (s : State) (eid : Nat) (e : Element) : (s.setElem eid e).window = s.window := rfl
@[simp] theorem State.setElem_pkgId (s : State) (eid : Nat) (e : Element) : (s.setElem eid e).pkgId = s.pkgId := rfl
@[simp] theorem State.setElem_lewenLanes (s : State) (eid : Nat) (e : Element) : (s.setElem eid e).lewenLanes = s.lewenLanes := rfl
@[simp] theorem State.setElem_amLog (s : State) (eid : Nat) (e : Element) : (s.setElem eid e).amLog = s.amLog := rfl
@[simp] theorem State.setElem_startTime (s : State) (eid : Nat) (e : Element) : (s.setElem eid e).startTime = s.startTime := rfl
@[simp] theorem State.setElem_vfs (s : State) (eid : Nat) (e : Element) : (s.setElem eid e).vfs = s.vfs := rfl
@[simp] theorem State.setElem_parts (s : State) (eid : Nat) (e : Element) : (s.setElem eid e).parts = s.parts := rfl
@[simp] theorem State.setElem_units (s : State) (eid : Nat) (e : Element) : (s.setElem eid e).units = s.units := rfl
@[simp] theorem State.setElem_walkCache (s : State) (eid : Nat) (e : Element) : (s.setElem eid e).walkCache = s.walkCache := rfl
@[simp] theorem State.setElem_clusters (s : State) (eid : Nat) (e : Element) : (s.setElem eid e).clusters = s.clusters := rfl
@[simp] theorem State.setElem_sprintw (s : State) (eid : Nat) (e : Element) : (s.setElem eid e).sprintw = s.sprintw := rfl
@[simp] theorem State.setElem_pkgw (s : State) (eid : Nat) (e : Element) : (s.setElem eid e).pkgw = s.pkgw := rfl
@[simp] theorem State.setElem_factors (s : State) (eid : Nat) (e : Element) : (s.setElem eid e).factors = s.factors := rfl
@[simp] theorem State.setElem_lastMs (s : State) (eid : Nat) (e : Element) : (s.setElem eid e).lastMs = s.lastMs := rfl
@[simp] theorem State.setElem_ctrlQ (s : State) (eid : Nat) (e : Element) : (s.setElem eid e).ctrlQ = s.ctrlQ := rfl
@[simp] theorem State.setElem_grants (s : State) (eid : Nat) (e : Element) : (s.setElem eid e).grants = s.grants := rfl
@[simp] theorem State.setElem_hbm (s : State) (eid : Nat) (e : Element) : (s.setElem eid e).hbm = s.hbm := rfl
@[simp] theorem State.setElem_hbmPoison (s : State) (eid : Nat) (e : Element) : (s.setElem eid e).hbmPoison = s.hbmPoison := rfl
@[simp] theorem State.setElem_accs (s : State) (eid : Nat) (e : Element) : (s.setElem eid e).accs = s.accs := rfl
@[simp] theorem State.setElem_ops (s : State) (eid : Nat) (e : Element) : (s.setElem eid e).ops = s.ops := rfl
@[simp] theorem State.setElem_parked (s : State) (eid : Nat) (e : Element) : (s.setElem eid e).parked = s.parked := rfl
@[simp] theorem State.setElem_tiles (s : State) (eid : Nat) (e : Element) : (s.setElem eid e).tiles = s.tiles := rfl
@[simp] theorem State.setElem_track (s : State) (eid : Nat) (e : Element) : (s.setElem eid e).track = s.track := rfl
@[simp] theorem State.setElem_launches (s : State) (eid : Nat) (e : Element) : (s.setElem eid e).launches = s.launches := rfl
@[simp] theorem State.setElem_insts (s : State) (eid : Nat) (e : Element) : (s.setElem eid e).insts = s.insts := rfl
@[simp] theorem State.setElem_contexts (s : State) (eid : Nat) (e : Element) : (s.setElem eid e).contexts = s.contexts := rfl
@[simp] theorem State.setElem_recSeq (s : State) (eid : Nat) (e : Element) : (s.setElem eid e).recSeq = s.recSeq := rfl
@[simp] theorem State.setElem_srcSeqs (s : State) (eid : Nat) (e : Element) : (s.setElem eid e).srcSeqs = s.srcSeqs := rfl
@[simp] theorem State.setElem_stepWaits (s : State) (eid : Nat) (e : Element) : (s.setElem eid e).stepWaits = s.stepWaits := rfl
@[simp] theorem State.setElem_readyN (s : State) (eid : Nat) (e : Element) : (s.setElem eid e).readyN = s.readyN := rfl
@[simp] theorem State.setElem_aqric (s : State) (eid : Nat) (e : Element) : (s.setElem eid e).aqric = s.aqric := rfl
@[simp] theorem State.setElem_remapped (s : State) (eid : Nat) (e : Element) : (s.setElem eid e).remapped = s.remapped := rfl
@[simp] theorem State.setElem_podAms (s : State) (eid : Nat) (e : Element) : (s.setElem eid e).podAms = s.podAms := rfl
@[simp] theorem State.setElem_eth (s : State) (eid : Nat) (e : Element) : (s.setElem eid e).eth = s.eth := rfl
@[simp] theorem State.setElem_txFlows (s : State) (eid : Nat) (e : Element) : (s.setElem eid e).txFlows = s.txFlows := rfl
@[simp] theorem State.setElem_rxFlows (s : State) (eid : Nat) (e : Element) : (s.setElem eid e).rxFlows = s.rxFlows := rfl
@[simp] theorem State.setElem_operLog (s : State) (eid : Nat) (e : Element) : (s.setElem eid e).operLog = s.operLog := rfl
@[simp] theorem State.setElem_hostLog (s : State) (eid : Nat) (e : Element) : (s.setElem eid e).hostLog = s.hostLog := rfl
@[simp] theorem State.setElem_ethOut (s : State) (eid : Nat) (e : Element) : (s.setElem eid e).ethOut = s.ethOut := rfl
@[simp] theorem State.setElem_remoteOut (s : State) (eid : Nat) (e : Element) : (s.setElem eid e).remoteOut = s.remoteOut := rfl
@[simp] theorem State.setElem_handed (s : State) (eid : Nat) (e : Element) : (s.setElem eid e).handed = s.handed := rfl
@[simp] theorem State.setElem_amIn (s : State) (eid : Nat) (e : Element) : (s.setElem eid e).amIn = s.amIn := rfl
@[simp] theorem State.setElem_devAms (s : State) (eid : Nat) (e : Element) : (s.setElem eid e).devAms = s.devAms := rfl
@[simp] theorem State.setElem_held (s : State) (eid : Nat) (e : Element) : (s.setElem eid e).held = s.held := rfl
@[simp] theorem State.setElem_links (s : State) (eid : Nat) (e : Element) : (s.setElem eid e).links = s.links := rfl
@[simp] theorem State.setElem_stalled (s : State) (eid : Nat) (e : Element) : (s.setElem eid e).stalled = s.stalled := rfl
@[simp] theorem State.setElem_closings (s : State) (eid : Nat) (e : Element) : (s.setElem eid e).closings = s.closings := rfl
@[simp] theorem State.setElem_agenda (s : State) (eid : Nat) (e : Element) : (s.setElem eid e).agenda = s.agenda := rfl
@[simp] theorem State.setElem_subject (s : State) (eid : Nat) (e : Element) : (s.setElem eid e).subject = s.subject := rfl
@[simp] theorem State.setElem_focus (s : State) (eid : Nat) (e : Element) : (s.setElem eid e).focus = s.focus := rfl
@[simp] theorem State.setElem_fresh (s : State) (eid : Nat) (e : Element) : (s.setElem eid e).fresh = s.fresh := rfl
@[simp] theorem State.setElem_nextId (s : State) (eid : Nat) (e : Element) : (s.setElem eid e).nextId = s.nextId := rfl

@[simp] theorem State.setTile_now (s : State) (n : Nat) (t : Tile) : (s.setTile n t).now = s.now := rfl
@[simp] theorem State.setTile_boot (s : State) (n : Nat) (t : Tile) : (s.setTile n t).boot = s.boot := rfl
@[simp] theorem State.setTile_flash (s : State) (n : Nat) (t : Tile) : (s.setTile n t).flash = s.flash := rfl
@[simp] theorem State.setTile_firmware (s : State) (n : Nat) (t : Tile) : (s.setTile n t).firmware = s.firmware := rfl
@[simp] theorem State.setTile_window (s : State) (n : Nat) (t : Tile) : (s.setTile n t).window = s.window := rfl
@[simp] theorem State.setTile_pkgId (s : State) (n : Nat) (t : Tile) : (s.setTile n t).pkgId = s.pkgId := rfl
@[simp] theorem State.setTile_lewenLanes (s : State) (n : Nat) (t : Tile) : (s.setTile n t).lewenLanes = s.lewenLanes := rfl
@[simp] theorem State.setTile_amLog (s : State) (n : Nat) (t : Tile) : (s.setTile n t).amLog = s.amLog := rfl
@[simp] theorem State.setTile_startTime (s : State) (n : Nat) (t : Tile) : (s.setTile n t).startTime = s.startTime := rfl
@[simp] theorem State.setTile_vfs (s : State) (n : Nat) (t : Tile) : (s.setTile n t).vfs = s.vfs := rfl
@[simp] theorem State.setTile_parts (s : State) (n : Nat) (t : Tile) : (s.setTile n t).parts = s.parts := rfl
@[simp] theorem State.setTile_units (s : State) (n : Nat) (t : Tile) : (s.setTile n t).units = s.units := rfl
@[simp] theorem State.setTile_walkCache (s : State) (n : Nat) (t : Tile) : (s.setTile n t).walkCache = s.walkCache := rfl
@[simp] theorem State.setTile_clusters (s : State) (n : Nat) (t : Tile) : (s.setTile n t).clusters = s.clusters := rfl
@[simp] theorem State.setTile_sprintw (s : State) (n : Nat) (t : Tile) : (s.setTile n t).sprintw = s.sprintw := rfl
@[simp] theorem State.setTile_pkgw (s : State) (n : Nat) (t : Tile) : (s.setTile n t).pkgw = s.pkgw := rfl
@[simp] theorem State.setTile_factors (s : State) (n : Nat) (t : Tile) : (s.setTile n t).factors = s.factors := rfl
@[simp] theorem State.setTile_lastMs (s : State) (n : Nat) (t : Tile) : (s.setTile n t).lastMs = s.lastMs := rfl
@[simp] theorem State.setTile_ctrlQ (s : State) (n : Nat) (t : Tile) : (s.setTile n t).ctrlQ = s.ctrlQ := rfl
@[simp] theorem State.setTile_grants (s : State) (n : Nat) (t : Tile) : (s.setTile n t).grants = s.grants := rfl
@[simp] theorem State.setTile_hbm (s : State) (n : Nat) (t : Tile) : (s.setTile n t).hbm = s.hbm := rfl
@[simp] theorem State.setTile_hbmPoison (s : State) (n : Nat) (t : Tile) : (s.setTile n t).hbmPoison = s.hbmPoison := rfl
@[simp] theorem State.setTile_accs (s : State) (n : Nat) (t : Tile) : (s.setTile n t).accs = s.accs := rfl
@[simp] theorem State.setTile_ops (s : State) (n : Nat) (t : Tile) : (s.setTile n t).ops = s.ops := rfl
@[simp] theorem State.setTile_parked (s : State) (n : Nat) (t : Tile) : (s.setTile n t).parked = s.parked := rfl
@[simp] theorem State.setTile_elems (s : State) (n : Nat) (t : Tile) : (s.setTile n t).elems = s.elems := rfl
@[simp] theorem State.setTile_track (s : State) (n : Nat) (t : Tile) : (s.setTile n t).track = s.track := rfl
@[simp] theorem State.setTile_launches (s : State) (n : Nat) (t : Tile) : (s.setTile n t).launches = s.launches := rfl
@[simp] theorem State.setTile_insts (s : State) (n : Nat) (t : Tile) : (s.setTile n t).insts = s.insts := rfl
@[simp] theorem State.setTile_contexts (s : State) (n : Nat) (t : Tile) : (s.setTile n t).contexts = s.contexts := rfl
@[simp] theorem State.setTile_recSeq (s : State) (n : Nat) (t : Tile) : (s.setTile n t).recSeq = s.recSeq := rfl
@[simp] theorem State.setTile_srcSeqs (s : State) (n : Nat) (t : Tile) : (s.setTile n t).srcSeqs = s.srcSeqs := rfl
@[simp] theorem State.setTile_stepWaits (s : State) (n : Nat) (t : Tile) : (s.setTile n t).stepWaits = s.stepWaits := rfl
@[simp] theorem State.setTile_readyN (s : State) (n : Nat) (t : Tile) : (s.setTile n t).readyN = s.readyN := rfl
@[simp] theorem State.setTile_aqric (s : State) (n : Nat) (t : Tile) : (s.setTile n t).aqric = s.aqric := rfl
@[simp] theorem State.setTile_remapped (s : State) (n : Nat) (t : Tile) : (s.setTile n t).remapped = s.remapped := rfl
@[simp] theorem State.setTile_podAms (s : State) (n : Nat) (t : Tile) : (s.setTile n t).podAms = s.podAms := rfl
@[simp] theorem State.setTile_eth (s : State) (n : Nat) (t : Tile) : (s.setTile n t).eth = s.eth := rfl
@[simp] theorem State.setTile_txFlows (s : State) (n : Nat) (t : Tile) : (s.setTile n t).txFlows = s.txFlows := rfl
@[simp] theorem State.setTile_rxFlows (s : State) (n : Nat) (t : Tile) : (s.setTile n t).rxFlows = s.rxFlows := rfl
@[simp] theorem State.setTile_operLog (s : State) (n : Nat) (t : Tile) : (s.setTile n t).operLog = s.operLog := rfl
@[simp] theorem State.setTile_hostLog (s : State) (n : Nat) (t : Tile) : (s.setTile n t).hostLog = s.hostLog := rfl
@[simp] theorem State.setTile_ethOut (s : State) (n : Nat) (t : Tile) : (s.setTile n t).ethOut = s.ethOut := rfl
@[simp] theorem State.setTile_remoteOut (s : State) (n : Nat) (t : Tile) : (s.setTile n t).remoteOut = s.remoteOut := rfl
@[simp] theorem State.setTile_handed (s : State) (n : Nat) (t : Tile) : (s.setTile n t).handed = s.handed := rfl
@[simp] theorem State.setTile_amIn (s : State) (n : Nat) (t : Tile) : (s.setTile n t).amIn = s.amIn := rfl
@[simp] theorem State.setTile_devAms (s : State) (n : Nat) (t : Tile) : (s.setTile n t).devAms = s.devAms := rfl
@[simp] theorem State.setTile_held (s : State) (n : Nat) (t : Tile) : (s.setTile n t).held = s.held := rfl
@[simp] theorem State.setTile_links (s : State) (n : Nat) (t : Tile) : (s.setTile n t).links = s.links := rfl
@[simp] theorem State.setTile_stalled (s : State) (n : Nat) (t : Tile) : (s.setTile n t).stalled = s.stalled := rfl
@[simp] theorem State.setTile_closings (s : State) (n : Nat) (t : Tile) : (s.setTile n t).closings = s.closings := rfl
@[simp] theorem State.setTile_agenda (s : State) (n : Nat) (t : Tile) : (s.setTile n t).agenda = s.agenda := rfl
@[simp] theorem State.setTile_subject (s : State) (n : Nat) (t : Tile) : (s.setTile n t).subject = s.subject := rfl
@[simp] theorem State.setTile_focus (s : State) (n : Nat) (t : Tile) : (s.setTile n t).focus = s.focus := rfl
@[simp] theorem State.setTile_fresh (s : State) (n : Nat) (t : Tile) : (s.setTile n t).fresh = s.fresh := rfl
@[simp] theorem State.setTile_nextId (s : State) (n : Nat) (t : Tile) : (s.setTile n t).nextId = s.nextId := rfl

@[simp] theorem State.modVf_now (s : State) (v : Nat) (f : Vf → Vf) : (s.modVf v f).now = s.now := rfl
@[simp] theorem State.modVf_boot (s : State) (v : Nat) (f : Vf → Vf) : (s.modVf v f).boot = s.boot := rfl
@[simp] theorem State.modVf_flash (s : State) (v : Nat) (f : Vf → Vf) : (s.modVf v f).flash = s.flash := rfl
@[simp] theorem State.modVf_firmware (s : State) (v : Nat) (f : Vf → Vf) : (s.modVf v f).firmware = s.firmware := rfl
@[simp] theorem State.modVf_window (s : State) (v : Nat) (f : Vf → Vf) : (s.modVf v f).window = s.window := rfl
@[simp] theorem State.modVf_pkgId (s : State) (v : Nat) (f : Vf → Vf) : (s.modVf v f).pkgId = s.pkgId := rfl
@[simp] theorem State.modVf_lewenLanes (s : State) (v : Nat) (f : Vf → Vf) : (s.modVf v f).lewenLanes = s.lewenLanes := rfl
@[simp] theorem State.modVf_amLog (s : State) (v : Nat) (f : Vf → Vf) : (s.modVf v f).amLog = s.amLog := rfl
@[simp] theorem State.modVf_startTime (s : State) (v : Nat) (f : Vf → Vf) : (s.modVf v f).startTime = s.startTime := rfl
@[simp] theorem State.modVf_parts (s : State) (v : Nat) (f : Vf → Vf) : (s.modVf v f).parts = s.parts := rfl
@[simp] theorem State.modVf_units (s : State) (v : Nat) (f : Vf → Vf) : (s.modVf v f).units = s.units := rfl
@[simp] theorem State.modVf_walkCache (s : State) (v : Nat) (f : Vf → Vf) : (s.modVf v f).walkCache = s.walkCache := rfl
@[simp] theorem State.modVf_clusters (s : State) (v : Nat) (f : Vf → Vf) : (s.modVf v f).clusters = s.clusters := rfl
@[simp] theorem State.modVf_sprintw (s : State) (v : Nat) (f : Vf → Vf) : (s.modVf v f).sprintw = s.sprintw := rfl
@[simp] theorem State.modVf_pkgw (s : State) (v : Nat) (f : Vf → Vf) : (s.modVf v f).pkgw = s.pkgw := rfl
@[simp] theorem State.modVf_factors (s : State) (v : Nat) (f : Vf → Vf) : (s.modVf v f).factors = s.factors := rfl
@[simp] theorem State.modVf_lastMs (s : State) (v : Nat) (f : Vf → Vf) : (s.modVf v f).lastMs = s.lastMs := rfl
@[simp] theorem State.modVf_ctrlQ (s : State) (v : Nat) (f : Vf → Vf) : (s.modVf v f).ctrlQ = s.ctrlQ := rfl
@[simp] theorem State.modVf_grants (s : State) (v : Nat) (f : Vf → Vf) : (s.modVf v f).grants = s.grants := rfl
@[simp] theorem State.modVf_hbm (s : State) (v : Nat) (f : Vf → Vf) : (s.modVf v f).hbm = s.hbm := rfl
@[simp] theorem State.modVf_hbmPoison (s : State) (v : Nat) (f : Vf → Vf) : (s.modVf v f).hbmPoison = s.hbmPoison := rfl
@[simp] theorem State.modVf_accs (s : State) (v : Nat) (f : Vf → Vf) : (s.modVf v f).accs = s.accs := rfl
@[simp] theorem State.modVf_ops (s : State) (v : Nat) (f : Vf → Vf) : (s.modVf v f).ops = s.ops := rfl
@[simp] theorem State.modVf_parked (s : State) (v : Nat) (f : Vf → Vf) : (s.modVf v f).parked = s.parked := rfl
@[simp] theorem State.modVf_elems (s : State) (v : Nat) (f : Vf → Vf) : (s.modVf v f).elems = s.elems := rfl
@[simp] theorem State.modVf_tiles (s : State) (v : Nat) (f : Vf → Vf) : (s.modVf v f).tiles = s.tiles := rfl
@[simp] theorem State.modVf_track (s : State) (v : Nat) (f : Vf → Vf) : (s.modVf v f).track = s.track := rfl
@[simp] theorem State.modVf_launches (s : State) (v : Nat) (f : Vf → Vf) : (s.modVf v f).launches = s.launches := rfl
@[simp] theorem State.modVf_insts (s : State) (v : Nat) (f : Vf → Vf) : (s.modVf v f).insts = s.insts := rfl
@[simp] theorem State.modVf_contexts (s : State) (v : Nat) (f : Vf → Vf) : (s.modVf v f).contexts = s.contexts := rfl
@[simp] theorem State.modVf_recSeq (s : State) (v : Nat) (f : Vf → Vf) : (s.modVf v f).recSeq = s.recSeq := rfl
@[simp] theorem State.modVf_srcSeqs (s : State) (v : Nat) (f : Vf → Vf) : (s.modVf v f).srcSeqs = s.srcSeqs := rfl
@[simp] theorem State.modVf_stepWaits (s : State) (v : Nat) (f : Vf → Vf) : (s.modVf v f).stepWaits = s.stepWaits := rfl
@[simp] theorem State.modVf_readyN (s : State) (v : Nat) (f : Vf → Vf) : (s.modVf v f).readyN = s.readyN := rfl
@[simp] theorem State.modVf_aqric (s : State) (v : Nat) (f : Vf → Vf) : (s.modVf v f).aqric = s.aqric := rfl
@[simp] theorem State.modVf_remapped (s : State) (v : Nat) (f : Vf → Vf) : (s.modVf v f).remapped = s.remapped := rfl
@[simp] theorem State.modVf_podAms (s : State) (v : Nat) (f : Vf → Vf) : (s.modVf v f).podAms = s.podAms := rfl
@[simp] theorem State.modVf_eth (s : State) (v : Nat) (f : Vf → Vf) : (s.modVf v f).eth = s.eth := rfl
@[simp] theorem State.modVf_txFlows (s : State) (v : Nat) (f : Vf → Vf) : (s.modVf v f).txFlows = s.txFlows := rfl
@[simp] theorem State.modVf_rxFlows (s : State) (v : Nat) (f : Vf → Vf) : (s.modVf v f).rxFlows = s.rxFlows := rfl
@[simp] theorem State.modVf_operLog (s : State) (v : Nat) (f : Vf → Vf) : (s.modVf v f).operLog = s.operLog := rfl
@[simp] theorem State.modVf_hostLog (s : State) (v : Nat) (f : Vf → Vf) : (s.modVf v f).hostLog = s.hostLog := rfl
@[simp] theorem State.modVf_ethOut (s : State) (v : Nat) (f : Vf → Vf) : (s.modVf v f).ethOut = s.ethOut := rfl
@[simp] theorem State.modVf_remoteOut (s : State) (v : Nat) (f : Vf → Vf) : (s.modVf v f).remoteOut = s.remoteOut := rfl
@[simp] theorem State.modVf_handed (s : State) (v : Nat) (f : Vf → Vf) : (s.modVf v f).handed = s.handed := rfl
@[simp] theorem State.modVf_amIn (s : State) (v : Nat) (f : Vf → Vf) : (s.modVf v f).amIn = s.amIn := rfl
@[simp] theorem State.modVf_devAms (s : State) (v : Nat) (f : Vf → Vf) : (s.modVf v f).devAms = s.devAms := rfl
@[simp] theorem State.modVf_held (s : State) (v : Nat) (f : Vf → Vf) : (s.modVf v f).held = s.held := rfl
@[simp] theorem State.modVf_links (s : State) (v : Nat) (f : Vf → Vf) : (s.modVf v f).links = s.links := rfl
@[simp] theorem State.modVf_stalled (s : State) (v : Nat) (f : Vf → Vf) : (s.modVf v f).stalled = s.stalled := rfl
@[simp] theorem State.modVf_closings (s : State) (v : Nat) (f : Vf → Vf) : (s.modVf v f).closings = s.closings := rfl
@[simp] theorem State.modVf_agenda (s : State) (v : Nat) (f : Vf → Vf) : (s.modVf v f).agenda = s.agenda := rfl
@[simp] theorem State.modVf_subject (s : State) (v : Nat) (f : Vf → Vf) : (s.modVf v f).subject = s.subject := rfl
@[simp] theorem State.modVf_focus (s : State) (v : Nat) (f : Vf → Vf) : (s.modVf v f).focus = s.focus := rfl
@[simp] theorem State.modVf_fresh (s : State) (v : Nat) (f : Vf → Vf) : (s.modVf v f).fresh = s.fresh := rfl
@[simp] theorem State.modVf_nextId (s : State) (v : Nat) (f : Vf → Vf) : (s.modVf v f).nextId = s.nextId := rfl

@[simp] theorem State.modPart_now (s : State) (p : Nat) (f : Partition → Partition) : (s.modPart p f).now = s.now := rfl
@[simp] theorem State.modPart_boot (s : State) (p : Nat) (f : Partition → Partition) : (s.modPart p f).boot = s.boot := rfl
@[simp] theorem State.modPart_flash (s : State) (p : Nat) (f : Partition → Partition) : (s.modPart p f).flash = s.flash := rfl
@[simp] theorem State.modPart_firmware (s : State) (p : Nat) (f : Partition → Partition) : (s.modPart p f).firmware = s.firmware := rfl
@[simp] theorem State.modPart_window (s : State) (p : Nat) (f : Partition → Partition) : (s.modPart p f).window = s.window := rfl
@[simp] theorem State.modPart_pkgId (s : State) (p : Nat) (f : Partition → Partition) : (s.modPart p f).pkgId = s.pkgId := rfl
@[simp] theorem State.modPart_lewenLanes (s : State) (p : Nat) (f : Partition → Partition) : (s.modPart p f).lewenLanes = s.lewenLanes := rfl
@[simp] theorem State.modPart_amLog (s : State) (p : Nat) (f : Partition → Partition) : (s.modPart p f).amLog = s.amLog := rfl
@[simp] theorem State.modPart_startTime (s : State) (p : Nat) (f : Partition → Partition) : (s.modPart p f).startTime = s.startTime := rfl
@[simp] theorem State.modPart_vfs (s : State) (p : Nat) (f : Partition → Partition) : (s.modPart p f).vfs = s.vfs := rfl
@[simp] theorem State.modPart_units (s : State) (p : Nat) (f : Partition → Partition) : (s.modPart p f).units = s.units := rfl
@[simp] theorem State.modPart_walkCache (s : State) (p : Nat) (f : Partition → Partition) : (s.modPart p f).walkCache = s.walkCache := rfl
@[simp] theorem State.modPart_clusters (s : State) (p : Nat) (f : Partition → Partition) : (s.modPart p f).clusters = s.clusters := rfl
@[simp] theorem State.modPart_sprintw (s : State) (p : Nat) (f : Partition → Partition) : (s.modPart p f).sprintw = s.sprintw := rfl
@[simp] theorem State.modPart_pkgw (s : State) (p : Nat) (f : Partition → Partition) : (s.modPart p f).pkgw = s.pkgw := rfl
@[simp] theorem State.modPart_factors (s : State) (p : Nat) (f : Partition → Partition) : (s.modPart p f).factors = s.factors := rfl
@[simp] theorem State.modPart_lastMs (s : State) (p : Nat) (f : Partition → Partition) : (s.modPart p f).lastMs = s.lastMs := rfl
@[simp] theorem State.modPart_ctrlQ (s : State) (p : Nat) (f : Partition → Partition) : (s.modPart p f).ctrlQ = s.ctrlQ := rfl
@[simp] theorem State.modPart_grants (s : State) (p : Nat) (f : Partition → Partition) : (s.modPart p f).grants = s.grants := rfl
@[simp] theorem State.modPart_hbm (s : State) (p : Nat) (f : Partition → Partition) : (s.modPart p f).hbm = s.hbm := rfl
@[simp] theorem State.modPart_hbmPoison (s : State) (p : Nat) (f : Partition → Partition) : (s.modPart p f).hbmPoison = s.hbmPoison := rfl
@[simp] theorem State.modPart_accs (s : State) (p : Nat) (f : Partition → Partition) : (s.modPart p f).accs = s.accs := rfl
@[simp] theorem State.modPart_ops (s : State) (p : Nat) (f : Partition → Partition) : (s.modPart p f).ops = s.ops := rfl
@[simp] theorem State.modPart_parked (s : State) (p : Nat) (f : Partition → Partition) : (s.modPart p f).parked = s.parked := rfl
@[simp] theorem State.modPart_elems (s : State) (p : Nat) (f : Partition → Partition) : (s.modPart p f).elems = s.elems := rfl
@[simp] theorem State.modPart_tiles (s : State) (p : Nat) (f : Partition → Partition) : (s.modPart p f).tiles = s.tiles := rfl
@[simp] theorem State.modPart_track (s : State) (p : Nat) (f : Partition → Partition) : (s.modPart p f).track = s.track := rfl
@[simp] theorem State.modPart_launches (s : State) (p : Nat) (f : Partition → Partition) : (s.modPart p f).launches = s.launches := rfl
@[simp] theorem State.modPart_insts (s : State) (p : Nat) (f : Partition → Partition) : (s.modPart p f).insts = s.insts := rfl
@[simp] theorem State.modPart_contexts (s : State) (p : Nat) (f : Partition → Partition) : (s.modPart p f).contexts = s.contexts := rfl
@[simp] theorem State.modPart_recSeq (s : State) (p : Nat) (f : Partition → Partition) : (s.modPart p f).recSeq = s.recSeq := rfl
@[simp] theorem State.modPart_srcSeqs (s : State) (p : Nat) (f : Partition → Partition) : (s.modPart p f).srcSeqs = s.srcSeqs := rfl
@[simp] theorem State.modPart_stepWaits (s : State) (p : Nat) (f : Partition → Partition) : (s.modPart p f).stepWaits = s.stepWaits := rfl
@[simp] theorem State.modPart_readyN (s : State) (p : Nat) (f : Partition → Partition) : (s.modPart p f).readyN = s.readyN := rfl
@[simp] theorem State.modPart_aqric (s : State) (p : Nat) (f : Partition → Partition) : (s.modPart p f).aqric = s.aqric := rfl
@[simp] theorem State.modPart_remapped (s : State) (p : Nat) (f : Partition → Partition) : (s.modPart p f).remapped = s.remapped := rfl
@[simp] theorem State.modPart_podAms (s : State) (p : Nat) (f : Partition → Partition) : (s.modPart p f).podAms = s.podAms := rfl
@[simp] theorem State.modPart_eth (s : State) (p : Nat) (f : Partition → Partition) : (s.modPart p f).eth = s.eth := rfl
@[simp] theorem State.modPart_txFlows (s : State) (p : Nat) (f : Partition → Partition) : (s.modPart p f).txFlows = s.txFlows := rfl
@[simp] theorem State.modPart_rxFlows (s : State) (p : Nat) (f : Partition → Partition) : (s.modPart p f).rxFlows = s.rxFlows := rfl
@[simp] theorem State.modPart_operLog (s : State) (p : Nat) (f : Partition → Partition) : (s.modPart p f).operLog = s.operLog := rfl
@[simp] theorem State.modPart_hostLog (s : State) (p : Nat) (f : Partition → Partition) : (s.modPart p f).hostLog = s.hostLog := rfl
@[simp] theorem State.modPart_ethOut (s : State) (p : Nat) (f : Partition → Partition) : (s.modPart p f).ethOut = s.ethOut := rfl
@[simp] theorem State.modPart_remoteOut (s : State) (p : Nat) (f : Partition → Partition) : (s.modPart p f).remoteOut = s.remoteOut := rfl
@[simp] theorem State.modPart_handed (s : State) (p : Nat) (f : Partition → Partition) : (s.modPart p f).handed = s.handed := rfl
@[simp] theorem State.modPart_amIn (s : State) (p : Nat) (f : Partition → Partition) : (s.modPart p f).amIn = s.amIn := rfl
@[simp] theorem State.modPart_devAms (s : State) (p : Nat) (f : Partition → Partition) : (s.modPart p f).devAms = s.devAms := rfl
@[simp] theorem State.modPart_held (s : State) (p : Nat) (f : Partition → Partition) : (s.modPart p f).held = s.held := rfl
@[simp] theorem State.modPart_links (s : State) (p : Nat) (f : Partition → Partition) : (s.modPart p f).links = s.links := rfl
@[simp] theorem State.modPart_stalled (s : State) (p : Nat) (f : Partition → Partition) : (s.modPart p f).stalled = s.stalled := rfl
@[simp] theorem State.modPart_closings (s : State) (p : Nat) (f : Partition → Partition) : (s.modPart p f).closings = s.closings := rfl
@[simp] theorem State.modPart_agenda (s : State) (p : Nat) (f : Partition → Partition) : (s.modPart p f).agenda = s.agenda := rfl
@[simp] theorem State.modPart_subject (s : State) (p : Nat) (f : Partition → Partition) : (s.modPart p f).subject = s.subject := rfl
@[simp] theorem State.modPart_focus (s : State) (p : Nat) (f : Partition → Partition) : (s.modPart p f).focus = s.focus := rfl
@[simp] theorem State.modPart_fresh (s : State) (p : Nat) (f : Partition → Partition) : (s.modPart p f).fresh = s.fresh := rfl
@[simp] theorem State.modPart_nextId (s : State) (p : Nat) (f : Partition → Partition) : (s.modPart p f).nextId = s.nextId := rfl

@[simp] theorem State.modCluster_now (s : State) (g : Nat) (f : Cluster → Cluster) : (s.modCluster g f).now = s.now := rfl
@[simp] theorem State.modCluster_boot (s : State) (g : Nat) (f : Cluster → Cluster) : (s.modCluster g f).boot = s.boot := rfl
@[simp] theorem State.modCluster_flash (s : State) (g : Nat) (f : Cluster → Cluster) : (s.modCluster g f).flash = s.flash := rfl
@[simp] theorem State.modCluster_firmware (s : State) (g : Nat) (f : Cluster → Cluster) : (s.modCluster g f).firmware = s.firmware := rfl
@[simp] theorem State.modCluster_window (s : State) (g : Nat) (f : Cluster → Cluster) : (s.modCluster g f).window = s.window := rfl
@[simp] theorem State.modCluster_pkgId (s : State) (g : Nat) (f : Cluster → Cluster) : (s.modCluster g f).pkgId = s.pkgId := rfl
@[simp] theorem State.modCluster_lewenLanes (s : State) (g : Nat) (f : Cluster → Cluster) : (s.modCluster g f).lewenLanes = s.lewenLanes := rfl
@[simp] theorem State.modCluster_amLog (s : State) (g : Nat) (f : Cluster → Cluster) : (s.modCluster g f).amLog = s.amLog := rfl
@[simp] theorem State.modCluster_startTime (s : State) (g : Nat) (f : Cluster → Cluster) : (s.modCluster g f).startTime = s.startTime := rfl
@[simp] theorem State.modCluster_vfs (s : State) (g : Nat) (f : Cluster → Cluster) : (s.modCluster g f).vfs = s.vfs := rfl
@[simp] theorem State.modCluster_parts (s : State) (g : Nat) (f : Cluster → Cluster) : (s.modCluster g f).parts = s.parts := rfl
@[simp] theorem State.modCluster_units (s : State) (g : Nat) (f : Cluster → Cluster) : (s.modCluster g f).units = s.units := rfl
@[simp] theorem State.modCluster_walkCache (s : State) (g : Nat) (f : Cluster → Cluster) : (s.modCluster g f).walkCache = s.walkCache := rfl
@[simp] theorem State.modCluster_sprintw (s : State) (g : Nat) (f : Cluster → Cluster) : (s.modCluster g f).sprintw = s.sprintw := rfl
@[simp] theorem State.modCluster_pkgw (s : State) (g : Nat) (f : Cluster → Cluster) : (s.modCluster g f).pkgw = s.pkgw := rfl
@[simp] theorem State.modCluster_factors (s : State) (g : Nat) (f : Cluster → Cluster) : (s.modCluster g f).factors = s.factors := rfl
@[simp] theorem State.modCluster_lastMs (s : State) (g : Nat) (f : Cluster → Cluster) : (s.modCluster g f).lastMs = s.lastMs := rfl
@[simp] theorem State.modCluster_ctrlQ (s : State) (g : Nat) (f : Cluster → Cluster) : (s.modCluster g f).ctrlQ = s.ctrlQ := rfl
@[simp] theorem State.modCluster_grants (s : State) (g : Nat) (f : Cluster → Cluster) : (s.modCluster g f).grants = s.grants := rfl
@[simp] theorem State.modCluster_hbm (s : State) (g : Nat) (f : Cluster → Cluster) : (s.modCluster g f).hbm = s.hbm := rfl
@[simp] theorem State.modCluster_hbmPoison (s : State) (g : Nat) (f : Cluster → Cluster) : (s.modCluster g f).hbmPoison = s.hbmPoison := rfl
@[simp] theorem State.modCluster_accs (s : State) (g : Nat) (f : Cluster → Cluster) : (s.modCluster g f).accs = s.accs := rfl
@[simp] theorem State.modCluster_ops (s : State) (g : Nat) (f : Cluster → Cluster) : (s.modCluster g f).ops = s.ops := rfl
@[simp] theorem State.modCluster_parked (s : State) (g : Nat) (f : Cluster → Cluster) : (s.modCluster g f).parked = s.parked := rfl
@[simp] theorem State.modCluster_elems (s : State) (g : Nat) (f : Cluster → Cluster) : (s.modCluster g f).elems = s.elems := rfl
@[simp] theorem State.modCluster_tiles (s : State) (g : Nat) (f : Cluster → Cluster) : (s.modCluster g f).tiles = s.tiles := rfl
@[simp] theorem State.modCluster_track (s : State) (g : Nat) (f : Cluster → Cluster) : (s.modCluster g f).track = s.track := rfl
@[simp] theorem State.modCluster_launches (s : State) (g : Nat) (f : Cluster → Cluster) : (s.modCluster g f).launches = s.launches := rfl
@[simp] theorem State.modCluster_insts (s : State) (g : Nat) (f : Cluster → Cluster) : (s.modCluster g f).insts = s.insts := rfl
@[simp] theorem State.modCluster_contexts (s : State) (g : Nat) (f : Cluster → Cluster) : (s.modCluster g f).contexts = s.contexts := rfl
@[simp] theorem State.modCluster_recSeq (s : State) (g : Nat) (f : Cluster → Cluster) : (s.modCluster g f).recSeq = s.recSeq := rfl
@[simp] theorem State.modCluster_srcSeqs (s : State) (g : Nat) (f : Cluster → Cluster) : (s.modCluster g f).srcSeqs = s.srcSeqs := rfl
@[simp] theorem State.modCluster_stepWaits (s : State) (g : Nat) (f : Cluster → Cluster) : (s.modCluster g f).stepWaits = s.stepWaits := rfl
@[simp] theorem State.modCluster_readyN (s : State) (g : Nat) (f : Cluster → Cluster) : (s.modCluster g f).readyN = s.readyN := rfl
@[simp] theorem State.modCluster_aqric (s : State) (g : Nat) (f : Cluster → Cluster) : (s.modCluster g f).aqric = s.aqric := rfl
@[simp] theorem State.modCluster_remapped (s : State) (g : Nat) (f : Cluster → Cluster) : (s.modCluster g f).remapped = s.remapped := rfl
@[simp] theorem State.modCluster_podAms (s : State) (g : Nat) (f : Cluster → Cluster) : (s.modCluster g f).podAms = s.podAms := rfl
@[simp] theorem State.modCluster_eth (s : State) (g : Nat) (f : Cluster → Cluster) : (s.modCluster g f).eth = s.eth := rfl
@[simp] theorem State.modCluster_txFlows (s : State) (g : Nat) (f : Cluster → Cluster) : (s.modCluster g f).txFlows = s.txFlows := rfl
@[simp] theorem State.modCluster_rxFlows (s : State) (g : Nat) (f : Cluster → Cluster) : (s.modCluster g f).rxFlows = s.rxFlows := rfl
@[simp] theorem State.modCluster_operLog (s : State) (g : Nat) (f : Cluster → Cluster) : (s.modCluster g f).operLog = s.operLog := rfl
@[simp] theorem State.modCluster_hostLog (s : State) (g : Nat) (f : Cluster → Cluster) : (s.modCluster g f).hostLog = s.hostLog := rfl
@[simp] theorem State.modCluster_ethOut (s : State) (g : Nat) (f : Cluster → Cluster) : (s.modCluster g f).ethOut = s.ethOut := rfl
@[simp] theorem State.modCluster_remoteOut (s : State) (g : Nat) (f : Cluster → Cluster) : (s.modCluster g f).remoteOut = s.remoteOut := rfl
@[simp] theorem State.modCluster_handed (s : State) (g : Nat) (f : Cluster → Cluster) : (s.modCluster g f).handed = s.handed := rfl
@[simp] theorem State.modCluster_amIn (s : State) (g : Nat) (f : Cluster → Cluster) : (s.modCluster g f).amIn = s.amIn := rfl
@[simp] theorem State.modCluster_devAms (s : State) (g : Nat) (f : Cluster → Cluster) : (s.modCluster g f).devAms = s.devAms := rfl
@[simp] theorem State.modCluster_held (s : State) (g : Nat) (f : Cluster → Cluster) : (s.modCluster g f).held = s.held := rfl
@[simp] theorem State.modCluster_links (s : State) (g : Nat) (f : Cluster → Cluster) : (s.modCluster g f).links = s.links := rfl
@[simp] theorem State.modCluster_stalled (s : State) (g : Nat) (f : Cluster → Cluster) : (s.modCluster g f).stalled = s.stalled := rfl
@[simp] theorem State.modCluster_closings (s : State) (g : Nat) (f : Cluster → Cluster) : (s.modCluster g f).closings = s.closings := rfl
@[simp] theorem State.modCluster_agenda (s : State) (g : Nat) (f : Cluster → Cluster) : (s.modCluster g f).agenda = s.agenda := rfl
@[simp] theorem State.modCluster_subject (s : State) (g : Nat) (f : Cluster → Cluster) : (s.modCluster g f).subject = s.subject := rfl
@[simp] theorem State.modCluster_focus (s : State) (g : Nat) (f : Cluster → Cluster) : (s.modCluster g f).focus = s.focus := rfl
@[simp] theorem State.modCluster_fresh (s : State) (g : Nat) (f : Cluster → Cluster) : (s.modCluster g f).fresh = s.fresh := rfl
@[simp] theorem State.modCluster_nextId (s : State) (g : Nat) (f : Cluster → Cluster) : (s.modCluster g f).nextId = s.nextId := rfl

@[simp] theorem State.modUnit_now (s : State) (u : Nat) (f : Unit_ → Unit_) : (s.modUnit u f).now = s.now := rfl
@[simp] theorem State.modUnit_boot (s : State) (u : Nat) (f : Unit_ → Unit_) : (s.modUnit u f).boot = s.boot := rfl
@[simp] theorem State.modUnit_flash (s : State) (u : Nat) (f : Unit_ → Unit_) : (s.modUnit u f).flash = s.flash := rfl
@[simp] theorem State.modUnit_firmware (s : State) (u : Nat) (f : Unit_ → Unit_) : (s.modUnit u f).firmware = s.firmware := rfl
@[simp] theorem State.modUnit_window (s : State) (u : Nat) (f : Unit_ → Unit_) : (s.modUnit u f).window = s.window := rfl
@[simp] theorem State.modUnit_pkgId (s : State) (u : Nat) (f : Unit_ → Unit_) : (s.modUnit u f).pkgId = s.pkgId := rfl
@[simp] theorem State.modUnit_lewenLanes (s : State) (u : Nat) (f : Unit_ → Unit_) : (s.modUnit u f).lewenLanes = s.lewenLanes := rfl
@[simp] theorem State.modUnit_amLog (s : State) (u : Nat) (f : Unit_ → Unit_) : (s.modUnit u f).amLog = s.amLog := rfl
@[simp] theorem State.modUnit_startTime (s : State) (u : Nat) (f : Unit_ → Unit_) : (s.modUnit u f).startTime = s.startTime := rfl
@[simp] theorem State.modUnit_vfs (s : State) (u : Nat) (f : Unit_ → Unit_) : (s.modUnit u f).vfs = s.vfs := rfl
@[simp] theorem State.modUnit_parts (s : State) (u : Nat) (f : Unit_ → Unit_) : (s.modUnit u f).parts = s.parts := rfl
@[simp] theorem State.modUnit_walkCache (s : State) (u : Nat) (f : Unit_ → Unit_) : (s.modUnit u f).walkCache = s.walkCache := rfl
@[simp] theorem State.modUnit_clusters (s : State) (u : Nat) (f : Unit_ → Unit_) : (s.modUnit u f).clusters = s.clusters := rfl
@[simp] theorem State.modUnit_sprintw (s : State) (u : Nat) (f : Unit_ → Unit_) : (s.modUnit u f).sprintw = s.sprintw := rfl
@[simp] theorem State.modUnit_pkgw (s : State) (u : Nat) (f : Unit_ → Unit_) : (s.modUnit u f).pkgw = s.pkgw := rfl
@[simp] theorem State.modUnit_factors (s : State) (u : Nat) (f : Unit_ → Unit_) : (s.modUnit u f).factors = s.factors := rfl
@[simp] theorem State.modUnit_lastMs (s : State) (u : Nat) (f : Unit_ → Unit_) : (s.modUnit u f).lastMs = s.lastMs := rfl
@[simp] theorem State.modUnit_ctrlQ (s : State) (u : Nat) (f : Unit_ → Unit_) : (s.modUnit u f).ctrlQ = s.ctrlQ := rfl
@[simp] theorem State.modUnit_grants (s : State) (u : Nat) (f : Unit_ → Unit_) : (s.modUnit u f).grants = s.grants := rfl
@[simp] theorem State.modUnit_hbm (s : State) (u : Nat) (f : Unit_ → Unit_) : (s.modUnit u f).hbm = s.hbm := rfl
@[simp] theorem State.modUnit_hbmPoison (s : State) (u : Nat) (f : Unit_ → Unit_) : (s.modUnit u f).hbmPoison = s.hbmPoison := rfl
@[simp] theorem State.modUnit_accs (s : State) (u : Nat) (f : Unit_ → Unit_) : (s.modUnit u f).accs = s.accs := rfl
@[simp] theorem State.modUnit_ops (s : State) (u : Nat) (f : Unit_ → Unit_) : (s.modUnit u f).ops = s.ops := rfl
@[simp] theorem State.modUnit_parked (s : State) (u : Nat) (f : Unit_ → Unit_) : (s.modUnit u f).parked = s.parked := rfl
@[simp] theorem State.modUnit_elems (s : State) (u : Nat) (f : Unit_ → Unit_) : (s.modUnit u f).elems = s.elems := rfl
@[simp] theorem State.modUnit_tiles (s : State) (u : Nat) (f : Unit_ → Unit_) : (s.modUnit u f).tiles = s.tiles := rfl
@[simp] theorem State.modUnit_track (s : State) (u : Nat) (f : Unit_ → Unit_) : (s.modUnit u f).track = s.track := rfl
@[simp] theorem State.modUnit_launches (s : State) (u : Nat) (f : Unit_ → Unit_) : (s.modUnit u f).launches = s.launches := rfl
@[simp] theorem State.modUnit_insts (s : State) (u : Nat) (f : Unit_ → Unit_) : (s.modUnit u f).insts = s.insts := rfl
@[simp] theorem State.modUnit_contexts (s : State) (u : Nat) (f : Unit_ → Unit_) : (s.modUnit u f).contexts = s.contexts := rfl
@[simp] theorem State.modUnit_recSeq (s : State) (u : Nat) (f : Unit_ → Unit_) : (s.modUnit u f).recSeq = s.recSeq := rfl
@[simp] theorem State.modUnit_srcSeqs (s : State) (u : Nat) (f : Unit_ → Unit_) : (s.modUnit u f).srcSeqs = s.srcSeqs := rfl
@[simp] theorem State.modUnit_stepWaits (s : State) (u : Nat) (f : Unit_ → Unit_) : (s.modUnit u f).stepWaits = s.stepWaits := rfl
@[simp] theorem State.modUnit_readyN (s : State) (u : Nat) (f : Unit_ → Unit_) : (s.modUnit u f).readyN = s.readyN := rfl
@[simp] theorem State.modUnit_aqric (s : State) (u : Nat) (f : Unit_ → Unit_) : (s.modUnit u f).aqric = s.aqric := rfl
@[simp] theorem State.modUnit_remapped (s : State) (u : Nat) (f : Unit_ → Unit_) : (s.modUnit u f).remapped = s.remapped := rfl
@[simp] theorem State.modUnit_podAms (s : State) (u : Nat) (f : Unit_ → Unit_) : (s.modUnit u f).podAms = s.podAms := rfl
@[simp] theorem State.modUnit_eth (s : State) (u : Nat) (f : Unit_ → Unit_) : (s.modUnit u f).eth = s.eth := rfl
@[simp] theorem State.modUnit_txFlows (s : State) (u : Nat) (f : Unit_ → Unit_) : (s.modUnit u f).txFlows = s.txFlows := rfl
@[simp] theorem State.modUnit_rxFlows (s : State) (u : Nat) (f : Unit_ → Unit_) : (s.modUnit u f).rxFlows = s.rxFlows := rfl
@[simp] theorem State.modUnit_operLog (s : State) (u : Nat) (f : Unit_ → Unit_) : (s.modUnit u f).operLog = s.operLog := rfl
@[simp] theorem State.modUnit_hostLog (s : State) (u : Nat) (f : Unit_ → Unit_) : (s.modUnit u f).hostLog = s.hostLog := rfl
@[simp] theorem State.modUnit_ethOut (s : State) (u : Nat) (f : Unit_ → Unit_) : (s.modUnit u f).ethOut = s.ethOut := rfl
@[simp] theorem State.modUnit_remoteOut (s : State) (u : Nat) (f : Unit_ → Unit_) : (s.modUnit u f).remoteOut = s.remoteOut := rfl
@[simp] theorem State.modUnit_handed (s : State) (u : Nat) (f : Unit_ → Unit_) : (s.modUnit u f).handed = s.handed := rfl
@[simp] theorem State.modUnit_amIn (s : State) (u : Nat) (f : Unit_ → Unit_) : (s.modUnit u f).amIn = s.amIn := rfl
@[simp] theorem State.modUnit_devAms (s : State) (u : Nat) (f : Unit_ → Unit_) : (s.modUnit u f).devAms = s.devAms := rfl
@[simp] theorem State.modUnit_held (s : State) (u : Nat) (f : Unit_ → Unit_) : (s.modUnit u f).held = s.held := rfl
@[simp] theorem State.modUnit_links (s : State) (u : Nat) (f : Unit_ → Unit_) : (s.modUnit u f).links = s.links := rfl
@[simp] theorem State.modUnit_stalled (s : State) (u : Nat) (f : Unit_ → Unit_) : (s.modUnit u f).stalled = s.stalled := rfl
@[simp] theorem State.modUnit_closings (s : State) (u : Nat) (f : Unit_ → Unit_) : (s.modUnit u f).closings = s.closings := rfl
@[simp] theorem State.modUnit_agenda (s : State) (u : Nat) (f : Unit_ → Unit_) : (s.modUnit u f).agenda = s.agenda := rfl
@[simp] theorem State.modUnit_subject (s : State) (u : Nat) (f : Unit_ → Unit_) : (s.modUnit u f).subject = s.subject := rfl
@[simp] theorem State.modUnit_focus (s : State) (u : Nat) (f : Unit_ → Unit_) : (s.modUnit u f).focus = s.focus := rfl
@[simp] theorem State.modUnit_fresh (s : State) (u : Nat) (f : Unit_ → Unit_) : (s.modUnit u f).fresh = s.fresh := rfl
@[simp] theorem State.modUnit_nextId (s : State) (u : Nat) (f : Unit_ → Unit_) : (s.modUnit u f).nextId = s.nextId := rfl

@[simp] theorem State.modInst_now (s : State) (i : Nat) (f : Inst → Inst) : (s.modInst i f).now = s.now := by
  unfold State.modInst; split <;> rfl
@[simp] theorem State.modInst_boot (s : State) (i : Nat) (f : Inst → Inst) : (s.modInst i f).boot = s.boot := by
  unfold State.modInst; split <;> rfl
@[simp] theorem State.modInst_flash (s : State) (i : Nat) (f : Inst → Inst) : (s.modInst i f).flash = s.flash := by
  unfold State.modInst; split <;> rfl
@[simp] theorem State.modInst_firmware (s : State) (i : Nat) (f : Inst → Inst) : (s.modInst i f).firmware = s.firmware := by
  unfold State.modInst; split <;> rfl
@[simp] theorem State.modInst_window (s : State) (i : Nat) (f : Inst → Inst) : (s.modInst i f).window = s.window := by
  unfold State.modInst; split <;> rfl
@[simp] theorem State.modInst_pkgId (s : State) (i : Nat) (f : Inst → Inst) : (s.modInst i f).pkgId = s.pkgId := by
  unfold State.modInst; split <;> rfl
@[simp] theorem State.modInst_lewenLanes (s : State) (i : Nat) (f : Inst → Inst) : (s.modInst i f).lewenLanes = s.lewenLanes := by
  unfold State.modInst; split <;> rfl
@[simp] theorem State.modInst_amLog (s : State) (i : Nat) (f : Inst → Inst) : (s.modInst i f).amLog = s.amLog := by
  unfold State.modInst; split <;> rfl
@[simp] theorem State.modInst_startTime (s : State) (i : Nat) (f : Inst → Inst) : (s.modInst i f).startTime = s.startTime := by
  unfold State.modInst; split <;> rfl
@[simp] theorem State.modInst_vfs (s : State) (i : Nat) (f : Inst → Inst) : (s.modInst i f).vfs = s.vfs := by
  unfold State.modInst; split <;> rfl
@[simp] theorem State.modInst_parts (s : State) (i : Nat) (f : Inst → Inst) : (s.modInst i f).parts = s.parts := by
  unfold State.modInst; split <;> rfl
@[simp] theorem State.modInst_units (s : State) (i : Nat) (f : Inst → Inst) : (s.modInst i f).units = s.units := by
  unfold State.modInst; split <;> rfl
@[simp] theorem State.modInst_walkCache (s : State) (i : Nat) (f : Inst → Inst) : (s.modInst i f).walkCache = s.walkCache := by
  unfold State.modInst; split <;> rfl
@[simp] theorem State.modInst_clusters (s : State) (i : Nat) (f : Inst → Inst) : (s.modInst i f).clusters = s.clusters := by
  unfold State.modInst; split <;> rfl
@[simp] theorem State.modInst_sprintw (s : State) (i : Nat) (f : Inst → Inst) : (s.modInst i f).sprintw = s.sprintw := by
  unfold State.modInst; split <;> rfl
@[simp] theorem State.modInst_pkgw (s : State) (i : Nat) (f : Inst → Inst) : (s.modInst i f).pkgw = s.pkgw := by
  unfold State.modInst; split <;> rfl
@[simp] theorem State.modInst_factors (s : State) (i : Nat) (f : Inst → Inst) : (s.modInst i f).factors = s.factors := by
  unfold State.modInst; split <;> rfl
@[simp] theorem State.modInst_lastMs (s : State) (i : Nat) (f : Inst → Inst) : (s.modInst i f).lastMs = s.lastMs := by
  unfold State.modInst; split <;> rfl
@[simp] theorem State.modInst_ctrlQ (s : State) (i : Nat) (f : Inst → Inst) : (s.modInst i f).ctrlQ = s.ctrlQ := by
  unfold State.modInst; split <;> rfl
@[simp] theorem State.modInst_grants (s : State) (i : Nat) (f : Inst → Inst) : (s.modInst i f).grants = s.grants := by
  unfold State.modInst; split <;> rfl
@[simp] theorem State.modInst_hbm (s : State) (i : Nat) (f : Inst → Inst) : (s.modInst i f).hbm = s.hbm := by
  unfold State.modInst; split <;> rfl
@[simp] theorem State.modInst_hbmPoison (s : State) (i : Nat) (f : Inst → Inst) : (s.modInst i f).hbmPoison = s.hbmPoison := by
  unfold State.modInst; split <;> rfl
@[simp] theorem State.modInst_accs (s : State) (i : Nat) (f : Inst → Inst) : (s.modInst i f).accs = s.accs := by
  unfold State.modInst; split <;> rfl
@[simp] theorem State.modInst_ops (s : State) (i : Nat) (f : Inst → Inst) : (s.modInst i f).ops = s.ops := by
  unfold State.modInst; split <;> rfl
@[simp] theorem State.modInst_parked (s : State) (i : Nat) (f : Inst → Inst) : (s.modInst i f).parked = s.parked := by
  unfold State.modInst; split <;> rfl
@[simp] theorem State.modInst_elems (s : State) (i : Nat) (f : Inst → Inst) : (s.modInst i f).elems = s.elems := by
  unfold State.modInst; split <;> rfl
@[simp] theorem State.modInst_tiles (s : State) (i : Nat) (f : Inst → Inst) : (s.modInst i f).tiles = s.tiles := by
  unfold State.modInst; split <;> rfl
@[simp] theorem State.modInst_track (s : State) (i : Nat) (f : Inst → Inst) : (s.modInst i f).track = s.track := by
  unfold State.modInst; split <;> rfl
@[simp] theorem State.modInst_launches (s : State) (i : Nat) (f : Inst → Inst) : (s.modInst i f).launches = s.launches := by
  unfold State.modInst; split <;> rfl
@[simp] theorem State.modInst_contexts (s : State) (i : Nat) (f : Inst → Inst) : (s.modInst i f).contexts = s.contexts := by
  unfold State.modInst; split <;> rfl
@[simp] theorem State.modInst_recSeq (s : State) (i : Nat) (f : Inst → Inst) : (s.modInst i f).recSeq = s.recSeq := by
  unfold State.modInst; split <;> rfl
@[simp] theorem State.modInst_srcSeqs (s : State) (i : Nat) (f : Inst → Inst) : (s.modInst i f).srcSeqs = s.srcSeqs := by
  unfold State.modInst; split <;> rfl
@[simp] theorem State.modInst_stepWaits (s : State) (i : Nat) (f : Inst → Inst) : (s.modInst i f).stepWaits = s.stepWaits := by
  unfold State.modInst; split <;> rfl
@[simp] theorem State.modInst_readyN (s : State) (i : Nat) (f : Inst → Inst) : (s.modInst i f).readyN = s.readyN := by
  unfold State.modInst; split <;> rfl
@[simp] theorem State.modInst_aqric (s : State) (i : Nat) (f : Inst → Inst) : (s.modInst i f).aqric = s.aqric := by
  unfold State.modInst; split <;> rfl
@[simp] theorem State.modInst_remapped (s : State) (i : Nat) (f : Inst → Inst) : (s.modInst i f).remapped = s.remapped := by
  unfold State.modInst; split <;> rfl
@[simp] theorem State.modInst_podAms (s : State) (i : Nat) (f : Inst → Inst) : (s.modInst i f).podAms = s.podAms := by
  unfold State.modInst; split <;> rfl
@[simp] theorem State.modInst_eth (s : State) (i : Nat) (f : Inst → Inst) : (s.modInst i f).eth = s.eth := by
  unfold State.modInst; split <;> rfl
@[simp] theorem State.modInst_txFlows (s : State) (i : Nat) (f : Inst → Inst) : (s.modInst i f).txFlows = s.txFlows := by
  unfold State.modInst; split <;> rfl
@[simp] theorem State.modInst_rxFlows (s : State) (i : Nat) (f : Inst → Inst) : (s.modInst i f).rxFlows = s.rxFlows := by
  unfold State.modInst; split <;> rfl
@[simp] theorem State.modInst_operLog (s : State) (i : Nat) (f : Inst → Inst) : (s.modInst i f).operLog = s.operLog := by
  unfold State.modInst; split <;> rfl
@[simp] theorem State.modInst_hostLog (s : State) (i : Nat) (f : Inst → Inst) : (s.modInst i f).hostLog = s.hostLog := by
  unfold State.modInst; split <;> rfl
@[simp] theorem State.modInst_ethOut (s : State) (i : Nat) (f : Inst → Inst) : (s.modInst i f).ethOut = s.ethOut := by
  unfold State.modInst; split <;> rfl
@[simp] theorem State.modInst_remoteOut (s : State) (i : Nat) (f : Inst → Inst) : (s.modInst i f).remoteOut = s.remoteOut := by
  unfold State.modInst; split <;> rfl
@[simp] theorem State.modInst_handed (s : State) (i : Nat) (f : Inst → Inst) : (s.modInst i f).handed = s.handed := by
  unfold State.modInst; split <;> rfl
@[simp] theorem State.modInst_amIn (s : State) (i : Nat) (f : Inst → Inst) : (s.modInst i f).amIn = s.amIn := by
  unfold State.modInst; split <;> rfl
@[simp] theorem State.modInst_devAms (s : State) (i : Nat) (f : Inst → Inst) : (s.modInst i f).devAms = s.devAms := by
  unfold State.modInst; split <;> rfl
@[simp] theorem State.modInst_held (s : State) (i : Nat) (f : Inst → Inst) : (s.modInst i f).held = s.held := by
  unfold State.modInst; split <;> rfl
@[simp] theorem State.modInst_links (s : State) (i : Nat) (f : Inst → Inst) : (s.modInst i f).links = s.links := by
  unfold State.modInst; split <;> rfl
@[simp] theorem State.modInst_stalled (s : State) (i : Nat) (f : Inst → Inst) : (s.modInst i f).stalled = s.stalled := by
  unfold State.modInst; split <;> rfl
@[simp] theorem State.modInst_closings (s : State) (i : Nat) (f : Inst → Inst) : (s.modInst i f).closings = s.closings := by
  unfold State.modInst; split <;> rfl
@[simp] theorem State.modInst_agenda (s : State) (i : Nat) (f : Inst → Inst) : (s.modInst i f).agenda = s.agenda := by
  unfold State.modInst; split <;> rfl
@[simp] theorem State.modInst_subject (s : State) (i : Nat) (f : Inst → Inst) : (s.modInst i f).subject = s.subject := by
  unfold State.modInst; split <;> rfl
@[simp] theorem State.modInst_focus (s : State) (i : Nat) (f : Inst → Inst) : (s.modInst i f).focus = s.focus := by
  unfold State.modInst; split <;> rfl
@[simp] theorem State.modInst_fresh (s : State) (i : Nat) (f : Inst → Inst) : (s.modInst i f).fresh = s.fresh := by
  unfold State.modInst; split <;> rfl
@[simp] theorem State.modInst_nextId (s : State) (i : Nat) (f : Inst → Inst) : (s.modInst i f).nextId = s.nextId := by
  unfold State.modInst; split <;> rfl

@[simp] theorem State.modLaunch_now (s : State) (l : Nat) (f : Launch → Launch) : (s.modLaunch l f).now = s.now := by
  unfold State.modLaunch; split <;> rfl
@[simp] theorem State.modLaunch_boot (s : State) (l : Nat) (f : Launch → Launch) : (s.modLaunch l f).boot = s.boot := by
  unfold State.modLaunch; split <;> rfl
@[simp] theorem State.modLaunch_flash (s : State) (l : Nat) (f : Launch → Launch) : (s.modLaunch l f).flash = s.flash := by
  unfold State.modLaunch; split <;> rfl
@[simp] theorem State.modLaunch_firmware (s : State) (l : Nat) (f : Launch → Launch) : (s.modLaunch l f).firmware = s.firmware := by
  unfold State.modLaunch; split <;> rfl
@[simp] theorem State.modLaunch_window (s : State) (l : Nat) (f : Launch → Launch) : (s.modLaunch l f).window = s.window := by
  unfold State.modLaunch; split <;> rfl
@[simp] theorem State.modLaunch_pkgId (s : State) (l : Nat) (f : Launch → Launch) : (s.modLaunch l f).pkgId = s.pkgId := by
  unfold State.modLaunch; split <;> rfl
@[simp] theorem State.modLaunch_lewenLanes (s : State) (l : Nat) (f : Launch → Launch) : (s.modLaunch l f).lewenLanes = s.lewenLanes := by
  unfold State.modLaunch; split <;> rfl
@[simp] theorem State.modLaunch_amLog (s : State) (l : Nat) (f : Launch → Launch) : (s.modLaunch l f).amLog = s.amLog := by
  unfold State.modLaunch; split <;> rfl
@[simp] theorem State.modLaunch_startTime (s : State) (l : Nat) (f : Launch → Launch) : (s.modLaunch l f).startTime = s.startTime := by
  unfold State.modLaunch; split <;> rfl
@[simp] theorem State.modLaunch_vfs (s : State) (l : Nat) (f : Launch → Launch) : (s.modLaunch l f).vfs = s.vfs := by
  unfold State.modLaunch; split <;> rfl
@[simp] theorem State.modLaunch_parts (s : State) (l : Nat) (f : Launch → Launch) : (s.modLaunch l f).parts = s.parts := by
  unfold State.modLaunch; split <;> rfl
@[simp] theorem State.modLaunch_units (s : State) (l : Nat) (f : Launch → Launch) : (s.modLaunch l f).units = s.units := by
  unfold State.modLaunch; split <;> rfl
@[simp] theorem State.modLaunch_walkCache (s : State) (l : Nat) (f : Launch → Launch) : (s.modLaunch l f).walkCache = s.walkCache := by
  unfold State.modLaunch; split <;> rfl
@[simp] theorem State.modLaunch_clusters (s : State) (l : Nat) (f : Launch → Launch) : (s.modLaunch l f).clusters = s.clusters := by
  unfold State.modLaunch; split <;> rfl
@[simp] theorem State.modLaunch_sprintw (s : State) (l : Nat) (f : Launch → Launch) : (s.modLaunch l f).sprintw = s.sprintw := by
  unfold State.modLaunch; split <;> rfl
@[simp] theorem State.modLaunch_pkgw (s : State) (l : Nat) (f : Launch → Launch) : (s.modLaunch l f).pkgw = s.pkgw := by
  unfold State.modLaunch; split <;> rfl
@[simp] theorem State.modLaunch_factors (s : State) (l : Nat) (f : Launch → Launch) : (s.modLaunch l f).factors = s.factors := by
  unfold State.modLaunch; split <;> rfl
@[simp] theorem State.modLaunch_lastMs (s : State) (l : Nat) (f : Launch → Launch) : (s.modLaunch l f).lastMs = s.lastMs := by
  unfold State.modLaunch; split <;> rfl
@[simp] theorem State.modLaunch_ctrlQ (s : State) (l : Nat) (f : Launch → Launch) : (s.modLaunch l f).ctrlQ = s.ctrlQ := by
  unfold State.modLaunch; split <;> rfl
@[simp] theorem State.modLaunch_grants (s : State) (l : Nat) (f : Launch → Launch) : (s.modLaunch l f).grants = s.grants := by
  unfold State.modLaunch; split <;> rfl
@[simp] theorem State.modLaunch_hbm (s : State) (l : Nat) (f : Launch → Launch) : (s.modLaunch l f).hbm = s.hbm := by
  unfold State.modLaunch; split <;> rfl
@[simp] theorem State.modLaunch_hbmPoison (s : State) (l : Nat) (f : Launch → Launch) : (s.modLaunch l f).hbmPoison = s.hbmPoison := by
  unfold State.modLaunch; split <;> rfl
@[simp] theorem State.modLaunch_accs (s : State) (l : Nat) (f : Launch → Launch) : (s.modLaunch l f).accs = s.accs := by
  unfold State.modLaunch; split <;> rfl
@[simp] theorem State.modLaunch_ops (s : State) (l : Nat) (f : Launch → Launch) : (s.modLaunch l f).ops = s.ops := by
  unfold State.modLaunch; split <;> rfl
@[simp] theorem State.modLaunch_parked (s : State) (l : Nat) (f : Launch → Launch) : (s.modLaunch l f).parked = s.parked := by
  unfold State.modLaunch; split <;> rfl
@[simp] theorem State.modLaunch_elems (s : State) (l : Nat) (f : Launch → Launch) : (s.modLaunch l f).elems = s.elems := by
  unfold State.modLaunch; split <;> rfl
@[simp] theorem State.modLaunch_tiles (s : State) (l : Nat) (f : Launch → Launch) : (s.modLaunch l f).tiles = s.tiles := by
  unfold State.modLaunch; split <;> rfl
@[simp] theorem State.modLaunch_track (s : State) (l : Nat) (f : Launch → Launch) : (s.modLaunch l f).track = s.track := by
  unfold State.modLaunch; split <;> rfl
@[simp] theorem State.modLaunch_insts (s : State) (l : Nat) (f : Launch → Launch) : (s.modLaunch l f).insts = s.insts := by
  unfold State.modLaunch; split <;> rfl
@[simp] theorem State.modLaunch_contexts (s : State) (l : Nat) (f : Launch → Launch) : (s.modLaunch l f).contexts = s.contexts := by
  unfold State.modLaunch; split <;> rfl
@[simp] theorem State.modLaunch_recSeq (s : State) (l : Nat) (f : Launch → Launch) : (s.modLaunch l f).recSeq = s.recSeq := by
  unfold State.modLaunch; split <;> rfl
@[simp] theorem State.modLaunch_srcSeqs (s : State) (l : Nat) (f : Launch → Launch) : (s.modLaunch l f).srcSeqs = s.srcSeqs := by
  unfold State.modLaunch; split <;> rfl
@[simp] theorem State.modLaunch_stepWaits (s : State) (l : Nat) (f : Launch → Launch) : (s.modLaunch l f).stepWaits = s.stepWaits := by
  unfold State.modLaunch; split <;> rfl
@[simp] theorem State.modLaunch_readyN (s : State) (l : Nat) (f : Launch → Launch) : (s.modLaunch l f).readyN = s.readyN := by
  unfold State.modLaunch; split <;> rfl
@[simp] theorem State.modLaunch_aqric (s : State) (l : Nat) (f : Launch → Launch) : (s.modLaunch l f).aqric = s.aqric := by
  unfold State.modLaunch; split <;> rfl
@[simp] theorem State.modLaunch_remapped (s : State) (l : Nat) (f : Launch → Launch) : (s.modLaunch l f).remapped = s.remapped := by
  unfold State.modLaunch; split <;> rfl
@[simp] theorem State.modLaunch_podAms (s : State) (l : Nat) (f : Launch → Launch) : (s.modLaunch l f).podAms = s.podAms := by
  unfold State.modLaunch; split <;> rfl
@[simp] theorem State.modLaunch_eth (s : State) (l : Nat) (f : Launch → Launch) : (s.modLaunch l f).eth = s.eth := by
  unfold State.modLaunch; split <;> rfl
@[simp] theorem State.modLaunch_txFlows (s : State) (l : Nat) (f : Launch → Launch) : (s.modLaunch l f).txFlows = s.txFlows := by
  unfold State.modLaunch; split <;> rfl
@[simp] theorem State.modLaunch_rxFlows (s : State) (l : Nat) (f : Launch → Launch) : (s.modLaunch l f).rxFlows = s.rxFlows := by
  unfold State.modLaunch; split <;> rfl
@[simp] theorem State.modLaunch_operLog (s : State) (l : Nat) (f : Launch → Launch) : (s.modLaunch l f).operLog = s.operLog := by
  unfold State.modLaunch; split <;> rfl
@[simp] theorem State.modLaunch_hostLog (s : State) (l : Nat) (f : Launch → Launch) : (s.modLaunch l f).hostLog = s.hostLog := by
  unfold State.modLaunch; split <;> rfl
@[simp] theorem State.modLaunch_ethOut (s : State) (l : Nat) (f : Launch → Launch) : (s.modLaunch l f).ethOut = s.ethOut := by
  unfold State.modLaunch; split <;> rfl
@[simp] theorem State.modLaunch_remoteOut (s : State) (l : Nat) (f : Launch → Launch) : (s.modLaunch l f).remoteOut = s.remoteOut := by
  unfold State.modLaunch; split <;> rfl
@[simp] theorem State.modLaunch_handed (s : State) (l : Nat) (f : Launch → Launch) : (s.modLaunch l f).handed = s.handed := by
  unfold State.modLaunch; split <;> rfl
@[simp] theorem State.modLaunch_amIn (s : State) (l : Nat) (f : Launch → Launch) : (s.modLaunch l f).amIn = s.amIn := by
  unfold State.modLaunch; split <;> rfl
@[simp] theorem State.modLaunch_devAms (s : State) (l : Nat) (f : Launch → Launch) : (s.modLaunch l f).devAms = s.devAms := by
  unfold State.modLaunch; split <;> rfl
@[simp] theorem State.modLaunch_held (s : State) (l : Nat) (f : Launch → Launch) : (s.modLaunch l f).held = s.held := by
  unfold State.modLaunch; split <;> rfl
@[simp] theorem State.modLaunch_links (s : State) (l : Nat) (f : Launch → Launch) : (s.modLaunch l f).links = s.links := by
  unfold State.modLaunch; split <;> rfl
@[simp] theorem State.modLaunch_stalled (s : State) (l : Nat) (f : Launch → Launch) : (s.modLaunch l f).stalled = s.stalled := by
  unfold State.modLaunch; split <;> rfl
@[simp] theorem State.modLaunch_closings (s : State) (l : Nat) (f : Launch → Launch) : (s.modLaunch l f).closings = s.closings := by
  unfold State.modLaunch; split <;> rfl
@[simp] theorem State.modLaunch_agenda (s : State) (l : Nat) (f : Launch → Launch) : (s.modLaunch l f).agenda = s.agenda := by
  unfold State.modLaunch; split <;> rfl
@[simp] theorem State.modLaunch_subject (s : State) (l : Nat) (f : Launch → Launch) : (s.modLaunch l f).subject = s.subject := by
  unfold State.modLaunch; split <;> rfl
@[simp] theorem State.modLaunch_focus (s : State) (l : Nat) (f : Launch → Launch) : (s.modLaunch l f).focus = s.focus := by
  unfold State.modLaunch; split <;> rfl
@[simp] theorem State.modLaunch_fresh (s : State) (l : Nat) (f : Launch → Launch) : (s.modLaunch l f).fresh = s.fresh := by
  unfold State.modLaunch; split <;> rfl
@[simp] theorem State.modLaunch_nextId (s : State) (l : Nat) (f : Launch → Launch) : (s.modLaunch l f).nextId = s.nextId := by
  unfold State.modLaunch; split <;> rfl

@[simp] theorem State.newId_now (s : State) : (s.newId.2).now = s.now := rfl
@[simp] theorem State.newId_boot (s : State) : (s.newId.2).boot = s.boot := rfl
@[simp] theorem State.newId_flash (s : State) : (s.newId.2).flash = s.flash := rfl
@[simp] theorem State.newId_firmware (s : State) : (s.newId.2).firmware = s.firmware := rfl
@[simp] theorem State.newId_window (s : State) : (s.newId.2).window = s.window := rfl
@[simp] theorem State.newId_pkgId (s : State) : (s.newId.2).pkgId = s.pkgId := rfl
@[simp] theorem State.newId_lewenLanes (s : State) : (s.newId.2).lewenLanes = s.lewenLanes := rfl
@[simp] theorem State.newId_amLog (s : State) : (s.newId.2).amLog = s.amLog := rfl
@[simp] theorem State.newId_startTime (s : State) : (s.newId.2).startTime = s.startTime := rfl
@[simp] theorem State.newId_vfs (s : State) : (s.newId.2).vfs = s.vfs := rfl
@[simp] theorem State.newId_parts (s : State) : (s.newId.2).parts = s.parts := rfl
@[simp] theorem State.newId_units (s : State) : (s.newId.2).units = s.units := rfl
@[simp] theorem State.newId_walkCache (s : State) : (s.newId.2).walkCache = s.walkCache := rfl
@[simp] theorem State.newId_clusters (s : State) : (s.newId.2).clusters = s.clusters := rfl
@[simp] theorem State.newId_sprintw (s : State) : (s.newId.2).sprintw = s.sprintw := rfl
@[simp] theorem State.newId_pkgw (s : State) : (s.newId.2).pkgw = s.pkgw := rfl
@[simp] theorem State.newId_factors (s : State) : (s.newId.2).factors = s.factors := rfl
@[simp] theorem State.newId_lastMs (s : State) : (s.newId.2).lastMs = s.lastMs := rfl
@[simp] theorem State.newId_ctrlQ (s : State) : (s.newId.2).ctrlQ = s.ctrlQ := rfl
@[simp] theorem State.newId_grants (s : State) : (s.newId.2).grants = s.grants := rfl
@[simp] theorem State.newId_hbm (s : State) : (s.newId.2).hbm = s.hbm := rfl
@[simp] theorem State.newId_hbmPoison (s : State) : (s.newId.2).hbmPoison = s.hbmPoison := rfl
@[simp] theorem State.newId_accs (s : State) : (s.newId.2).accs = s.accs := rfl
@[simp] theorem State.newId_ops (s : State) : (s.newId.2).ops = s.ops := rfl
@[simp] theorem State.newId_parked (s : State) : (s.newId.2).parked = s.parked := rfl
@[simp] theorem State.newId_elems (s : State) : (s.newId.2).elems = s.elems := rfl
@[simp] theorem State.newId_tiles (s : State) : (s.newId.2).tiles = s.tiles := rfl
@[simp] theorem State.newId_track (s : State) : (s.newId.2).track = s.track := rfl
@[simp] theorem State.newId_launches (s : State) : (s.newId.2).launches = s.launches := rfl
@[simp] theorem State.newId_insts (s : State) : (s.newId.2).insts = s.insts := rfl
@[simp] theorem State.newId_contexts (s : State) : (s.newId.2).contexts = s.contexts := rfl
@[simp] theorem State.newId_recSeq (s : State) : (s.newId.2).recSeq = s.recSeq := rfl
@[simp] theorem State.newId_srcSeqs (s : State) : (s.newId.2).srcSeqs = s.srcSeqs := rfl
@[simp] theorem State.newId_stepWaits (s : State) : (s.newId.2).stepWaits = s.stepWaits := rfl
@[simp] theorem State.newId_readyN (s : State) : (s.newId.2).readyN = s.readyN := rfl
@[simp] theorem State.newId_aqric (s : State) : (s.newId.2).aqric = s.aqric := rfl
@[simp] theorem State.newId_remapped (s : State) : (s.newId.2).remapped = s.remapped := rfl
@[simp] theorem State.newId_podAms (s : State) : (s.newId.2).podAms = s.podAms := rfl
@[simp] theorem State.newId_eth (s : State) : (s.newId.2).eth = s.eth := rfl
@[simp] theorem State.newId_txFlows (s : State) : (s.newId.2).txFlows = s.txFlows := rfl
@[simp] theorem State.newId_rxFlows (s : State) : (s.newId.2).rxFlows = s.rxFlows := rfl
@[simp] theorem State.newId_operLog (s : State) : (s.newId.2).operLog = s.operLog := rfl
@[simp] theorem State.newId_hostLog (s : State) : (s.newId.2).hostLog = s.hostLog := rfl
@[simp] theorem State.newId_ethOut (s : State) : (s.newId.2).ethOut = s.ethOut := rfl
@[simp] theorem State.newId_remoteOut (s : State) : (s.newId.2).remoteOut = s.remoteOut := rfl
@[simp] theorem State.newId_handed (s : State) : (s.newId.2).handed = s.handed := rfl
@[simp] theorem State.newId_amIn (s : State) : (s.newId.2).amIn = s.amIn := rfl
@[simp] theorem State.newId_devAms (s : State) : (s.newId.2).devAms = s.devAms := rfl
@[simp] theorem State.newId_held (s : State) : (s.newId.2).held = s.held := rfl
@[simp] theorem State.newId_links (s : State) : (s.newId.2).links = s.links := rfl
@[simp] theorem State.newId_stalled (s : State) : (s.newId.2).stalled = s.stalled := rfl
@[simp] theorem State.newId_closings (s : State) : (s.newId.2).closings = s.closings := rfl
@[simp] theorem State.newId_agenda (s : State) : (s.newId.2).agenda = s.agenda := rfl
@[simp] theorem State.newId_subject (s : State) : (s.newId.2).subject = s.subject := rfl
@[simp] theorem State.newId_focus (s : State) : (s.newId.2).focus = s.focus := rfl
@[simp] theorem State.newId_fresh (s : State) : (s.newId.2).fresh = s.fresh := rfl

@[simp] theorem State.takeFresh_now (s : State) : (s.takeFresh.2).now = s.now := rfl
@[simp] theorem State.takeFresh_boot (s : State) : (s.takeFresh.2).boot = s.boot := rfl
@[simp] theorem State.takeFresh_flash (s : State) : (s.takeFresh.2).flash = s.flash := rfl
@[simp] theorem State.takeFresh_firmware (s : State) : (s.takeFresh.2).firmware = s.firmware := rfl
@[simp] theorem State.takeFresh_window (s : State) : (s.takeFresh.2).window = s.window := rfl
@[simp] theorem State.takeFresh_pkgId (s : State) : (s.takeFresh.2).pkgId = s.pkgId := rfl
@[simp] theorem State.takeFresh_lewenLanes (s : State) : (s.takeFresh.2).lewenLanes = s.lewenLanes := rfl
@[simp] theorem State.takeFresh_amLog (s : State) : (s.takeFresh.2).amLog = s.amLog := rfl
@[simp] theorem State.takeFresh_startTime (s : State) : (s.takeFresh.2).startTime = s.startTime := rfl
@[simp] theorem State.takeFresh_vfs (s : State) : (s.takeFresh.2).vfs = s.vfs := rfl
@[simp] theorem State.takeFresh_parts (s : State) : (s.takeFresh.2).parts = s.parts := rfl
@[simp] theorem State.takeFresh_units (s : State) : (s.takeFresh.2).units = s.units := rfl
@[simp] theorem State.takeFresh_walkCache (s : State) : (s.takeFresh.2).walkCache = s.walkCache := rfl
@[simp] theorem State.takeFresh_clusters (s : State) : (s.takeFresh.2).clusters = s.clusters := rfl
@[simp] theorem State.takeFresh_sprintw (s : State) : (s.takeFresh.2).sprintw = s.sprintw := rfl
@[simp] theorem State.takeFresh_pkgw (s : State) : (s.takeFresh.2).pkgw = s.pkgw := rfl
@[simp] theorem State.takeFresh_factors (s : State) : (s.takeFresh.2).factors = s.factors := rfl
@[simp] theorem State.takeFresh_lastMs (s : State) : (s.takeFresh.2).lastMs = s.lastMs := rfl
@[simp] theorem State.takeFresh_ctrlQ (s : State) : (s.takeFresh.2).ctrlQ = s.ctrlQ := rfl
@[simp] theorem State.takeFresh_grants (s : State) : (s.takeFresh.2).grants = s.grants := rfl
@[simp] theorem State.takeFresh_hbm (s : State) : (s.takeFresh.2).hbm = s.hbm := rfl
@[simp] theorem State.takeFresh_hbmPoison (s : State) : (s.takeFresh.2).hbmPoison = s.hbmPoison := rfl
@[simp] theorem State.takeFresh_accs (s : State) : (s.takeFresh.2).accs = s.accs := rfl
@[simp] theorem State.takeFresh_ops (s : State) : (s.takeFresh.2).ops = s.ops := rfl
@[simp] theorem State.takeFresh_parked (s : State) : (s.takeFresh.2).parked = s.parked := rfl
@[simp] theorem State.takeFresh_elems (s : State) : (s.takeFresh.2).elems = s.elems := rfl
@[simp] theorem State.takeFresh_tiles (s : State) : (s.takeFresh.2).tiles = s.tiles := rfl
@[simp] theorem State.takeFresh_track (s : State) : (s.takeFresh.2).track = s.track := rfl
@[simp] theorem State.takeFresh_launches (s : State) : (s.takeFresh.2).launches = s.launches := rfl
@[simp] theorem State.takeFresh_insts (s : State) : (s.takeFresh.2).insts = s.insts := rfl
@[simp] theorem State.takeFresh_contexts (s : State) : (s.takeFresh.2).contexts = s.contexts := rfl
@[simp] theorem State.takeFresh_recSeq (s : State) : (s.takeFresh.2).recSeq = s.recSeq := rfl
@[simp] theorem State.takeFresh_srcSeqs (s : State) : (s.takeFresh.2).srcSeqs = s.srcSeqs := rfl
@[simp] theorem State.takeFresh_stepWaits (s : State) : (s.takeFresh.2).stepWaits = s.stepWaits := rfl
@[simp] theorem State.takeFresh_readyN (s : State) : (s.takeFresh.2).readyN = s.readyN := rfl
@[simp] theorem State.takeFresh_aqric (s : State) : (s.takeFresh.2).aqric = s.aqric := rfl
@[simp] theorem State.takeFresh_remapped (s : State) : (s.takeFresh.2).remapped = s.remapped := rfl
@[simp] theorem State.takeFresh_podAms (s : State) : (s.takeFresh.2).podAms = s.podAms := rfl
@[simp] theorem State.takeFresh_eth (s : State) : (s.takeFresh.2).eth = s.eth := rfl
@[simp] theorem State.takeFresh_txFlows (s : State) : (s.takeFresh.2).txFlows = s.txFlows := rfl
@[simp] theorem State.takeFresh_rxFlows (s : State) : (s.takeFresh.2).rxFlows = s.rxFlows := rfl
@[simp] theorem State.takeFresh_operLog (s : State) : (s.takeFresh.2).operLog = s.operLog := rfl
@[simp] theorem State.takeFresh_hostLog (s : State) : (s.takeFresh.2).hostLog = s.hostLog := rfl
@[simp] theorem State.takeFresh_ethOut (s : State) : (s.takeFresh.2).ethOut = s.ethOut := rfl
@[simp] theorem State.takeFresh_remoteOut (s : State) : (s.takeFresh.2).remoteOut = s.remoteOut := rfl
@[simp] theorem State.takeFresh_handed (s : State) : (s.takeFresh.2).handed = s.handed := rfl
@[simp] theorem State.takeFresh_amIn (s : State) : (s.takeFresh.2).amIn = s.amIn := rfl
@[simp] theorem State.takeFresh_devAms (s : State) : (s.takeFresh.2).devAms = s.devAms := rfl
@[simp] theorem State.takeFresh_held (s : State) : (s.takeFresh.2).held = s.held := rfl
@[simp] theorem State.takeFresh_links (s : State) : (s.takeFresh.2).links = s.links := rfl
@[simp] theorem State.takeFresh_stalled (s : State) : (s.takeFresh.2).stalled = s.stalled := rfl
@[simp] theorem State.takeFresh_closings (s : State) : (s.takeFresh.2).closings = s.closings := rfl
@[simp] theorem State.takeFresh_agenda (s : State) : (s.takeFresh.2).agenda = s.agenda := rfl
@[simp] theorem State.takeFresh_subject (s : State) : (s.takeFresh.2).subject = s.subject := rfl
@[simp] theorem State.takeFresh_focus (s : State) : (s.takeFresh.2).focus = s.focus := rfl
@[simp] theorem State.takeFresh_nextId (s : State) : (s.takeFresh.2).nextId = s.nextId := rfl

@[simp] theorem State.takeSeq_now (s : State) (k c p : Nat) : ((s.takeSeq k c p).2).now = s.now := rfl
@[simp] theorem State.takeSeq_boot (s : State) (k c p : Nat) : ((s.takeSeq k c p).2).boot = s.boot := rfl
@[simp] theorem State.takeSeq_flash (s : State) (k c p : Nat) : ((s.takeSeq k c p).2).flash = s.flash := rfl
@[simp] theorem State.takeSeq_firmware (s : State) (k c p : Nat) : ((s.takeSeq k c p).2).firmware = s.firmware := rfl
@[simp] theorem State.takeSeq_window (s : State) (k c p : Nat) : ((s.takeSeq k c p).2).window = s.window := rfl
@[simp] theorem State.takeSeq_pkgId (s : State) (k c p : Nat) : ((s.takeSeq k c p).2).pkgId = s.pkgId := rfl
@[simp] theorem State.takeSeq_lewenLanes (s : State) (k c p : Nat) : ((s.takeSeq k c p).2).lewenLanes = s.lewenLanes := rfl
@[simp] theorem State.takeSeq_amLog (s : State) (k c p : Nat) : ((s.takeSeq k c p).2).amLog = s.amLog := rfl
@[simp] theorem State.takeSeq_startTime (s : State) (k c p : Nat) : ((s.takeSeq k c p).2).startTime = s.startTime := rfl
@[simp] theorem State.takeSeq_vfs (s : State) (k c p : Nat) : ((s.takeSeq k c p).2).vfs = s.vfs := rfl
@[simp] theorem State.takeSeq_parts (s : State) (k c p : Nat) : ((s.takeSeq k c p).2).parts = s.parts := rfl
@[simp] theorem State.takeSeq_units (s : State) (k c p : Nat) : ((s.takeSeq k c p).2).units = s.units := rfl
@[simp] theorem State.takeSeq_walkCache (s : State) (k c p : Nat) : ((s.takeSeq k c p).2).walkCache = s.walkCache := rfl
@[simp] theorem State.takeSeq_clusters (s : State) (k c p : Nat) : ((s.takeSeq k c p).2).clusters = s.clusters := rfl
@[simp] theorem State.takeSeq_sprintw (s : State) (k c p : Nat) : ((s.takeSeq k c p).2).sprintw = s.sprintw := rfl
@[simp] theorem State.takeSeq_pkgw (s : State) (k c p : Nat) : ((s.takeSeq k c p).2).pkgw = s.pkgw := rfl
@[simp] theorem State.takeSeq_factors (s : State) (k c p : Nat) : ((s.takeSeq k c p).2).factors = s.factors := rfl
@[simp] theorem State.takeSeq_lastMs (s : State) (k c p : Nat) : ((s.takeSeq k c p).2).lastMs = s.lastMs := rfl
@[simp] theorem State.takeSeq_ctrlQ (s : State) (k c p : Nat) : ((s.takeSeq k c p).2).ctrlQ = s.ctrlQ := rfl
@[simp] theorem State.takeSeq_grants (s : State) (k c p : Nat) : ((s.takeSeq k c p).2).grants = s.grants := rfl
@[simp] theorem State.takeSeq_hbm (s : State) (k c p : Nat) : ((s.takeSeq k c p).2).hbm = s.hbm := rfl
@[simp] theorem State.takeSeq_hbmPoison (s : State) (k c p : Nat) : ((s.takeSeq k c p).2).hbmPoison = s.hbmPoison := rfl
@[simp] theorem State.takeSeq_accs (s : State) (k c p : Nat) : ((s.takeSeq k c p).2).accs = s.accs := rfl
@[simp] theorem State.takeSeq_ops (s : State) (k c p : Nat) : ((s.takeSeq k c p).2).ops = s.ops := rfl
@[simp] theorem State.takeSeq_parked (s : State) (k c p : Nat) : ((s.takeSeq k c p).2).parked = s.parked := rfl
@[simp] theorem State.takeSeq_elems (s : State) (k c p : Nat) : ((s.takeSeq k c p).2).elems = s.elems := rfl
@[simp] theorem State.takeSeq_tiles (s : State) (k c p : Nat) : ((s.takeSeq k c p).2).tiles = s.tiles := rfl
@[simp] theorem State.takeSeq_track (s : State) (k c p : Nat) : ((s.takeSeq k c p).2).track = s.track := rfl
@[simp] theorem State.takeSeq_launches (s : State) (k c p : Nat) : ((s.takeSeq k c p).2).launches = s.launches := rfl
@[simp] theorem State.takeSeq_insts (s : State) (k c p : Nat) : ((s.takeSeq k c p).2).insts = s.insts := rfl
@[simp] theorem State.takeSeq_contexts (s : State) (k c p : Nat) : ((s.takeSeq k c p).2).contexts = s.contexts := rfl
@[simp] theorem State.takeSeq_srcSeqs (s : State) (k c p : Nat) : ((s.takeSeq k c p).2).srcSeqs = s.srcSeqs := rfl
@[simp] theorem State.takeSeq_stepWaits (s : State) (k c p : Nat) : ((s.takeSeq k c p).2).stepWaits = s.stepWaits := rfl
@[simp] theorem State.takeSeq_readyN (s : State) (k c p : Nat) : ((s.takeSeq k c p).2).readyN = s.readyN := rfl
@[simp] theorem State.takeSeq_aqric (s : State) (k c p : Nat) : ((s.takeSeq k c p).2).aqric = s.aqric := rfl
@[simp] theorem State.takeSeq_remapped (s : State) (k c p : Nat) : ((s.takeSeq k c p).2).remapped = s.remapped := rfl
@[simp] theorem State.takeSeq_podAms (s : State) (k c p : Nat) : ((s.takeSeq k c p).2).podAms = s.podAms := rfl
@[simp] theorem State.takeSeq_eth (s : State) (k c p : Nat) : ((s.takeSeq k c p).2).eth = s.eth := rfl
@[simp] theorem State.takeSeq_txFlows (s : State) (k c p : Nat) : ((s.takeSeq k c p).2).txFlows = s.txFlows := rfl
@[simp] theorem State.takeSeq_rxFlows (s : State) (k c p : Nat) : ((s.takeSeq k c p).2).rxFlows = s.rxFlows := rfl
@[simp] theorem State.takeSeq_operLog (s : State) (k c p : Nat) : ((s.takeSeq k c p).2).operLog = s.operLog := rfl
@[simp] theorem State.takeSeq_hostLog (s : State) (k c p : Nat) : ((s.takeSeq k c p).2).hostLog = s.hostLog := rfl
@[simp] theorem State.takeSeq_ethOut (s : State) (k c p : Nat) : ((s.takeSeq k c p).2).ethOut = s.ethOut := rfl
@[simp] theorem State.takeSeq_remoteOut (s : State) (k c p : Nat) : ((s.takeSeq k c p).2).remoteOut = s.remoteOut := rfl
@[simp] theorem State.takeSeq_handed (s : State) (k c p : Nat) : ((s.takeSeq k c p).2).handed = s.handed := rfl
@[simp] theorem State.takeSeq_amIn (s : State) (k c p : Nat) : ((s.takeSeq k c p).2).amIn = s.amIn := rfl
@[simp] theorem State.takeSeq_devAms (s : State) (k c p : Nat) : ((s.takeSeq k c p).2).devAms = s.devAms := rfl
@[simp] theorem State.takeSeq_held (s : State) (k c p : Nat) : ((s.takeSeq k c p).2).held = s.held := rfl
@[simp] theorem State.takeSeq_links (s : State) (k c p : Nat) : ((s.takeSeq k c p).2).links = s.links := rfl
@[simp] theorem State.takeSeq_stalled (s : State) (k c p : Nat) : ((s.takeSeq k c p).2).stalled = s.stalled := rfl
@[simp] theorem State.takeSeq_closings (s : State) (k c p : Nat) : ((s.takeSeq k c p).2).closings = s.closings := rfl
@[simp] theorem State.takeSeq_agenda (s : State) (k c p : Nat) : ((s.takeSeq k c p).2).agenda = s.agenda := rfl
@[simp] theorem State.takeSeq_subject (s : State) (k c p : Nat) : ((s.takeSeq k c p).2).subject = s.subject := rfl
@[simp] theorem State.takeSeq_focus (s : State) (k c p : Nat) : ((s.takeSeq k c p).2).focus = s.focus := rfl
@[simp] theorem State.takeSeq_fresh (s : State) (k c p : Nat) : ((s.takeSeq k c p).2).fresh = s.fresh := rfl
@[simp] theorem State.takeSeq_nextId (s : State) (k c p : Nat) : ((s.takeSeq k c p).2).nextId = s.nextId := rfl

@[simp] theorem State.dropWalks_now (s : State) (v : Nat) : (s.dropWalks v).now = s.now := rfl
@[simp] theorem State.dropWalks_boot (s : State) (v : Nat) : (s.dropWalks v).boot = s.boot := rfl
@[simp] theorem State.dropWalks_flash (s : State) (v : Nat) : (s.dropWalks v).flash = s.flash := rfl
@[simp] theorem State.dropWalks_firmware (s : State) (v : Nat) : (s.dropWalks v).firmware = s.firmware := rfl
@[simp] theorem State.dropWalks_window (s : State) (v : Nat) : (s.dropWalks v).window = s.window := rfl
@[simp] theorem State.dropWalks_pkgId (s : State) (v : Nat) : (s.dropWalks v).pkgId = s.pkgId := rfl
@[simp] theorem State.dropWalks_lewenLanes (s : State) (v : Nat) : (s.dropWalks v).lewenLanes = s.lewenLanes := rfl
@[simp] theorem State.dropWalks_amLog (s : State) (v : Nat) : (s.dropWalks v).amLog = s.amLog := rfl
@[simp] theorem State.dropWalks_startTime (s : State) (v : Nat) : (s.dropWalks v).startTime = s.startTime := rfl
@[simp] theorem State.dropWalks_vfs (s : State) (v : Nat) : (s.dropWalks v).vfs = s.vfs := rfl
@[simp] theorem State.dropWalks_parts (s : State) (v : Nat) : (s.dropWalks v).parts = s.parts := rfl
@[simp] theorem State.dropWalks_units (s : State) (v : Nat) : (s.dropWalks v).units = s.units := rfl
@[simp] theorem State.dropWalks_clusters (s : State) (v : Nat) : (s.dropWalks v).clusters = s.clusters := rfl
@[simp] theorem State.dropWalks_sprintw (s : State) (v : Nat) : (s.dropWalks v).sprintw = s.sprintw := rfl
@[simp] theorem State.dropWalks_pkgw (s : State) (v : Nat) : (s.dropWalks v).pkgw = s.pkgw := rfl
@[simp] theorem State.dropWalks_factors (s : State) (v : Nat) : (s.dropWalks v).factors = s.factors := rfl
@[simp] theorem State.dropWalks_lastMs (s : State) (v : Nat) : (s.dropWalks v).lastMs = s.lastMs := rfl
@[simp] theorem State.dropWalks_ctrlQ (s : State) (v : Nat) : (s.dropWalks v).ctrlQ = s.ctrlQ := rfl
@[simp] theorem State.dropWalks_grants (s : State) (v : Nat) : (s.dropWalks v).grants = s.grants := rfl
@[simp] theorem State.dropWalks_hbm (s : State) (v : Nat) : (s.dropWalks v).hbm = s.hbm := rfl
@[simp] theorem State.dropWalks_hbmPoison (s : State) (v : Nat) : (s.dropWalks v).hbmPoison = s.hbmPoison := rfl
@[simp] theorem State.dropWalks_accs (s : State) (v : Nat) : (s.dropWalks v).accs = s.accs := rfl
@[simp] theorem State.dropWalks_ops (s : State) (v : Nat) : (s.dropWalks v).ops = s.ops := rfl
@[simp] theorem State.dropWalks_parked (s : State) (v : Nat) : (s.dropWalks v).parked = s.parked := rfl
@[simp] theorem State.dropWalks_elems (s : State) (v : Nat) : (s.dropWalks v).elems = s.elems := rfl
@[simp] theorem State.dropWalks_tiles (s : State) (v : Nat) : (s.dropWalks v).tiles = s.tiles := rfl
@[simp] theorem State.dropWalks_track (s : State) (v : Nat) : (s.dropWalks v).track = s.track := rfl
@[simp] theorem State.dropWalks_launches (s : State) (v : Nat) : (s.dropWalks v).launches = s.launches := rfl
@[simp] theorem State.dropWalks_insts (s : State) (v : Nat) : (s.dropWalks v).insts = s.insts := rfl
@[simp] theorem State.dropWalks_contexts (s : State) (v : Nat) : (s.dropWalks v).contexts = s.contexts := rfl
@[simp] theorem State.dropWalks_recSeq (s : State) (v : Nat) : (s.dropWalks v).recSeq = s.recSeq := rfl
@[simp] theorem State.dropWalks_srcSeqs (s : State) (v : Nat) : (s.dropWalks v).srcSeqs = s.srcSeqs := rfl
@[simp] theorem State.dropWalks_stepWaits (s : State) (v : Nat) : (s.dropWalks v).stepWaits = s.stepWaits := rfl
@[simp] theorem State.dropWalks_readyN (s : State) (v : Nat) : (s.dropWalks v).readyN = s.readyN := rfl
@[simp] theorem State.dropWalks_aqric (s : State) (v : Nat) : (s.dropWalks v).aqric = s.aqric := rfl
@[simp] theorem State.dropWalks_remapped (s : State) (v : Nat) : (s.dropWalks v).remapped = s.remapped := rfl
@[simp] theorem State.dropWalks_podAms (s : State) (v : Nat) : (s.dropWalks v).podAms = s.podAms := rfl
@[simp] theorem State.dropWalks_eth (s : State) (v : Nat) : (s.dropWalks v).eth = s.eth := rfl
@[simp] theorem State.dropWalks_txFlows (s : State) (v : Nat) : (s.dropWalks v).txFlows = s.txFlows := rfl
@[simp] theorem State.dropWalks_rxFlows (s : State) (v : Nat) : (s.dropWalks v).rxFlows = s.rxFlows := rfl
@[simp] theorem State.dropWalks_operLog (s : State) (v : Nat) : (s.dropWalks v).operLog = s.operLog := rfl
@[simp] theorem State.dropWalks_hostLog (s : State) (v : Nat) : (s.dropWalks v).hostLog = s.hostLog := rfl
@[simp] theorem State.dropWalks_ethOut (s : State) (v : Nat) : (s.dropWalks v).ethOut = s.ethOut := rfl
@[simp] theorem State.dropWalks_remoteOut (s : State) (v : Nat) : (s.dropWalks v).remoteOut = s.remoteOut := rfl
@[simp] theorem State.dropWalks_handed (s : State) (v : Nat) : (s.dropWalks v).handed = s.handed := rfl
@[simp] theorem State.dropWalks_amIn (s : State) (v : Nat) : (s.dropWalks v).amIn = s.amIn := rfl
@[simp] theorem State.dropWalks_devAms (s : State) (v : Nat) : (s.dropWalks v).devAms = s.devAms := rfl
@[simp] theorem State.dropWalks_held (s : State) (v : Nat) : (s.dropWalks v).held = s.held := rfl
@[simp] theorem State.dropWalks_links (s : State) (v : Nat) : (s.dropWalks v).links = s.links := rfl
@[simp] theorem State.dropWalks_stalled (s : State) (v : Nat) : (s.dropWalks v).stalled = s.stalled := rfl
@[simp] theorem State.dropWalks_closings (s : State) (v : Nat) : (s.dropWalks v).closings = s.closings := rfl
@[simp] theorem State.dropWalks_agenda (s : State) (v : Nat) : (s.dropWalks v).agenda = s.agenda := rfl
@[simp] theorem State.dropWalks_subject (s : State) (v : Nat) : (s.dropWalks v).subject = s.subject := rfl
@[simp] theorem State.dropWalks_focus (s : State) (v : Nat) : (s.dropWalks v).focus = s.focus := rfl
@[simp] theorem State.dropWalks_fresh (s : State) (v : Nat) : (s.dropWalks v).fresh = s.fresh := rfl
@[simp] theorem State.dropWalks_nextId (s : State) (v : Nat) : (s.dropWalks v).nextId = s.nextId := rfl

/-! ## The parts of State that are read by name -/

@[simp] theorem State.elem_setElem_self (s : State) (n : Nat) (e : Element) : (s.setElem n e).elem n = e := by
  simp [State.setElem, State.elem]

theorem State.elem_setElem_ne (s : State) {n k : Nat} (e : Element) (h : k ≠ n) : (s.setElem n e).elem k = s.elem k := by
  simp [State.setElem, State.elem, NMap.find_put_ne _ _ h]

@[simp] theorem State.tile_setTile_self (s : State) (n : Nat) (t : Tile) : (s.setTile n t).tile n = t := by
  simp [State.setTile, State.tile]

theorem State.tile_setTile_ne (s : State) {n k : Nat} (t : Tile) (h : k ≠ n) : (s.setTile n t).tile k = s.tile k := by
  simp [State.setTile, State.tile, NMap.find_put_ne _ _ h]

@[simp] theorem State.vf_modVf_self (s : State) (v : Nat) (f : Vf → Vf) : (s.modVf v f).vf v = f (s.vf v) := by
  simp [State.modVf, State.vf]

theorem State.vf_modVf_ne (s : State) {v k : Nat} (f : Vf → Vf) (h : k ≠ v) : (s.modVf v f).vf k = s.vf k := by
  simp [State.modVf, State.vf, NMap.find_put_ne _ _ h]

theorem State.part_modPart_self (s : State) (p : Nat) (f : Partition → Partition) (h : p < s.parts.length) :
    (s.modPart p f).part p = f (s.part p) := nth_upd_self _ _ _ _ h

theorem State.part_modPart_ne (s : State) {p k : Nat} (f : Partition → Partition) (h : k ≠ p) :
    (s.modPart p f).part k = s.part k := nth_upd_ne _ _ _ h

theorem State.cluster_modCluster_self (s : State) (g : Nat) (f : Cluster → Cluster) (h : g < s.clusters.length) :
    (s.modCluster g f).cluster g = f (s.cluster g) := nth_upd_self _ _ _ _ h

theorem State.cluster_modCluster_ne (s : State) {g k : Nat} (f : Cluster → Cluster) (h : k ≠ g) :
    (s.modCluster g f).cluster k = s.cluster k := nth_upd_ne _ _ _ h

@[simp] theorem State.unit_modUnit_self (s : State) (u : Nat) (f : Unit_ → Unit_) :
    (s.modUnit u f).unit u = f (s.unit u) := by
  simp [State.modUnit, State.unit]

theorem State.unit_modUnit_ne (s : State) {u k : Nat} (f : Unit_ → Unit_) (h : k ≠ u) :
    (s.modUnit u f).unit k = s.unit k := by
  simp [State.modUnit, State.unit, NMap.find_put_ne _ _ h]

/-- What is read of the elements, tiles, VFs, partitions, clusters and units depends on their table alone. -/
theorem State.elem_congr {s t : State} (h : t.elems = s.elems) (n : Nat) : t.elem n = s.elem n := by
  simp [State.elem, h]

theorem State.tile_congr {s t : State} (h : t.tiles = s.tiles) (n : Nat) : t.tile n = s.tile n := by
  simp [State.tile, h]

theorem State.vf_congr {s t : State} (h : t.vfs = s.vfs) (n : Nat) : t.vf n = s.vf n := by
  simp [State.vf, h]

theorem State.part_congr {s t : State} (h : t.parts = s.parts) (n : Nat) : t.part n = s.part n := by
  simp [State.part, h]

theorem State.cluster_congr {s t : State} (h : t.clusters = s.clusters) (n : Nat) : t.cluster n = s.cluster n := by
  simp [State.cluster, h]

theorem State.unit_congr {s t : State} (h : t.units = s.units) (n : Nat) : t.unit n = s.unit n := by
  simp [State.unit, h]

end Sys2Proof.Machine
end

