-- ==== Sys2Proof/Laws/WriteBack.lean ====
section
/-! SUPPORT. What a write-back can do (R146, R236 to R239): the element it leaves, and the rest of the part. -/

namespace Sys2Proof.Machine

open Sys2Proof.Claims

/-! ## The end of a pacer log changes no element -/

/-- Two states with the same elements and the same firing in focus. -/
structure SameFocus (s t : State) : Prop where
  elems : t.elems = s.elems
  focus : t.focus = s.focus

theorem SameFocus.refl (s : State) : SameFocus s s := ⟨rfl, rfl⟩

theorem SameFocus.trans {s t u : State} (h : SameFocus s t) (k : SameFocus t u) : SameFocus s u :=
  ⟨k.elems.trans h.elems, k.focus.trans h.focus⟩

theorem writeHome_sameFocus (s : State) (bs : List (Nat × Byte)) : SameFocus s (s.writeHome bs) := by
  unfold State.writeHome
  split <;> exact ⟨rfl, rfl⟩

theorem starterWrite_sameFocus {s t : State} {v va : Nat} {bs : List (Nat × Byte)}
    (h : s.starterWrite v va bs = some t) : SameFocus s t := by
  unfold State.starterWrite at h
  split at h
  · cases h
  · unfold State.putAt at h
    split at h
    · cases h; exact writeHome_sameFocus _ _
    · split at h
      · cases h
      · cases h; exact ⟨rfl, rfl⟩
    · cases h

theorem starterWriteAll_sameFocus {s t : State} {v va : Nat} {bs : List Byte}
    (h : s.starterWriteAll v va bs = some t) : SameFocus s t := by
  unfold State.starterWriteAll at h
  have key : ∀ (l : List (Nat × Nat)) (a : Option State), (∀ x, a = some x → SameFocus s x) →
      ∀ x, l.foldl (fun acc g => match acc with
        | none => none
        | some s => s.starterWrite v g.1 (((bs.drop (g.1 - va)).take g.2).mapIdx (fun i b => (i, b)))) a = some x →
        SameFocus s x := by
    intro l
    induction l with
    | nil => intro a ha x hx; exact ha x hx
    | cons g l ih =>
      intro a ha x hx
      refine ih _ ?_ x hx
      intro y hy
      cases a with
      | none => cases hy
      | some z => exact (ha z rfl).trans (starterWrite_sameFocus hy)
  exact key _ _ (fun x hx => by cases hx; exact SameFocus.refl s) t h

theorem writeRecord_sameFocus (s : State) (p : Nat) (tr : Bool) (bs : List Byte) : SameFocus s (s.writeRecord p tr bs).2 := by
  unfold State.writeRecord
  dsimp only
  split
  · exact ⟨rfl, rfl⟩
  · split
    · exact ⟨rfl, rfl⟩
    · split
      · exact ⟨rfl, rfl⟩
      · rename_i t h
        exact (starterWriteAll_sameFocus h).trans ⟨rfl, rfl⟩

theorem rateCap_sameFocus (s : State) (p c : Nat) (e : ClassEntry) : SameFocus s (s.rateCap p c e).2 := by
  unfold State.rateCap
  dsimp only
  split <;> exact ⟨rfl, rfl⟩

theorem produceFor_sameFocus (s : State) (p c : Nat) (pol : List Byte) (ty tm : Nat) (q : Option Nat) (l : List Field) :
    SameFocus s (s.produceFor p c pol ty tm q l) := by
  have h := rateCap_sameFocus s p c (policyEntry pol c)
  have cap : ∀ t, SameFocus s t → ∀ r, SameFocus s (t.handOver r) := fun t k _ => k.trans ⟨rfl, rfl⟩
  unfold State.produceFor
  dsimp only
  generalize s.rateCap p c (policyEntry pol c) = r at h ⊢
  obtain ⟨b, u⟩ := r
  cases b <;> cases q <;> split <;> first | exact SameFocus.refl s | exact h | exact cap _ h _ | exact cap s (.refl s) _

theorem endLog_sameFocus (s : State) (eid : Nat) (l : PacerLog) (c : Nat) : SameFocus s (s.endLog eid l c) := by
  unfold State.endLog
  split
  · exact SameFocus.refl s
  · have h0 : ∀ f, SameFocus s (s.modTile (tileOf eid) f) := fun f => ⟨rfl, rfl⟩
    unfold State.endLogIn State.logRecord State.operate
    exact ((h0 _).trans (writeRecord_sameFocus _ _ _ _)).trans (produceFor_sameFocus _ _ _ _ _ _ _ _)

theorem endLogs_sameFocus (eid : Nat) (l : List (PacerLog × Nat)) (s : State) :
    SameFocus s (l.foldl (fun (s : State) (x : PacerLog × Nat) => s.endLog eid x.1 x.2) s) := by
  induction l generalizing s with
  | nil => exact SameFocus.refl s
  | cons x l ih => exact (endLog_sameFocus s eid x.1 x.2).trans (ih _)

/-! ## Counts of a tile -/

/-- Two states that differ in tiles' counters at most. -/
structure CountOnly (s t : State) : Prop where
  rest : t = { s with tiles := t.tiles }
  tiles : ∀ n, { t.tile n with counters := (s.tile n).counters } = s.tile n

theorem CountOnly.refl (s : State) : CountOnly s s := ⟨rfl, fun _ => rfl⟩

theorem CountOnly.trans {s t u : State} (h : CountOnly s t) (k : CountOnly t u) : CountOnly s u := by
  refine ⟨?_, fun n => ?_⟩
  · rw [k.rest, h.rest]
  · have h1 := h.tiles n
    have h2 := k.tiles n
    rw [← h1, ← h2]

theorem countTile_countOnly (s : State) (t g k n : Nat) : CountOnly s (s.countTile t g k n) := by
  unfold State.countTile
  split
  · exact CountOnly.refl s
  · refine ⟨rfl, fun m => ?_⟩
    by_cases h : m = t
    · subst h; simp only [State.modTile, State.tile_setTile_self, Tile.count]; split <;> rfl
    · simp [State.modTile, State.tile_setTile_ne _ _ h]

theorem countAll_countOnly (t : Nat) (l : List (Nat × Nat × Nat)) (s : State) :
    CountOnly s (l.foldl (fun (s : State) x => s.countTile t x.1 x.2.1 x.2.2) s) := by
  induction l generalizing s with
  | nil => exact CountOnly.refl s
  | cons x l ih => exact (countTile_countOnly s t _ _ _).trans (ih _)

theorem CountOnly.elems {s t : State} (h : CountOnly s t) : t.elems = s.elems := by rw [h.rest]
theorem CountOnly.focus {s t : State} (h : CountOnly s t) : t.focus = s.focus := by rw [h.rest]

/-! ## Delivery of a result -/

@[simp] theorem enqueue_v (e : Element) (q : Nat) (t : Token) : (e.enqueue q t).v = e.v := rfl
@[simp] theorem enqueue_a (e : Element) (q : Nat) (t : Token) : (e.enqueue q t).a = e.a := rfl
@[simp] theorem enqueue_p (e : Element) (q : Nat) (t : Token) : (e.enqueue q t).p = e.p := rfl
@[simp] theorem enqueue_flags (e : Element) (q : Nat) (t : Token) : (e.enqueue q t).flags = e.flags := rfl
@[simp] theorem enqueue_oq (e : Element) (q : Nat) (t : Token) :
    (e.enqueue q t).oq = upd e.oq q (· ++ [t]) := rfl

/-- A delivery leaves everything but the registers, the output queues and the counters. -/
theorem deliver_kept (e : Element) (d : Bool) (dst : Dst) (r : Result) (log : Option PacerLog) :
    { e.deliver d dst r log with v := e.v, a := e.a, oq := e.oq, counters := e.counters } = e := by
  unfold Element.deliver
  cases r with
  | none => rfl
  | some x =>
    cases dst <;> simp only [writeReg, Element.enqueue, Element.count] <;> (try split) <;> rfl

theorem deliver_v (e : Element) (d : Bool) (dst : Dst) (r : Result) (log : Option PacerLog) (n : Nat) :
    (e.deliver d dst r log).v[n]? = (e.v[n]?).map (fun x => vAfter dst r n x) := by
  unfold Element.deliver
  cases r with
  | none => cases e.v[n]? <;> cases dst <;> simp [vAfter]
  | some x =>
    cases dst with
    | v m => cases h : e.v[n]? <;> simp [writeReg, getElem?_upd, vAfter, h, eq_comm]
    | a m => cases h : e.v[n]? <;> simp only [writeReg] <;> split <;> simp [vAfter, h]
    | _ => cases h : e.v[n]? <;> simp [writeReg, vAfter, h]

theorem deliver_a (e : Element) (d : Bool) (dst : Dst) (r : Result) (log : Option PacerLog) (n : Nat) :
    (e.deliver d dst r log).a[n]? = (e.a[n]?).map (fun x => aAfter d dst r n x) := by
  unfold Element.deliver
  cases r with
  | none => cases e.a[n]? <;> cases dst <;> simp [aAfter]
  | some x =>
    cases dst with
    | a m => cases h : e.a[n]? <;> cases d <;> simp [writeReg, getElem?_upd, aAfter, h]
    | _ => cases h : e.a[n]? <;> simp [writeReg, aAfter, h]

theorem deliver_oq (e : Element) (d : Bool) (dst : Dst) (r : Result) (log : Option PacerLog) (n : Nat) :
    (e.deliver d dst r log).oq[n]? = (e.oq[n]?).map (fun x => qAfter dst r log n x) := by
  unfold Element.deliver
  cases r with
  | none => cases e.oq[n]? <;> cases dst <;> simp [qAfter]
  | some x =>
    cases dst with
    | o q => cases h : e.oq[n]? <;> simp [getElem?_upd, qAfter, h, eq_comm]
    | a m => cases h : e.oq[n]? <;> simp only [writeReg] <;> split <;> simp [qAfter, h]
    | _ => cases h : e.oq[n]? <;> simp [writeReg, qAfter, h]

theorem deliver_p (e : Element) (d : Bool) (dst : Dst) (r : Result) (log : Option PacerLog) :
    (e.deliver d dst r log).p = e.p := by
  have := congrArg Element.p (deliver_kept e d dst r log); exact this

theorem deliver_flags (e : Element) (d : Bool) (dst : Dst) (r : Result) (log : Option PacerLog) :
    (e.deliver d dst r log).flags = e.flags := by
  have := congrArg Element.flags (deliver_kept e d dst r log); exact this

/-! ## The write-back -/

/-- The results of an Out with their tags. -/
def Out.tagged (o : Out) (w : Slot) (fo : Focus) (e : Option Emit) : Result :=
  e.map (fun x => (x.lanes, resultTag w o.poison (fo.firing.ktTag w) x.tag))

def Out.second (o : Out) (w : Slot) (fo : Focus) : Result :=
  match o.res2 with
  | some r => o.tagged w fo r
  | none => o.tagged w fo o.res

/-- The effect that an Out stands for. -/
def Out.effect (o : Out) (w : Slot) (fo : Focus) : Effect :=
  { da := o.tagged w fo o.res, db := o.second w fo,
    tested := (match o.first with
      | some r => r
      | none => (o.tagged w fo o.res).map (·.1)),
    flags := o.flags, preds := o.preds, spill := o.spill, log := o.log }

/-- The element that a write-back without a fault leaves. -/
def Out.after (o : Out) (w : Slot) (fo : Focus) (e : Element) : Element :=
  let x := o.effect w fo
  let e := o.elem e
  let cont : Option PacerLog := match o.log with
    | some l => some l
    | none => fo.firing.logs.head?
  let e := e.deliver w.d w.da x.da (if w.da.isOut && x.da.isSome then cont else none)
  let e := e.deliver w.d w.db x.db (if (w.db.isOut && x.db.isSome) && !(w.da.isOut && x.da.isSome) then cont else none)
  let e := e.spilled o.spill (if (w.da.isOut && x.da.isSome) || (w.db.isOut && x.db.isSome) then none else cont)
  let e := if w.pm = .keep then e else { e with p := upd e.p w.pd.val (fun _ =>
    predValue w.pm w.d x.tested (fo.firing.deqd.head?.map (·.2.tag)) fo.firing.oldPd) }
  let e := { e with p := o.preds.foldl (fun (p : List Pred) (x : Nat × Pred) => upd p x.1 (fun _ => x.2)) e.p }
  e.setFlags o.flags

/-- The state once the element has its results. -/
def Out.wrote (o : Out) (s : State) (fo : Focus) (w : Slot) : State :=
  ({ s with focus := none }).setElem fo.eid (o.after w fo (s.elem fo.eid))

/-- The state once the tile has counted. -/
def Out.counted (o : Out) (s : State) (fo : Focus) (w : Slot) : State :=
  o.tile.foldl (fun (s : State) x => s.countTile (tileOf fo.eid) x.1 x.2.1 x.2.2) (o.wrote s fo w)

/-- What a write-back without a fault does: it leaves that element, counts in tiles, and ends pacer logs. -/
theorem complete_next (s : State) (fo : Focus) (w : Slot) (o : Out) (hf : fo.firing.fault = none)
    (ho : o.fault = none) (hp : poisonControl w (o.effect w fo).da (o.effect w fo).db = false) :
    s.complete fo w o = (endedLogs fo w (o.effect w fo) o.sink).foldl
      (fun (s : State) (x : PacerLog × Nat) => s.endLog fo.eid x.1 x.2) (o.counted s fo w) := by
  cases h2 : o.res2 <;>
  · simp only [Out.effect, Out.second, h2] at hp
    simp only [State.complete, hf, ho, h2]
    simp only [Out.tagged] at hp
    rw [if_neg (by simp [hp])]
    simp only [Out.counted, Out.wrote, Out.after, Out.effect, Out.second, Out.tagged, h2, endedLogs]
    cases o.log <;> rfl

theorem complete_sameFocus (s : State) (fo : Focus) (w : Slot) (o : Out) (hf : fo.firing.fault = none)
    (ho : o.fault = none) (hp : poisonControl w (o.effect w fo).da (o.effect w fo).db = false) :
    SameFocus (o.counted s fo w) (s.complete fo w o) := by
  rw [complete_next s fo w o hf ho hp]
  exact endLogs_sameFocus fo.eid _ _

theorem counted_countOnly (o : Out) (s : State) (fo : Focus) (w : Slot) :
    CountOnly (o.wrote s fo w) (o.counted s fo w) := countAll_countOnly _ _ _

/-- The element after a write-back without a fault. -/
theorem complete_elem (s : State) (fo : Focus) (w : Slot) (o : Out) (hf : fo.firing.fault = none)
    (ho : o.fault = none) (hp : poisonControl w (o.effect w fo).da (o.effect w fo).db = false) :
    (s.complete fo w o).elem fo.eid = o.after w fo (s.elem fo.eid) := by
  have h := complete_sameFocus s fo w o hf ho hp
  rw [State.elem_congr h.elems, State.elem_congr (counted_countOnly o s fo w).elems]
  simp [Out.wrote]

/-- The other elements after it. -/
theorem complete_others (s : State) (fo : Focus) (w : Slot) (o : Out) (hf : fo.firing.fault = none)
    (ho : o.fault = none) (hp : poisonControl w (o.effect w fo).da (o.effect w fo).db = false) :
    OthersKept s (s.complete fo w o) fo.eid := by
  intro n hn
  have h := complete_sameFocus s fo w o hf ho hp
  rw [State.elem_congr h.elems, State.elem_congr (counted_countOnly o s fo w).elems, Out.wrote,
    State.elem_setElem_ne _ _ hn]
  rfl

theorem spilled_oq (e : Element) (x : Option (Nat × Lanes × Tag)) (log : Option PacerLog) (n : Nat) :
    (e.spilled x log).oq[n]? = (e.oq[n]?).map (spillAfter x log n) := by
  cases x with
  | none => cases h : e.oq[n]? <;> simp [Element.spilled, spillAfter, h]
  | some y => cases h : e.oq[n]? <;> simp [Element.spilled, spillAfter, getElem?_upd, h, eq_comm]

theorem spilled_kept (e : Element) (x : Option (Nat × Lanes × Tag)) (log : Option PacerLog) :
    { e.spilled x log with oq := e.oq, counters := e.counters } = e := by cases x <;> rfl

theorem preds_at (l : List (Nat × Pred)) (p : List Pred) (n : Nat) :
    (l.foldl (fun (p : List Pred) (x : Nat × Pred) => upd p x.1 (fun _ => x.2)) p)[n]? =
      (p[n]?).map (predAfter l n) := by
  induction l generalizing p with
  | nil => cases h : p[n]? <;> simp [predAfter, h]
  | cons y l ih =>
    simp only [List.foldl_cons, ih, getElem?_upd]
    cases p[n]? <;> simp [predAfter]

/-- Registers, queues, flags and predicates after a write-back, on the element as the instruction has changed it. -/
theorem complete_wrote (s : State) (fo : Focus) (w : Slot) (o : Out)
    (hf : fo.firing.fault = none) (ho : o.fault = none)
    (hp : poisonControl w (o.effect w fo).da (o.effect w fo).db = false) :
    Wrote (o.elem (s.elem fo.eid)) (s.complete fo w o) fo w (o.effect w fo) := by
  have he := complete_elem s fo w o hf ho hp
  have hor : (match o.log with
      | some l => some l
      | none => fo.firing.logs.head?) = o.log.or fo.firing.logs.head? := by cases o.log <;> rfl
  have hB : ∀ n (x : List Token), qAfter w.db (o.effect w fo).db
      (if (w.db.isOut && (o.effect w fo).db.isSome) && !(w.da.isOut && (o.effect w fo).da.isSome) then
        o.log.or fo.firing.logs.head? else none) n x =
      qAfter w.db (o.effect w fo).db (logB fo w (o.effect w fo)) n x := by
    intro n x
    by_cases c : (w.db.isOut && (o.effect w fo).db.isSome) = true
    · simp only [c, Bool.true_and, logB]
      cases w.da.isOut && (o.effect w fo).da.isSome <;> rfl
    · unfold qAfter
      split
      · rename_i q y h1 h2
        rw [h1, h2] at c
        exact absurd rfl c
      · rfl
  have hk : ∀ (e : Element) (g : Option PacerLog),
      e.spilled o.spill g = { e with oq := (e.spilled o.spill g).oq, counters := (e.spilled o.spill g).counters } := by
    intro e g
    have h := spilled_kept e o.spill g
    generalize e.spilled o.spill g = z at h ⊢
    rw [← h]
  refine ⟨?_, ?_, ?_, ?_, ?_, ?_⟩
  · rw [(complete_sameFocus s fo w o hf ho hp).focus, (counted_countOnly o s fo w).focus]; rfl
  · intro n; rw [he]
    unfold Out.after
    simp only [Element.setFlags]
    rw [hk]
    split <;> simp [deliver_v, Function.comp_def]
  · intro n; rw [he]
    unfold Out.after
    simp only [Element.setFlags]
    rw [hk]
    split <;> simp [deliver_a, Function.comp_def]
  · intro n; rw [he]
    unfold Out.after
    simp only [Element.setFlags, hor]
    split <;> simp only [spilled_oq, deliver_oq, Option.map_map, Function.comp_def, hB, logA, logS] <;> rfl
  · rw [he]
    unfold Out.after
    simp only [Element.setFlags]
    rw [hk]
    split <;> simp [deliver_flags, Out.effect]
  · intro n; rw [he]
    unfold Out.after
    simp only [Element.setFlags]
    rw [hk, preds_at]
    split
    · rename_i h; cases hx : (o.elem (s.elem fo.eid)).p[n]? <;> simp [deliver_p, h, hx, Out.effect]
    · rename_i h
      simp only [deliver_p, getElem?_upd]
      cases (o.elem (s.elem fo.eid)).p[n]? <;> simp [h, Out.effect]

/-- Two elements that differ in registers, predicates, output queues, flags and counters at most. -/
def SameBut (e x : Element) : Prop :=
  { x with v := e.v, a := e.a, p := e.p, oq := e.oq, flags := e.flags, counters := e.counters } = e

theorem SameBut.trans {e x y : Element} (h : SameBut e x) (k : SameBut x y) : SameBut e y := by
  unfold SameBut at *
  rw [← k] at h
  exact h

theorem deliver_sameBut (e : Element) (d : Bool) (dst : Dst) (r : Result) (log : Option PacerLog) :
    SameBut e (e.deliver d dst r log) := by
  have h := deliver_kept e d dst r log
  have hp := deliver_p e d dst r log
  have hf := deliver_flags e d dst r log
  unfold SameBut
  generalize e.deliver d dst r log = x at *
  rw [← hp, ← hf]
  exact h

theorem spilled_sameBut (e : Element) (x : Option (Nat × Lanes × Tag)) (log : Option PacerLog) : SameBut e (e.spilled x log) := by
  cases x <;> rfl

/-- The rest of the element after it. -/
theorem complete_kept (s : State) (fo : Focus) (w : Slot) (o : Out) (hf : fo.firing.fault = none)
    (ho : o.fault = none) (hp : poisonControl w (o.effect w fo).da (o.effect w fo).db = false) : ElemKept (o.elem (s.elem fo.eid)) (s.complete fo w o) fo.eid := by
  show SameBut (o.elem (s.elem fo.eid)) ((s.complete fo w o).elem fo.eid)
  rw [complete_elem s fo w o hf ho hp]
  have chain : ∀ (r1 r2 : Result) (l1 l2 l3 : Option PacerLog), SameBut (o.elem (s.elem fo.eid))
      ((((o.elem (s.elem fo.eid)).deliver w.d w.da r1 l1).deliver w.d w.db r2 l2).spilled o.spill l3) := fun r1 r2 l1 l2 l3 =>
    (deliver_sameBut _ _ _ _ _).trans ((deliver_sameBut _ _ _ _ _).trans (spilled_sameBut _ _ _))
  unfold Out.after
  refine SameBut.trans (chain (o.effect w fo).da (o.effect w fo).db
    (if w.da.isOut && (o.effect w fo).da.isSome then (match o.log with
      | some l => some l
      | none => fo.firing.logs.head?) else none)
    (if (w.db.isOut && (o.effect w fo).db.isSome) && !(w.da.isOut && (o.effect w fo).da.isSome) then (match o.log with
      | some l => some l
      | none => fo.firing.logs.head?) else none)
    (if (w.da.isOut && (o.effect w fo).da.isSome) || (w.db.isOut && (o.effect w fo).db.isSome) then none else (match o.log with
      | some l => some l
      | none => fo.firing.logs.head?))) ?_
  by_cases hpm : w.pm = .keep
  · simp only [hpm, if_true, Element.setFlags]; rfl
  · simp only [hpm, if_false, Element.setFlags]; rfl

/-- The part outside the elements after it. -/
theorem complete_restIs (s : State) (fo : Focus) (w : Slot) (o : Out) (hf : fo.firing.fault = none)
    (ho : o.fault = none) (hp : poisonControl w (o.effect w fo).da (o.effect w fo).db = false) :
    RestIs s (s.complete fo w o) fo w (o.effect w fo) := by
  have h := counted_countOnly o s fo w
  refine ⟨o.counted s fo w, ⟨fun n => h.tiles n, ?_⟩, o.sink, complete_next s fo w o hf ho hp⟩
  rw [h.rest]
  rfl

/-- An instruction whose meaning ends in a write-back without a fault, on a state in which it has acted before. -/
theorem complete_gives {i : Instr} {s x : State} {fo : Focus} {w : Slot} {o : Out} {r : Effect}
    {change : Element → Element} {rest : State → Prop} (hi : exec i s = .next (x.complete fo w o))
    (hf : fo.firing.fault = none) (ho : o.fault = none) (hp : poisonControl w (o.effect w fo).da (o.effect w fo).db = false)
    (hr : o.effect w fo = r)
    (hc : o.elem (x.elem fo.eid) = change (s.elem fo.eid)) (hx : OthersKept s x fo.eid)
    (hrest : ∀ t, RestIs x t fo w r → rest t) : Gives i s fo w r change rest := by
  subst hr
  refine ⟨_, hi, ?_, ?_, ?_, hrest _ (complete_restIs x fo w o hf ho hp)⟩
  · rw [← hc]; exact complete_wrote x fo w o hf ho hp
  · rw [← hc]; exact complete_kept x fo w o hf ho hp
  · intro n hn
    rw [complete_others x fo w o hf ho hp n hn, hx n hn]

end Sys2Proof.Machine
end

