-- ==== Sys2Proof/Laws/Results.lean ====
section
/-! SUPPORT. From the Out of an instruction to what it gives: the lemmas that a statement about one instruction goes
through. -/

namespace Sys2Proof.Machine

open Sys2Proof.Claims

/-! ## Meanings over one shape of write-back -/

/-- An instruction that computes on its firing and element, from its Out (R146, R236 to R239). -/
theorem writeBack_gives {i : Instr} {s : State} {fo : Focus} {w : Slot} {g : Firing → Element → Out} {r : Effect}
    {change : Element → Element}
    (hr : Due s fo) (hi : exec i s = writeBack w g s) (ho : (g fo.firing (s.elem fo.eid)).effect w fo = r)
    (hf : (g fo.firing (s.elem fo.eid)).fault = none) (hp : poisonControl w r.da r.db = false)
    (h2 : (g fo.firing (s.elem fo.eid)).elem = change) : Gives i s fo w r change (fun t => RestIs s t fo w r) := by
  subst ho h2
  exact complete_gives (by rw [hi]; simp only [writeBack, hr.focus]) hr.clean hf hp rfl rfl
    (fun _ _ => rfl) (fun _ h => h)

/-! ## POISON -/

theorem fits_control {w : Slot} {tag : Tag} (h : TagFits w tag) (l m : Lanes) :
    poisonControl w (some (l, tag)) (some (m, tag)) = false := by
  by_cases ht : tag = tagPoison
  · obtain ⟨h1, h2, h3⟩ := h ht
    unfold PredMode.tests at h3
    unfold poisonControl
    cases hp : w.pm <;> simp_all
  · simp [poisonControl, ht]

theorem control_of_ne {w : Slot} {a b : Result} (ha : ∀ x, a = some x → x.2 ≠ tagPoison)
    (hb : ∀ x, b = some x → x.2 ≠ tagPoison) : poisonControl w a b = false := by
  unfold poisonControl
  cases a <;> cases b <;> simp_all

/-- Results that fit raise nothing. -/
theorem fits_ok {w : Slot} {r : Effect} (h : Fits w r) : poisonControl w r.da r.db = false := by
  obtain ⟨h1, h2⟩ := h
  unfold PredMode.tests at h1 h2
  unfold poisonControl
  cases ha : r.da with
  | none =>
    cases hb : r.db with
    | none => simp
    | some y =>
      have := h2 y hb
      by_cases hy : y.2 = tagPoison
      · have := this hy
        by_cases hn : w.da = .none <;> cases hp : w.pm <;> simp_all
      · simp [hy]
  | some x =>
    have hx := h1 x ha
    cases hb : r.db with
    | none =>
      by_cases hy : x.2 = tagPoison
      · have := hx hy
        cases hp : w.pm <;> simp_all
      · simp [hy]
    | some y =>
      have hz := h2 y hb
      by_cases hy : x.2 = tagPoison <;> by_cases hy' : y.2 = tagPoison
      all_goals
        by_cases hn : w.da = .none <;> cases hp : w.pm <;> simp_all

/-- A rule whose results carry their own tags holds where the Out is its effect. -/
theorem free_holds {i : Slot → Instr} {ok : Slot → State → Focus → Prop} {effect : Slot → State → Focus → Effect}
    {change : Slot → State → Focus → Element → Element} {w : Slot} {s : State} {fo : Focus} {g : Firing → Element → Out}
    (hr : Due s fo) (hpre : (freeRule i ok effect change).pre w s fo) (hi : exec (i w) s = writeBack w g s)
    (ho : (g fo.firing (s.elem fo.eid)).effect w fo = effect w s fo) (hf : (g fo.firing (s.elem fo.eid)).fault = none)
    (h2 : (g fo.firing (s.elem fo.eid)).elem = change w s fo) :
    Gives ((freeRule i ok effect change).instr w) s fo w ((freeRule i ok effect change).effect w s fo)
      ((freeRule i ok effect change).change w s fo) ((freeRule i ok effect change).rest w s fo ((freeRule i ok effect change).effect w s fo)) :=
  writeBack_gives hr hi ho hf (fits_ok hpre.2) h2

/-! ## Lane-wise and pair-wise instructions -/

theorem sourcesValid_eq (w : Slot) (f : Firing) (l : Nat) : f.valid w l = sourcesValid w f l := by
  unfold Firing.valid Firing.views sourcesValid
  by_cases ha : w.sa = .none <;> by_cases hb : w.sb = .none <;> by_cases hc : w.sc = .none <;>
    simp [ha, hb, hc, Bool.and_assoc]

theorem laneFlags_eq (w : Slot) (f : Firing) (g : Word → Word → Word → Word) :
    laneFlags w f g = perLaneFlags w f g := by
  unfold laneFlags perLaneFlags flagsOr
  rw [List.foldl_map]
  congr 1
  funext acc l
  rw [sourcesValid_eq]
  split <;> simp

theorem laneWise_eq (w : Slot) (f : Firing) (op : Word → Word → Word → Word) : laneWise w f op = perLane w f op := by
  simp only [laneWise, perLane, sourcesValid_eq]

theorem builtTag_eq (w : Slot) (fo : Focus) :
    resultTag w (fo.firing.poisoned w) (fo.firing.ktTag w) .built = builtTag w fo.firing := rfl

theorem laneOut_effect (w : Slot) (fo : Focus) (op fl : Word → Word → Word → Word) :
    (laneOut w fo.firing op fl).effect w fo =
      .one (some (perLane w fo.firing op, builtTag w fo.firing)) (perLaneFlags w fo.firing fl) := by
  simp only [Out.effect, laneOut, Out.second, Out.tagged, built, Effect.one, Option.map_some, laneFlags_eq,
    laneWise_eq, builtTag_eq]

theorem lane_gives {i : Instr} {s : State} {fo : Focus} {w : Slot} {op fl op' fl' : Word → Word → Word → Word}
    (hr : Due s fo) (ht : BuiltFits w fo) (hi : exec i s = writeBack w (fun f _ => laneOut w f op fl) s) (h : op' = op) (h' : fl' = fl) :
    Gives i s fo w (.one (some (perLane w fo.firing op', builtTag w fo.firing)) (perLaneFlags w fo.firing fl')) id
      (fun t => RestIs s t fo w
        (.one (some (perLane w fo.firing op', builtTag w fo.firing)) (perLaneFlags w fo.firing fl'))) := by
  subst h h'
  exact writeBack_gives hr hi (laneOut_effect w fo op' fl') rfl (fits_control ht _ _) rfl

/-- An instruction that builds one result from its sources. -/
theorem built_gives {i : Instr} {s : State} {fo : Focus} {w : Slot} {g : Firing → Element → Out} {l : Lanes}
    {fl : Word} (hr : Due s fo) (ht : BuiltFits w fo) (hi : exec i s = writeBack w g s)
    (ho : g fo.firing (s.elem fo.eid) = { res := built l, poison := fo.firing.poisoned w, flags := fl }) :
    Gives i s fo w (.one (some (l, builtTag w fo.firing)) fl) id (fun t => RestIs s t fo w (.one (some (l, builtTag w fo.firing)) fl)) := by
  refine writeBack_gives hr hi (r := .one (some (l, builtTag w fo.firing)) fl) ?_ ?_ (fits_control ht _ _) ?_ <;>
    rw [ho]
  rfl

/-! ## Rules -/

/-- The rule of a lane-wise instruction holds where its formulas are the model's. -/
theorem lane_holds {x : LaneRule} {w : Slot} {s : State} {fo : Focus} {op fl : Word → Word → Word → Word}
    (hr : Due s fo) (ht : x.rule.pre w s fo) (hi : exec (x.instr w) s = writeBack w (fun f _ => laneOut w f op fl) s)
    (h : x.op w = op) (h' : x.flags w = fl) :
    Gives (x.rule.instr w) s fo w (x.rule.effect w s fo) (x.rule.change w s fo) (x.rule.rest w s fo (x.rule.effect w s fo)) :=
  lane_gives hr ht hi h h'

theorem nth_map_range {α : Type} (g : Nat → α) (n k : Nat) (d : α) (h : k < n) : nth ((List.range n).map g) k d = g k := by
  simp [nth, h]

theorem lanesOf_congr {f g : Nat → Lane} (h : ∀ l, l < 16 → f l = g l) : lanesOf f = lanesOf g := by
  unfold lanesOf Lanes.ofFn
  simp [h]

theorem lanesOfElems_congr {d : Bool} {f g : Nat → Option Nat} (h : ∀ k, k < elemCount d → f k = g k) :
    lanesOfElems d f = lanesOfElems d g := by
  cases d
  · simp only [lanesOfElems, Bool.false_eq_true, if_false]
    exact lanesOf_congr (fun l hl => by rw [h l hl])
  · simp only [lanesOfElems, if_true]
    unfold lanesOfPairs
    exact lanesOf_congr (fun l hl => by beta_reduce; rw [h (l / 2) (by simp only [elemCount, if_true]; omega)])

theorem validElem_eq (w : Slot) (f : Firing) (k : Nat) : f.validElem w k = elemPresent w f k := by
  simp only [Firing.validElem, Firing.validPair, elemPresent, sourcesValid_eq]

theorem elem_holds {i : Slot → Instr} {op op' : Slot → Nat → Nat → Nat → Nat × Word} {w : Slot} {s : State} {fo : Focus}
    (hr : Due s fo) (ht : BuiltFits w fo) (hi : exec (i w) s = writeBack w (fun f _ => floatOut w f (op w)) s)
    (h : op' w = op w) :
    Gives ((elemRule i op').instr w) s fo w ((elemRule i op').effect w s fo) ((elemRule i op').change w s fo)
      ((elemRule i op').rest w s fo ((elemRule i op').effect w s fo)) := by
  refine built_gives hr ht hi ?_
  simp only [floatOut, h]
  congr 1
  · congr 1
    refine lanesOfElems_congr (fun k hk => ?_)
    rw [nth_map_range _ _ _ _ hk, validElem_eq]
    split <;> rfl
  · unfold flagsOr
    rw [List.map_map, List.foldl_map]
    congr 1
    funext acc k
    rw [Function.comp_apply, validElem_eq]
    by_cases hk : elemPresent w fo.firing k = true <;> simp [hk]

end Sys2Proof.Machine
end

