-- ==== Sys2Proof/Tests/Slice0.lean ====
section
/-! SUPPORT. The model's own tests: words of the spec's encodings decoded, ill-formed terms refused, single steps with results taken
from the spec, and states that meet the hypotheses of each statement. -/

-- One declaration after another: in parallel the many tests take too much memory.
set_option Elab.async false

namespace Sys2Proof.Tests

open Sys2Proof.Machine Sys2Proof.Claims

/-! ## Small states -/

/-- A word with no operand, result or condition. -/
def slot0 : Slot :=
  { pri := 0, condT := 0, condF := 0, test0 := none, test1 := none, da := .none, db := .none, otag := 0, deq := 0,
    sa := .none, sb := .none, sc := .none, pd := 0, pm := .keep, rnd := 0, d := false, kt := false, sat := false,
    ack := false, x := false, imm := 0 }

/-- A view of lanes that no queue gave, and of a head with a tag. -/
def plain (l : List Word) : View := ⟨lanesOfList l, none⟩
def tagged (l : List Word) (t : Tag) : View := ⟨lanesOfList l, some t⟩

def firing0 : Firing :=
  { seq := 0, slot := 0, word := 0, a := plain [0], b := plain [0], c := plain [0], deqd := [], oldPd := .no, entry := none,
    extra := [], moved := none, fault := none, remaining := 0 }

/-- An element of each type in tile 0. -/
def pe : Nat := eidAt 0 1 0
def se : Nat := eidAt 0 2 0
def ag : Nat := eidAt 0 0 0

def inst0 : Inst :=
  { launch := 5, task := 0, num := 0, vf := 0, part := 0, cluster := 0, row0 := 0, col0 := 0, w := 1, h := 1, phase := .run,
    level := 0, held := [3], feed := [], commitTime := 0, yielded := false, minresTaken := false, gen := 0, baton := none,
    leasePort := none, hash := 0, ctx := none, again := false, stop := .none, boundary := false, waiting := none,
    holdDone := false, faulted := false, releaseAsked := false, releasing := false, finInjected := false, waveLeft := [],
    alloc := none, bucket := 0, watchdog := 0, fired := false, leaseBuf := [], ended := [], tdones := [], faults := [],
    policy := [] }

def task0 : Task := { va := 0, gw := { ttCount := 4, leaseOk := true }, nextIdx := 4, status := .running }

def launch0 : Launch :=
  { vf := 0, part := 0, root := 0, override := none, urgentOk := false, autorelease := false, seq := 0, since := 0, order := 0, walked := true,
    stopped := false, tasks := [task0] }

/-- An element of instance 7. -/
def elem0 : Element := { Element.reset with state := .run, inst := some 7 }

/-- The firmware runs; VF 0 of partition 0, cluster 0 and HBM unit 0, launch 5 with one task, and its instance 7 in tile 0. -/
def st : State :=
  { State.reset with
    boot := .running none, vfs := [(0, { Vf.reset 0 with en := true })], units := [(0, { owner := 0 })],
    clusters := State.reset.clusters.set 0 { Cluster.reset with part := 0 }, launches := [(5, launch0)], insts := [(7, inst0)],
    elems := [(ag, elem0), (pe, elem0), (se, elem0)], nextId := 8 }

/-- A firing of an element of a state stands in focus. -/
def inFocus (s : State) (eid : Nat) (f : Firing) : State := { s with focus := some ⟨eid, f⟩ }

theorem due_inFocus {s : State} {eid : Nat} {f : Firing} (h : f.fault = none) : Due (inFocus s eid f) ⟨eid, f⟩ := ⟨rfl, h⟩

theorem fits_none {w : Slot} (ha : w.da = .none) (hb : w.db = .none) (hp : w.pm = .keep) (r : Effect) : Fits w r := by
  unfold Fits
  rw [ha, hb, hp]
  exact ⟨fun _ _ _ => ⟨rfl, rfl⟩, fun _ _ _ => ⟨rfl, fun _ => rfl⟩⟩

/-- Some word, state and firing meet a rule of a firing. -/
def Met (r : SlotRule) : Prop := ∃ w s fo, Due s fo ∧ r.pre w s fo

/-- The word, the element and its state, and the firing that meet a free rule, with what is left to show. -/
theorem met_free {i : Slot → Instr} {ok : Slot → State → Focus → Prop} {e : Slot → State → Focus → Effect}
    {c : Slot → State → Focus → Element → Element} {r : Slot → State → Focus → Effect → State → Prop} (w : Slot) (s : State) (eid : Nat)
    (f : Firing) (h : ok w (inFocus s eid f) ⟨eid, f⟩) (hf : f.fault = none := by rfl) (ha : w.da = .none := by rfl)
    (hb : w.db = .none := by rfl) (hp : w.pm = .keep := by rfl) : Met (freeRule i ok e c r) :=
  ⟨w, inFocus s eid f, ⟨eid, f⟩, due_inFocus hf, h, fits_none ha hb hp _⟩

theorem met_built {i : Slot → Instr} {l : Slot → State → Focus → Lanes} {fl : Slot → State → Focus → Word} : Met (builtRule i l fl) :=
  ⟨slot0, inFocus st pe firing0, ⟨pe, firing0⟩, due_inFocus rfl, fun _ => ⟨rfl, rfl, rfl⟩⟩

/-! ## Hypotheses that are met: firings -/

theorem met_integerLanes : ∀ r ∈ integerRules.map LaneRule.rule, Met r := fun r hr => by
  obtain ⟨x, _, rfl⟩ := List.mem_map.mp hr
  exact met_built (i := x.instr) (l := fun w _ fo => perLane w fo.firing (x.op w)) (fl := fun w _ fo => perLaneFlags w fo.firing (x.flags w))

theorem met_integerPairs : ∀ r ∈ pairRules, Met r := fun r hr => by
  obtain ⟨x, _, rfl⟩ := List.mem_map.mp hr
  exact met_built

/-- AADD.wrap at the least modulus that is allowed. -/
theorem met_integerScalars : ∀ r ∈ scalarRules, Met r := by
  simp only [scalarRules, List.forall_mem_cons, List.not_mem_nil, false_implies, implies_true, and_true]
  refine ⟨⟨slot0, inFocus st pe firing0, ⟨pe, firing0⟩, due_inFocus rfl, trivial⟩, met_built, met_built, ?_⟩
  refine ⟨{ slot0 with x := true }, inFocus st pe { firing0 with c := plain [1] }, ⟨pe, { firing0 with c := plain [1] }⟩,
    due_inFocus rfl, ⟨fun _ => ⟨rfl, rfl, rfl⟩, ?_⟩⟩
  decide

theorem met_floatArith : ∀ r ∈ floatArithRules, Met r := by
  simp only [floatArithRules, List.forall_mem_cons, List.not_mem_nil, false_implies, implies_true, and_true]
  and_intros <;> exact met_built

theorem met_floatSelect : ∀ r ∈ floatSelectRules, Met r := by
  simp only [floatSelectRules, List.forall_mem_cons, List.not_mem_nil, false_implies, implies_true, and_true]
  and_intros <;> exact met_built

theorem met_fclass : Met (elemRule .fclass (fun w a _ _ => (2 ^ classBit w a, 0))) := met_built

theorem met_specials : ∀ r ∈ specialRules, Met r := by
  simp only [specialRules, List.forall_mem_cons, List.not_mem_nil, false_implies, implies_true, and_true]
  and_intros <;> exact met_built

/-- A NaN, the infinities, and the arguments of R287's cases: 1, 1/2, 128, and the least number, whose value lies near a line. -/
theorem met_specialValues : fmtS.unpack 0x7FC00001 = .nan false ∧ (∀ n, fmtS.unpack (if n = true then 0xFF800000 else 0x7F800000) = .inf n) ∧
    (∀ neg, fmtS.unpack (if neg = true then 0xBF800000 else 0x3F800000) = .num neg (2 ^ 23) (-23)) ∧
    fmtS.unpack 0x3F000000 = .num false (2 ^ 23) (-24) ∧ fmtS.unpack 0x43000000 = .num false (2 ^ 23) (-16) ∧
    (2 ^ 23 : ℚ) * 2 ^ (-23 : Int) = (1 : Nat) ∧ (2 ^ 23 : ℚ) * 2 ^ (-24 : Int) = (0 : Nat) + 1 / 2 ∧ (2 ^ 23 : ℚ) * 2 ^ (-16 : Int) = (128 : Nat) ∧
    ∃ neg lo hi, SpecialFn.tanh.of 1 = .near neg lo hi := by
  refine ⟨by decide +kernel, fun n => by cases n <;> decide +kernel, fun n => by cases n <;> decide +kernel, by decide +kernel,
    by decide +kernel, by norm_num, by norm_num, by norm_num, ?_⟩
  have h : (match SpecialFn.tanh.of 1 with
      | .near _ _ _ => true
      | _ => false) = true := by decide +kernel
  split at h
  · next n lo hi e => exact ⟨n, lo, hi, e⟩
  · cases h

/-- LSHUP by 16, the most that it takes. -/
theorem met_laneMoves : ∀ r ∈ laneMoveRules, Met r := by
  simp only [laneMoveRules, List.forall_mem_cons, List.not_mem_nil, false_implies, implies_true, and_true]
  refine ⟨?_, ?_, ?_, ?_, ?_, ?_, ?_, ⟨slot0, inFocus st pe { firing0 with b := plain [16] }, ⟨pe, { firing0 with b := plain [16] }⟩,
    due_inFocus rfl, fun _ => ⟨rfl, rfl, rfl⟩, ?_⟩, ?_, ?_⟩
  all_goals first | exact met_built | skip
  intro n hn
  have h : laneAt (plain [16]).lanes 0 = some 16 := by decide
  have e : some (16 : Word) = some n := h.symm.trans hn
  cases e
  decide

theorem met_conversions : ∀ r ∈ convertRules, Met r := by
  simp only [convertRules, List.forall_mem_cons, List.not_mem_nil, false_implies, implies_true, and_true]
  and_intros
  all_goals first
    | exact met_built
    | exact ⟨slot0, inFocus st pe firing0, ⟨pe, firing0⟩, due_inFocus rfl, fun _ => ⟨rfl, rfl, rfl⟩⟩

theorem met_reductions : ∀ r ∈ reductionRules, Met r := by
  simp only [reductionRules, reduceRule, List.forall_mem_cons, List.not_mem_nil, false_implies, implies_true, and_true]
  and_intros
  all_goals first
    | exact met_built
    | exact ⟨slot0, inFocus st pe firing0, ⟨pe, firing0⟩, due_inFocus rfl, fun _ => ⟨rfl, rfl, rfl⟩⟩

theorem met_accumulators : ∀ r ∈ accRules, Met r := by
  simp only [accRules, List.forall_mem_cons, List.not_mem_nil, false_implies, implies_true, and_true]
  exact ⟨met_free slot0 st pe firing0 trivial, met_free slot0 st pe firing0 rfl, met_free slot0 st pe firing0 rfl⟩

/-- The first and the last index of XSEND and XMERGE, with the least and the greatest tag of token 0. -/
theorem met_pieces : Met (sendRule 0) ∧ Met (sendRule 5) ∧ Met (mergeRule 0) ∧ Met (mergeRule 5) := by
  refine ⟨met_free slot0 st pe firing0 ⟨rfl, by decide⟩, met_free slot0 st pe { firing0 with b := plain [5] } ⟨rfl, by decide⟩,
    met_free slot0 st pe { firing0 with a := tagged [] 4 } ⟨rfl, ⟨rfl, by decide⟩, ?_⟩,
    met_free slot0 st pe { firing0 with a := tagged [] 0, b := plain [5] } ⟨rfl, ⟨rfl, by decide⟩, ?_⟩⟩
  all_goals decide

theorem met_accumulatorReads : ∀ r ∈ accReadRules, Met r := by
  simp only [accReadRules, List.forall_mem_cons, List.not_mem_nil, false_implies, implies_true, and_true]
  exact ⟨met_free slot0 st pe firing0 rfl, met_free slot0 st pe firing0 rfl⟩

theorem noPoison (v : View) (h : v.tag ≠ some tagPoison) : ∀ u ∈ [v], u.tag ≠ some tagPoison := fun u hu => by
  rw [List.mem_singleton.mp hu]
  exact h

theorem met_passing : ∀ r ∈ passRules, Met r := by
  simp only [passRules, List.forall_mem_cons, List.not_mem_nil, false_implies, implies_true, and_true]
  have h : ∀ u ∈ [plain [0]], u.tag ≠ some tagPoison := noPoison _ (by decide)
  exact ⟨met_free slot0 st pe firing0 trivial, met_free slot0 st pe firing0 h,
    met_free slot0 st pe firing0 ⟨h, fun x => by cases x.2⟩, met_free slot0 st pe firing0 h, met_free slot0 st pe firing0 h,
    met_free slot0 st pe firing0 (fun _ => rfl)⟩

theorem met_joins : ∀ r ∈ [joinRule .isect false, joinRule .union true], Met r := by
  simp only [List.forall_mem_cons, List.not_mem_nil, false_implies, implies_true, and_true]
  exact ⟨met_free slot0 st pe firing0 ⟨fun _ h => (by cases h), fun _ h => (by cases h)⟩,
    met_free slot0 st pe firing0 ⟨fun _ h => (by cases h), fun _ h => (by cases h)⟩⟩

theorem met_tags : ∀ r ∈ tagRules, Met r := by
  simp only [tagRules, List.forall_mem_cons, List.not_mem_nil, false_implies, implies_true, and_true]
  have h : ∀ u ∈ [plain [0], plain [0]], u.tag ≠ some tagPoison := by decide
  exact ⟨met_free slot0 st pe firing0 trivial, met_free slot0 st pe firing0 trivial, met_free slot0 st pe firing0 h,
    met_free slot0 st pe firing0 h⟩

theorem met_shapes : ∀ r ∈ shapeRules, Met r := by
  simp only [shapeRules, List.forall_mem_cons, List.not_mem_nil, false_implies, implies_true, and_true]
  have h : ∀ u ∈ [plain [0]], u.tag ≠ some tagPoison := noPoison _ (by decide)
  exact ⟨met_free slot0 st pe firing0 trivial, met_free slot0 st pe firing0 h, met_free slot0 st pe firing0 h,
    met_free slot0 st pe firing0 (fun _ h => (by cases h))⟩

/-- The last word of the SRAM. -/
def topWord : Firing := { firing0 with a := plain [0x7FFFFC] }

theorem met_scratchpad : ∀ r ∈ sramRules, Met r := by
  simp only [sramRules, List.forall_mem_cons, List.not_mem_nil, false_implies, implies_true, and_true]
  refine ⟨met_free slot0 st se topWord ⟨?_, ?_⟩, met_free slot0 st se topWord ⟨?_, ?_⟩, met_free slot0 st se topWord ⟨?_, ?_⟩,
    met_free slot0 st se topWord ⟨?_, ?_⟩, met_free slot0 st se topWord ⟨?_, ?_⟩, met_free slot0 st se topWord ⟨?_, ?_⟩,
    met_free slot0 st se topWord ⟨?_, fun _ h => nomatch h⟩⟩
  all_goals decide

/-- The SE with a lap buffer of four slots of two granules, and a hash table. -/
def seSet : State :=
  st.modElem se (fun e => { e with bank := { e.bank with lapCfg := [0x8000000004020000], hashCfg := [0x800000FC40000000] } })

theorem met_hash : ∀ r ∈ hashRules, Met r := by
  simp only [hashRules, List.forall_mem_cons, List.not_mem_nil, false_implies, implies_true, and_true]
  exact ⟨met_free slot0 seSet se firing0 (by decide : (((inFocus seSet se firing0).elem se).hashCfg slot0).v = true),
    met_free slot0 seSet se firing0 (by decide : (((inFocus seSet se firing0).elem se).hashCfg slot0).v = true)⟩

/-- OFF at the last granule of a slot. -/
theorem met_lap : ∀ r ∈ lapRules, Met r := by
  simp only [lapRules, List.forall_mem_cons, List.not_mem_nil, false_implies, implies_true, and_true]
  exact ⟨met_free { slot0 with imm := 1 } seSet se firing0 ⟨by decide, by decide⟩,
    met_free { slot0 with imm := 1 } seSet se firing0 ⟨by decide, by decide⟩, met_free slot0 seSet se firing0 (by decide)⟩

/-! ## Hypotheses that are met: accesses -/

/-- An AG whose stream 0 is an INDEX stream, stream 1 a STORE and stream 2 an EGRESS stream. -/
def agSet : State :=
  let cfg (kind : Nat) : Stream :=
    { regs := { v := true, kind, fmt := 0, stride := [1, 0, 0, 0, 0] }, cfg := { v := true, kind, fmt := 0, stride := [1, 0, 0, 0, 0] },
      mode := .ready }
  st.modElem ag (fun e => { e with streams := [cfg 4, cfg 1, cfg 5, { }] })

theorem mayIssue {s : State} {eid : Nat} {f : Firing} (h : (s.elem eid).inst = some 7) (ha : s.accs = []) :
    MayIssue (inFocus s eid f) ⟨eid, f⟩ := by
  refine ⟨⟨7, h⟩, fun a m => ?_⟩
  have e : (inFocus s eid f).accs = [] := ha
  rw [e] at m
  exact nomatch m

theorem ag_page (k : Nat) : ((agSet.elem ag).stream k).page = none := by
  rcases k with _ | _ | _ | _ | k <;> rfl

theorem translates_none (f : Firing) (i : Issue) (h : ∀ x ∈ i.accs, x.1 < 2 ^ 49) : Translates (inFocus agSet ag f) ⟨ag, f⟩ i :=
  fun x hx => ⟨h x hx, fun _ hp => absurd (hp.symm.trans (ag_page i.port)) (by simp)⟩

/-- What meets the rule of an AG instruction that issues nothing out of reach: no page of its stream is known yet. -/
theorem met_issue {i : Slot → Instr} {ok : Slot → State → Focus → Prop} {what : Slot → State → Focus → Issue}
    {put : Slot → State → Focus → Put} {change : Slot → State → Focus → Element → Element} (w : Slot) (f : Firing)
    (h : ok w (inFocus agSet ag f) ⟨ag, f⟩)
    (ht : ∀ x ∈ (what w (inFocus agSet ag f) ⟨ag, f⟩).accs, x.1 < 2 ^ 49) (hf : f.fault = none := by rfl) :
    Met (issueRule i ok what put change) := by
  exact ⟨w, inFocus agSet ag f, ⟨ag, f⟩, due_inFocus hf, mayIssue (by decide) rfl, h, fun _ => translates_none f _ ht⟩

/-- Two lanes of indices and data. -/
def lanesUp : Firing := { firing0 with a := plain [0, 0x7FFFFFFF], b := plain [1, 2] }

theorem met_index : ∀ r ∈ indexRules, Met r := by
  simp only [indexRules, List.forall_mem_cons, List.not_mem_nil, false_implies, implies_true, and_true]
  refine ⟨met_issue slot0 lanesUp ⟨⟨rfl, rfl, by decide⟩, ?_⟩ ?_, met_issue slot0 lanesUp ⟨⟨rfl, rfl, by decide⟩, ?_⟩ ?_,
    met_issue slot0 lanesUp ⟨⟨rfl, rfl, by decide⟩, ?_⟩ ?_, met_issue slot0 lanesUp ⟨⟨rfl, rfl, by decide⟩, ?_⟩ ?_,
    met_issue slot0 lanesUp ⟨⟨rfl, rfl, by decide⟩, ?_⟩ ?_, met_issue slot0 lanesUp ⟨⟨rfl, rfl, by decide⟩, ?_⟩ ?_⟩
  all_goals decide +kernel

/-- Another tile of the partition, at the last word of its SRAM. -/
def elsewhere : Firing := { firing0 with a := plain [1, 0x7FFFFC], b := plain [9] }

theorem met_remote : ∀ r ∈ remoteRules, Met r := by
  simp only [remoteRules, List.forall_mem_cons, List.not_mem_nil, false_implies, implies_true, and_true]
  have h : RemoteOk slot0 (inFocus st se elsewhere) ⟨se, elsewhere⟩ := by
    refine ⟨by decide, fun x hx => ?_⟩
    have e : remotePlace slot0 elsewhere = some (1, 0x7FFFFC) := by decide
    cases e.symm.trans hx
    decide
  exact ⟨⟨slot0, inFocus st se elsewhere, ⟨se, elsewhere⟩, due_inFocus rfl, mayIssue (by decide) rfl, h, fun x => (by cases x)⟩,
    ⟨slot0, inFocus st se elsewhere, ⟨se, elsewhere⟩, due_inFocus rfl, mayIssue (by decide) rfl, h, fun x => (by cases x)⟩⟩

theorem met_fences : ∀ r ∈ [fenceRule .fences, fenceRule .fenceg], Met r := by
  simp only [List.forall_mem_cons, List.not_mem_nil, false_implies, implies_true, and_true]
  exact ⟨met_free slot0 st se { firing0 with entry := some 6 } ⟨by decide, rfl⟩,
    met_free slot0 st ag { firing0 with entry := some 6 } ⟨by decide, rfl⟩⟩

/-- A copy of the greatest length, and one to a slot of a lap buffer. -/
theorem met_copy : Met copyRule :=
  met_free slot0 st se { firing0 with a := plain [0, 0, 0, 0x800000] } ⟨by decide, by decide, fun h => (by cases h)⟩

theorem met_copySlot : Met copyRule :=
  met_free { slot0 with rnd := 2 } seSet se { firing0 with a := plain [0, 0, 0, 0] } ⟨by decide, by decide, fun _ => by decide⟩

theorem met_moved : ∀ r ∈ [movedRule .patld, movedRule .planeld, movedRule .wld], Met r := by
  simp only [List.forall_mem_cons, List.not_mem_nil, false_implies, implies_true, and_true]
  refine ⟨?_, ?_, ?_⟩ <;>
    exact met_free slot0 st ag { firing0 with moved := some ⟨⟨Lanes.all 0, 0, none⟩, none, { }, 0⟩ } ⟨_, rfl, rfl⟩

/-- PATSET of the seed and the set-up. -/
theorem met_set : ∀ r ∈ setRules, Met r := by
  simp only [setRules, List.forall_mem_cons, List.not_mem_nil, false_implies, implies_true, and_true]
  exact ⟨met_free { slot0 with imm := 0x13 } agSet ag firing0
      ⟨by decide, by decide, { v := true, kind := 4, stride := [1, 0, 0, 0, 0] }, by decide +kernel, fun _ => by decide +kernel⟩,
    met_free slot0 st ag firing0 trivial⟩

theorem bandIs_flat {w : Slot} {s : State} {fo : Focus} (h : isBlock (streamOf w s fo).cfg.fmt = false) : BandIs w s fo 0 := by
  unfold BandIs
  simp [h]

theorem bandIs_block {w : Slot} {s : State} {fo : Focus} {band : Nat} (bs : List Byte) (bad : Bool)
    (h : isBlock (streamOf w s fo).cfg.fmt = true)
    (hr : s.readNow fo.eid (agStream w) ((streamOf w s fo).cfg.bandAddr ((streamOf w s fo).cfg.tok (streamOf w s fo).pos).ix) 2 =
      (.ok (bs, bad), s)) (hb : leNat bs = band ∧ bandOk band = true) : BandIs w s fo band := by
  unfold BandIs
  simp only [h, if_true]
  exact ⟨bs, bad, hr, hb⟩

/-- PATST on the STORE stream, without a band scale. -/
theorem met_patst : Met (patRule 0) :=
  ⟨{ slot0 with imm := 0x10000000 }, inFocus agSet ag firing0, ⟨ag, firing0⟩, due_inFocus rfl, mayIssue (by decide) rfl,
    ⟨⟨by decide +kernel, by decide +kernel, by decide +kernel⟩, by decide +kernel, bandIs_flat (by decide +kernel),
      by decide +kernel⟩,
    fun _ => translates_none _ _ (by decide +kernel)⟩

/-- A token that fills the payload of a frame to its greatest length. -/
theorem met_egress : Met egressRule := by
  exact met_free { slot0 with imm := 0x20000000 } (agSet.modElem ag (fun e => { e with streams := upd e.streams 2 (fun t =>
    { t with egress := { t.egress with payload := List.replicate 9084 0 } }) })) ag firing0
    ⟨⟨by decide +kernel, by decide +kernel, by decide +kernel⟩, by decide +kernel, by decide, by decide, by decide +kernel⟩

/-- The page of 1 GiB at 0 with every right, as a leaf of partition 0 (R160). -/
def page0 : PageEntry := ⟨0, 2 ^ 30, 0x27F⟩

/-- The AG whose STORE stream has a block format and whose EGRESS stream sends at 0, both with a translation entry. -/
def agPaged : State :=
  agSet.modElem ag (fun e => { e with streams := e.streams.map (fun t =>
    { t with page := some page0, cfg := { t.cfg with fmt := if t.cfg.kind = 1 then 11 else 0, ext := [16, 1, 1, 1, 1] } }) })

/-- END with no payload: the frame of a template of zeros goes out. -/
theorem met_egressEnd : Met (egressEndRule (List.replicate 64 0)) :=
  met_free { slot0 with imm := 0x20000000 } agPaged ag { firing0 with a := tagged [] tagEnd }
    ⟨⟨by decide +kernel, by decide +kernel, by decide +kernel⟩, by decide +kernel, by decide, by decide +kernel, by decide +kernel,
      by decide +kernel, false, by decide +kernel⟩

/-- PATST of a block format with the band scale 1.0: its page lets every access go on. -/
theorem met_patstBlock : Met (patRule 0x3F80) := by
  let s : State := { agPaged with hbm := [(0, 0x80), (1, 0x3F)] }
  let w : Slot := { slot0 with imm := 0x10000000 }
  let f : Firing := { firing0 with a := ⟨Lanes.all 0x3F800000, none⟩ }
  refine ⟨w, inFocus s ag f, ⟨ag, f⟩, due_inFocus rfl, mayIssue (by decide) rfl, ⟨⟨by decide +kernel, by decide +kernel, by decide +kernel⟩,
    by decide +kernel, ?_, by decide +kernel⟩, fun _ x hx => ⟨?_, fun p hp h1 h2 => ?_⟩⟩
  · exact bandIs_block [0x80, 0x3F] false (by decide +kernel) (by decide +kernel) (by decide +kernel)
  · revert x
    decide +kernel
  · have e : p = page0 := Option.some.inj (hp.symm.trans (by decide +kernel))
    subst e
    have h : ∀ x ∈ (patPut (streamOf w (inFocus s ag f) ⟨ag, f⟩).cfg (streamOf w (inFocus s ag f) ⟨ag, f⟩)
        ((streamOf w (inFocus s ag f) ⟨ag, f⟩).cfg.tok (streamOf w (inFocus s ag f) ⟨ag, f⟩).pos) f.a.lanes 0x3F80 false).2,
        (inFocus s ag f).checkLeaf 0 page0 x.1 x.2.want false = .ok (.hbm x.1) := by decide +kernel
    exact ⟨_, h x hx, fun _ e => nomatch e⟩

/-! ## Hypotheses that are met: matrix, system and faults -/

def me : Nat := eidAt 0 1 8

/-- The matrix element before its first exponent token, and before its last weight token. -/
theorem met_matrix : ∀ r ∈ matrixRules, Met r := by
  simp only [matrixRules, List.forall_mem_cons, List.not_mem_nil, false_implies, implies_true, and_true]
  exact ⟨met_free slot0 st me firing0 trivial,
    met_free slot0 st me { firing0 with a := tagged [0] 1 } ⟨rfl, by decide, by decide⟩,
    met_free slot0 st me { firing0 with a := tagged [0] 1 } ⟨rfl, by decide, fun _ => by decide⟩,
    met_free slot0 st me { firing0 with a := tagged [0] 0 } ⟨rfl, by decide⟩,
    met_free slot0 st me firing0 trivial, met_free slot0 st me firing0 trivial⟩

theorem met_drain : ∀ r ∈ drainRules, Met r := by
  simp only [drainRules, List.forall_mem_cons, List.not_mem_nil, false_implies, implies_true, and_true]
  exact ⟨⟨slot0, inFocus st me firing0, ⟨me, firing0⟩, due_inFocus rfl, rfl, fits_none rfl rfl rfl _⟩,
    ⟨slot0, inFocus st me firing0, ⟨me, firing0⟩, due_inFocus rfl, rfl, fits_none rfl rfl rfl _⟩⟩

/-- A request at the highest point, HARD. -/
theorem met_lease : ∀ r ∈ leaseRules, Met r := by
  simp only [leaseRules, List.forall_mem_cons, List.not_mem_nil, false_implies, implies_true, and_true]
  exact ⟨met_free slot0 st se { firing0 with a := plain [1, 7, 1] } ⟨rfl, by decide, by decide⟩,
    met_free slot0 st se firing0 ⟨rfl, by decide, by decide⟩, met_free slot0 st se firing0 rfl⟩

theorem met_counters : ∀ r ∈ counterRules, Met r := by
  simp only [counterRules, List.forall_mem_cons, List.not_mem_nil, false_implies, implies_true, and_true]
  exact ⟨met_free slot0 st se firing0 rfl, met_free slot0 st se firing0 trivial⟩

theorem met_trace : ∀ r ∈ traceRules, Met r := by
  simp only [traceRules, List.forall_mem_cons, List.not_mem_nil, false_implies, implies_true, and_true]
  exact ⟨⟨slot0, inFocus st se firing0, ⟨se, firing0⟩, due_inFocus rfl, trivial, fits_none rfl rfl rfl _⟩,
    ⟨slot0, inFocus st se firing0, ⟨se, firing0⟩, due_inFocus rfl, rfl, fits_none rfl rfl rfl _⟩,
    met_free slot0 st se firing0 rfl, met_free slot0 st se firing0 trivial⟩

theorem met_policyRead : Met policyRule := met_free slot0 st se firing0 rfl

/-- Index 3 is issued to the instance and not reported. -/
theorem met_reports : ∀ r ∈ reportRules 7 inst0 3, Met r := by
  simp only [reportRules, List.forall_mem_cons, List.not_mem_nil, false_implies, implies_true, and_true]
  exact ⟨met_free slot0 st se { firing0 with a := plain [3] } ⟨rfl, by decide, by decide, by decide, by decide, by decide, by decide⟩,
    met_free slot0 st se firing0 ⟨by decide, by decide, by decide, by decide⟩,
    met_free slot0 { st with now := 50000 } se firing0 ⟨by decide, by decide, by decide⟩⟩

theorem met_break : Met (breakRule 7 inst0) := met_free slot0 st se firing0 ⟨by decide, by decide⟩

/-- AMSEND of the first and the last user AMOP, and of one that does not suit a host. -/
theorem met_send : Met (sendHostRule 0x4F 1 2) ∧ Met (sendHomeRule 0x40 1 2) ∧ Met (sendHomeRule 7 1 2) ∧ Met (sendBadRule 1 1 2 1) := by
  refine ⟨met_free slot0 st se { firing0 with a := plain [0x4F, 1, 2, 0, 256] } ⟨rfl, ⟨by decide, by decide⟩, Or.inl (by decide)⟩,
    met_free slot0 st se { firing0 with a := plain [0x40, 1, 2, 0, 0] } ⟨rfl, ⟨by decide, by decide⟩, Or.inl (by decide)⟩,
    met_free slot0 st se { firing0 with a := plain [7, 1, 2, 0, 0] } ⟨rfl, ⟨by decide, by decide⟩, Or.inr (by decide)⟩,
    met_free slot0 st se { firing0 with a := plain [1, 1, 2, 0, 256] }
      ⟨rfl, ⟨by decide, by decide⟩, by unfold Suits; decide, fun h => (by cases h), fun _ h => nomatch h⟩⟩

/-- Some word, state and firing meet a fault's rule. -/
def MetFault (r : FaultRule) : Prop := ∃ w s fo, Due s fo ∧ r.pre w s fo

theorem met_fault {r : FaultRule} (w : Slot) (s : State) (eid : Nat) (f : Firing) (h : r.pre w (inFocus s eid f) ⟨eid, f⟩)
    (hf : f.fault = none := by rfl) : MetFault r := ⟨w, inFocus s eid f, ⟨eid, f⟩, due_inFocus hf, h⟩

/-- A word that names three heads, all POISON. -/
def named : Slot := { slot0 with sa := .head 0, sb := .head 1, sc := .head 2 }
def poisoned : Firing := { firing0 with a := tagged [] tagPoison, b := tagged [] tagPoison, c := tagged [] tagPoison }

theorem met_trap : MetFault ⟨.trap, Clean, 8, fun w => w.imm.toNat % 256, fun _ _ _ => 0⟩ := met_fault slot0 st se firing0 rfl

theorem met_poison : ∀ r ∈ controlFaults, MetFault r := by
  simp only [controlFaults, List.cons_append, List.nil_append, List.forall_mem_cons, List.not_mem_nil, false_implies, implies_true, and_true]
  and_intros <;>
    exact met_fault named st pe poisoned (by decide : _ = _)

theorem met_toRegister : ∀ x ∈ integerRules, MetFault (poisonFault x.instr (fun w _ fo => ¬BuiltFits w fo)) := fun x _ =>
  met_fault { named with da := .v 0 } st pe poisoned (fun h => Bool.noConfusion (h (by decide)).1)

/-- A view with a head's tag. -/
def headed (t : Tag) : Firing := { firing0 with a := tagged [0] t }

/-- The AG with one stream, of a configuration. -/
def agCfg (c : StreamCfg) : State := st.modElem ag (fun e => { e with streams := [{ regs := c, cfg := c, mode := .ready }] })

/-- A format beyond the last, and the reserved kind. -/
theorem met_setup (i : Slot → Instr) : ∀ r ∈ setupFaults i, MetFault r := by
  simp only [setupFaults, List.forall_mem_cons, List.not_mem_nil, false_implies, implies_true, and_true]
  exact ⟨met_fault slot0 (agCfg { v := true, fmt := 13 }) ag firing0 ⟨by decide, Or.inl (by decide)⟩,
    met_fault slot0 (agCfg { v := true, kind := 7 }) ag firing0 ⟨by decide, by unfold BadFormat; decide, Or.inl (by decide)⟩⟩

/-- PATSET without a stream, with POISON, with an extent of 65537 or a lane missing, and with GO on a bad format and a bad kind. -/
theorem met_patset : ∀ r ∈ patsetFaults, MetFault r := by
  simp only [patsetFaults, List.forall_mem_cons, List.not_mem_nil, false_implies, implies_true, and_true]
  have ext : ¬FieldOk { slot0 with imm := 1 } ⟨ag, { firing0 with a := plain [65537, 1, 1, 1, 1] }⟩ := fun h => absurd (h.2 0 (by decide)).2 (by decide)
  exact ⟨met_fault slot0 st ag firing0 (by decide : _ = _), met_fault named agSet ag poisoned ⟨by decide, by decide⟩,
    met_fault { slot0 with imm := 1 } agSet ag _ ⟨⟨by decide, by decide⟩, ext⟩,
    met_fault { slot0 with imm := 0x13 } (agCfg { v := true, fmt := 13 }) ag firing0
      ⟨⟨by decide, by decide⟩, { v := true, fmt := 13 }, ⟨by decide, by decide⟩, Or.inl (by decide)⟩,
    met_fault { slot0 with imm := 0x13 } (agCfg { v := true, kind := 7 }) ag firing0
      ⟨⟨by decide, by decide⟩, { v := true, kind := 7 }, ⟨by decide, by decide⟩, by unfold BadFormat; decide, Or.inl (by decide)⟩⟩

/-- A field that lacks a lane. -/
theorem met_patsetLane : ¬FieldOk slot0 ⟨ag, { firing0 with a := plain [0] }⟩ := fun h => absurd (h 1 (by decide)) (by decide)

/-- The package field of DEST out of its range, at the first such value. -/
def outOfRange : Firing := { firing0 with a := plain [7, 0, 0, 0, 0x2C0] }

/-- Index 6 of XMERGE and XSEND, the first beyond the accumulator's pieces. -/
theorem far : ∀ j, ¬IndexIs ⟨pe, { firing0 with b := plain [6] }⟩ j := fun j h => by
  have e : laneAt (plain [6]).lanes 0 = some 6 := by decide
  have := Option.some.inj (e.symm.trans h.1)
  obtain ⟨_, hj⟩ := h
  rcases j with _ | _ | _ | _ | _ | _ | j <;> first | omega | simp_all

/-- Tile 1023, which the partition lacks. -/
def outside : Firing := { firing0 with a := plain [1023, 0] }

/-- An instruction of an INDEX stream and the least format of blocks. -/
theorem met_format (i : Slot → Instr) (p : Nat → Prop) (f : Nat) (h : p f) (hf : f ∈ [3, 11]) :
    MetFault (rangeFault i (fun w s fo => Usable [4] (streamOf w s fo) ∧ p (streamOf w s fo).cfg.fmt)) := by
  refine met_fault slot0 (agCfg { v := true, kind := 4, fmt := f, ext := [16, 1, 1, 1, 1], stride := [1, 0, 0, 0, 0] }) ag firing0 ⟨?_, h⟩
  rcases List.mem_cons.mp hf with rfl | hf
  · exact ⟨by decide, by decide, by decide⟩
  · rw [List.mem_singleton.mp hf]
    exact ⟨by decide, by decide, by decide⟩

/-- The matrix element in FP64. -/
def wide : State := st.modElem me (fun e => { e with matrix := { e.matrix with fp64 := true } })

theorem met_operands : ∀ r ∈ operandFaults, MetFault r := by
  simp only [operandFaults, List.forall_mem_append, List.forall_mem_cons, List.not_mem_nil, false_implies, implies_true, and_true]
  have noTable : ¬TableSet slot0 (inFocus st se firing0) ⟨se, firing0⟩ := by
    unfold TableSet
    decide
  refine ⟨⟨⟨⟨⟨met_fault slot0 st pe { firing0 with b := plain [17] } ⟨17, by decide, by decide⟩,
    met_fault { slot0 with x := true } st pe firing0 ⟨rfl, by decide, by decide⟩, met_fault slot0 st pe _ far,
    met_fault slot0 st pe _ ⟨rfl, far⟩, met_fault slot0 st pe (headed 5) ⟨rfl, ⟨by decide, by decide⟩, Or.inr (by decide)⟩,
    met_fault slot0 st pe { headed 1 with b := plain [5] } ⟨rfl, ⟨5, by decide, by decide, by decide⟩, by decide⟩,
    met_fault slot0 st se firing0 noTable, met_fault slot0 st se firing0 noTable,
    met_fault slot0 st se firing0 (by decide : _ = _), met_fault slot0 st se firing0 (by decide : _ = _),
    met_fault slot0 st se firing0 (by decide : _ = _),
    met_fault { slot0 with imm := 2 } seSet se firing0 ⟨by decide, by decide⟩,
    met_fault { slot0 with imm := 2 } seSet se firing0 ⟨by decide, by decide⟩,
    met_fault slot0 st se { firing0 with a := plain [0, 0, 0, 0x800040] } ⟨by decide, by decide, by decide⟩,
    met_fault { slot0 with rnd := 2 } seSet se firing0 ⟨by decide, by decide, by decide, by decide⟩,
    met_fault { slot0 with rnd := 2 } st se firing0 ⟨by decide, by decide, by decide⟩,
    met_fault slot0 st se outside ⟨by decide, (1023, 0), by decide, by decide⟩,
    met_fault slot0 st se outside ⟨by decide, (1023, 0), by decide, by decide⟩⟩, ?_⟩, ?_⟩, met_patset⟩, fun r h => ?_⟩
  · exact ⟨met_fault { slot0 with imm := 0x10000000 }
        (agSet.modElem ag (fun e => { e with streams := upd e.streams 1 (fun t => { t with mode := .idle }) })) ag firing0
        ⟨⟨by decide, by decide, by decide⟩, by decide⟩,
      met_fault slot0 st me (headed 0) ⟨rfl, by decide⟩, met_fault { slot0 with imm := 5 } wide me (headed 1) ⟨rfl, by decide⟩,
      met_fault slot0 st me (headed 0) ⟨rfl, by decide⟩, met_fault { slot0 with imm := 1 } wide me (headed 1) ⟨rfl, by decide, by decide⟩,
      met_fault slot0 st me (headed 1) ⟨rfl, by decide⟩,
      met_fault slot0 st se { firing0 with a := plain [1, 8, 1] } ⟨rfl, by decide⟩,
      met_fault slot0 st se { firing0 with a := plain [] } ⟨rfl, by decide⟩,
      met_fault slot0 st se { firing0 with a := plain [0, 0, 0, 0] } ⟨rfl, 4, by decide, by decide⟩,
      met_fault slot0 st se outOfRange ⟨rfl, by decide, Or.inr (Or.inr (Or.inr (by decide)))⟩,
      met_fault slot0 st se { firing0 with a := plain [] } ⟨rfl, by decide⟩,
      met_fault slot0 st se { firing0 with a := plain [4] } ⟨rfl, 4, 7, inst0, by decide, by decide, by decide, by decide, Or.inl (by decide)⟩,
      met_fault slot0 st pe { firing0 with a := tagged [] 8, b := tagged [] 0 } ⟨rfl, by decide⟩⟩
  · exact ⟨met_format _ (· ∈ [11, 12]) 11 (by decide) (by decide), met_format _ (· ∈ [11, 12]) 11 (by decide) (by decide),
      met_format _ (3 ≤ ·) 3 (by decide) (by decide), met_format _ (3 ≤ ·) 3 (by decide) (by decide)⟩
  · obtain ⟨i, _, h⟩ := List.mem_flatMap.mp h
    exact met_setup i r h

/-- The other values of AMSEND out of range: 256 for AMOP, 1024 and 3 for DEST, and this package. -/
theorem met_sendOut : ∀ l ∈ [[256, 0, 0, 0, 0], [7, 0, 0, 0, 1024], [7, 0, 0, 0, 0x300], [7, 0, 0, 0, 0x200]],
    SendOut st ⟨se, { firing0 with a := plain l }⟩ := by
  unfold SendOut
  decide

/-- The AG with another base of its INDEX stream. -/
def based (base : Nat) : State :=
  agSet.modElem ag (fun e => { e with streams := upd e.streams 0 (fun t => { t with cfg := { t.cfg with base } }) })

/-- The five faults of an INDEX instruction, addresses at 2^49 and below a multiple of 4. -/
theorem met_indexFaults (i : Slot → Instr) (fmts : List Nat) (vas : Slot → State → Focus → List Nat) (hf : 0 ∈ fmts)
    (h1 : (vas slot0 (inFocus (based (2 ^ 49)) ag lanesUp) ⟨ag, lanesUp⟩).find? (fun va => 2 ^ 49 ≤ va || va % 4 ≠ 0) = some (2 ^ 49))
    (h2 : (vas slot0 (inFocus (based 2) ag lanesUp) ⟨ag, lanesUp⟩).find? (fun va => 2 ^ 49 ≤ va || va % 4 ≠ 0) = some 2) :
    ∀ r ∈ indexFaults i fmts vas, MetFault r := by
  simp only [indexFaults, List.forall_mem_cons, List.not_mem_nil, false_implies, implies_true, and_true]
  exact ⟨met_fault slot0 st ag firing0 (by decide : _ = _),
    met_fault { slot0 with imm := 0x10000000 } agSet ag firing0 ⟨by decide, by decide, by decide⟩,
    met_fault slot0 agSet ag { firing0 with a := tagged [] tagPoison } ⟨⟨by decide, by decide, by decide⟩, hf, rfl⟩,
    met_fault slot0 (based (2 ^ 49)) ag lanesUp ⟨⟨⟨by decide, by decide, by decide⟩, hf, by decide⟩, 2 ^ 49, h1, by decide⟩,
    met_fault slot0 (based 2) ag lanesUp ⟨⟨⟨by decide, by decide, by decide⟩, hf, by decide⟩, 2, h2, by decide⟩⟩

theorem met_addresses : ∀ r ∈ addressFaults, MetFault r := by
  simp only [addressFaults, patAddress, List.forall_mem_append, List.forall_mem_cons, List.not_mem_nil, false_implies, implies_true, and_true]
  have odd (i : Slot → Instr) : MetFault (remoteAlign i) :=
    met_fault slot0 st se { firing0 with a := plain [1, 0x7FFFFF] } ⟨by decide, (1, 0x7FFFFF), by decide, by decide, by decide⟩
  let pat (base : Nat) : State := agCfg { v := true, kind := 1, base, stride := [1, 0, 0, 0, 0] }
  and_intros
  iterate 6 exact met_fault slot0 st se { firing0 with a := plain [0x7FFFFF] } ⟨by decide, (0, 0x7FFFFF), by decide, by decide⟩
  iterate 2 exact odd _
  · exact met_fault slot0 (pat (2 ^ 49)) ag lanesUp ⟨⟨⟨by decide, by decide, by decide⟩, by decide⟩, 2 ^ 49, by decide +kernel, by decide⟩
  · exact met_fault slot0 (pat 2) ag lanesUp ⟨⟨⟨by decide, by decide, by decide⟩, by decide⟩, 2, by decide +kernel, by decide⟩
  all_goals exact met_indexFaults _ _ _ (by decide) (by decide +kernel) (by decide +kernel)

/-- A withheld token. -/
theorem met_withheld (family code addr : Nat) : ∀ i ∈ [Instr.patld, Instr.planeld, Instr.wld], MetFault
    ⟨i, fun _ _ fo => ∃ p, fo.firing.moved = some p ∧ p.fault = some (family, code, addr), family, fun _ => code, fun _ _ _ => addr⟩ :=
  fun _ _ => met_fault slot0 st ag { firing0 with moved := some ⟨⟨Lanes.all 0, 0, none⟩, some (family, code, addr), { }, 0⟩ }
    ⟨_, rfl, rfl⟩

/-! ## Hypotheses that are met: messages -/

/-- Some state meets rule k of a list. -/
def Open (l : List EventRule) (k : Nat) : Prop := ∃ r, l[k]? = some r ∧ ∃ s, r.pre s

/-- A message of VF 0 and one of VF 511. -/
def msg (amop : BitVec 8) (operand : Word) (cont : DWord) : Am := ⟨amop, 0, 0, 0, operand, cont, .host⟩
def admin (amop : BitVec 8) (operand : Word) (cont : DWord) : Am := ⟨amop, 511, 0, 0, operand, cont, .host⟩

theorem passes_msg (a : BitVec 8) (o : Word) (c : DWord) : Passes (msg a o c) st ∧ Passes (admin a o c) st :=
  ⟨⟨⟨rfl, fun _ => rfl⟩, rfl⟩, ⟨⟨rfl, fun _ => rfl⟩, rfl⟩⟩

/-- Partition 0 with handler 0 enabled for task 0, which instance 7 serves through port 0 of its SE. -/
def served : State :=
  { st.modPart 0 (fun p => { p with handlers := upd p.handlers 0 (fun h => { h with hen := true }) }) with
    insts := [(7, { inst0 with baton := some (se, 0) })] }

/-- The page tables of a VF whose ROOT is 1: the page of 1 GiB at 0 (R160). -/
def pages (leaf : List Host.Cell) : List Host.Cell :=
  [(0x400, 0x01), (0x403, 0x04), (0x2000, 0x01), (0x2003, 0x08)] ++ leaf
def hbmPage : List Host.Cell := [(0x4000, 0x7f), (0x4001, 0x02)]

/-- VF 0 with those tables, its page in HBM, or in package 1 of the pod. -/
def paged (leaf : List Host.Cell) : State := { st.modVf 0 (fun v => { v with root := 1 }) with hbm := pages leaf }
def abroadPage : State := paged [(0x4000, 0x7f), (0x4001, 0x16)]

/-- Nothing that such a message reads is under a scrub. -/
theorem unstopped {s : State} {l : List Reach} (h : (l.all (fun a => !s.askStops a)) = true) : Unstopped s l := fun a ha => by
  simpa using List.all_eq_true.mp h a ha

/-- Nothing waits to be written or said. -/
theorem written {s : State} (h : s.parked = []) (hl : s.links = []) (hc : s.closings = []) : Written s :=
  ⟨⟨h, fun r hr => by rw [hl] at hr; exact nomatch hr⟩, hc⟩

/-- A write waits for a scrub. -/
def waitingWrite : State := { st with parked := [[(0, 1)]] }

theorem not_written : ¬Written waitingWrite := fun h => nomatch h.1.1

theorem met_messages : Open (messageRules (msg 6 0 0x10000)) 0 ∧ Open (messageRules (msg 6 0 0x10000)) 1 ∧
    Open (messageRules (admin 0x20 1 0x400)) 2 ∧ Open (messageRules (msg 0x33 0 0)) 3 ∧ Open (messageRules (msg 0x40 0 0)) 5 :=
  ⟨⟨_, rfl, st, (passes_msg _ _ _).1, rfl, written rfl rfl rfl, by decide +kernel⟩,
    ⟨_, rfl, st.modPart 0 (fun p => { p with handlers := upd p.handlers 0 (fun h => { h with queue := [⟨7, msg 0x40 0 0⟩] }) }),
      ⟨⟨rfl, fun _ => rfl⟩, rfl⟩, rfl, by decide +kernel, Or.inr (by decide +kernel)⟩,
    ⟨_, rfl, st, (passes_msg _ _ _).2, by decide, by decide, by decide, by decide, by decide +kernel⟩,
    ⟨_, rfl, st, (passes_msg _ _ _).1⟩,
    ⟨_, rfl, served, ⟨⟨rfl, fun _ => rfl⟩, rfl⟩, by decide, by decide +kernel⟩⟩

theorem met_orderWrite : Open (messageRules (msg 6 0 0x10000)) 1 :=
  ⟨_, rfl, waitingWrite, ⟨⟨rfl, fun _ => rfl⟩, rfl⟩, rfl, by decide +kernel, Or.inl not_written⟩

/-- SIGVAL in HBM; an object that is not aligned. -/
theorem met_signal : Open (signalRules (msg 7 9 0x10000)) 0 ∧ Open (signalRules (msg 7 9 0x10001)) 2 :=
  ⟨⟨_, rfl, paged hbmPage, ⟨⟨⟨⟨rfl, fun _ => rfl⟩, rfl⟩, by decide, unstopped (by decide +kernel)⟩, by decide, by decide +kernel⟩, by decide +kernel⟩,
    ⟨_, rfl, paged hbmPage, ⟨⟨⟨rfl, fun _ => rfl⟩, rfl⟩, by decide, unstopped (by decide +kernel)⟩, rfl, fun h => absurd h.1 (by decide)⟩⟩

/-- A use of the link before any remap, with a port that is up, takes a port or waits for the remap. -/
theorem link_up {s : State} (pick : Nat → Nat) (h : s.remapped = []) (hu : s.aqric.all (!·.up) = false) : s.linkOf pick ≠ .down := by
  have e : s.hashedPort pick = some (pick 36 % 36) := by
    unfold State.hashedPort
    rw [h]
    simp [Nat.mod_lt]
  unfold State.linkOf
  rw [hu, e]
  simp only [Bool.false_eq_true, if_false]
  split <;> exact fun h => Link.noConfusion h

/-- SIGVAL in another package, which takes it or refuses it (log 7): one of the two rules applies. -/
theorem met_signalAbroad : Open (signalRules (msg 7 9 0x10000)) 1 ∨ Open (signalRules (msg 7 9 0x10000)) 3 := by
  have ok : (Passes (msg 7 9 0x10000) abroadPage ∧ (msg 7 9 0x10000).vf ≠ 511 ∧
        Unstopped abroadPage [contAsk (msg 7 9 0x10000), sigvalReach (msg 7 9 0x10000)]) ∧ (msg 7 9 0x10000).cont.toNat % 64 = 0 ∧
      (counted (msg 7 9 0x10000) abroadPage).contOk (msg 7 9 0x10000) = true :=
    ⟨⟨⟨⟨rfl, fun _ => rfl⟩, rfl⟩, by decide, unstopped (by decide +kernel)⟩, by decide, by decide +kernel⟩
  have h : (match sigvalHome (msg 7 9 0x10000) (counted (msg 7 9 0x10000) abroadPage) with
      | some (.remote _ _ _ _) => true
      | _ => false) = true := by decide +kernel
  split at h
  · next pkg ptag pa port e =>
    by_cases r : Config.remoteRefuses abroadPage.moment pa = true
    · exact Or.inr ⟨_, rfl, abroadPage, ok, rfl, pkg, ptag, pa, port, e, Or.inr r⟩
    · exact Or.inl ⟨_, rfl, abroadPage, ok, pkg, ptag, pa, port, e, link_up _ rfl (by decide +kernel), by simpa using r⟩
  · cases h

/-- HBM unit 0 is under a scrub, so the page tables at 0x400 cannot be read: a message that names an object waits. -/
def scrubbed : State := { paged hbmPage with units := [(0, { owner := 0, scrub := true })] }

theorem met_stalled : ∀ k < 6, Open (stallRules (msg 1 0 0x10000)) k := by
  have h : scrubbed.askStops (contAsk (msg 1 0 0x10000)) = true := by decide +kernel
  have p : Passes (msg 1 0 0x10000) scrubbed ∧ (msg 1 0 0x10000).vf ≠ 511 := ⟨⟨⟨rfl, fun _ => rfl⟩, rfl⟩, by decide⟩
  intro k hk
  interval_cases k
  · exact ⟨_, rfl, scrubbed, p.1, p.2, h, trivial⟩
  · exact ⟨_, rfl, scrubbed, p.1, p.2, h, rfl⟩
  · exact ⟨_, rfl, scrubbed, p.1, p.2, h, by decide +kernel⟩
  · exact ⟨_, rfl, scrubbed, p.1, p.2, h, by decide +kernel⟩
  · exact ⟨_, rfl, scrubbed, p.1, p.2, h, by decide +kernel⟩
  · exact ⟨_, rfl, scrubbed, p.1, p.2, h, by decide +kernel⟩

/-- A policy block of SEQUENCE 1 for partition 0 and the key it is signed with. -/
def polWord : Nat :=
  0x10000000131425044 +
  0x970712fce5b339aeafde27b402bf49669d11642c558018102924fb715b5155a9 * 2 ^ 128 +
  0x6b17d1f2e12c4247f8bce6e563a440f277037d812deb33a0f4a13945d898c296 * 2 ^ 3584 +
  0x6b895626fbfe41a6f85a7d43c6410d794f968a1a96dbde30f306c0e1edfcb23b * 2 ^ 3840
def polKey : BitVec 512 :=
  0x4fe342e2fe1a7f9b8ee7eb4a7c0f9e162bce33576b315ececbb6406837bf51f56b17d1f2e12c4247f8bce6e563a440f277037d812deb33a0f4a13945d898c296
def polBytes : List Byte := leBytes 512 polWord


/-- Its signature verifies, and every other check of R58 passes. -/
theorem policy_passes : policyFault polBytes 0 { Partition.reset with tkey := polKey } = none := by
  have h : (policyFault polBytes 0 { Partition.reset with tkey := polKey }).isNone = true := by decide +kernel
  exact Option.isNone_iff_eq_none.mp h

/-- The bytes of the block that are not zero, at 0x10000. -/
def polCells : List Host.Cell :=
  [(0x10000, 0x44), (0x10001, 0x50), (0x10002, 0x42), (0x10003, 0x31), (0x10004, 0x01), (0x10008, 0x01),
   (0x10010, 0xa9), (0x10011, 0x55), (0x10012, 0x51), (0x10013, 0x5b), (0x10014, 0x71), (0x10015, 0xfb),
   (0x10016, 0x24), (0x10017, 0x29), (0x10018, 0x10), (0x10019, 0x18), (0x1001a, 0x80), (0x1001b, 0x55),
   (0x1001c, 0x2c), (0x1001d, 0x64), (0x1001e, 0x11), (0x1001f, 0x9d), (0x10020, 0x66), (0x10021, 0x49),
   (0x10022, 0xbf), (0x10023, 0x02), (0x10024, 0xb4), (0x10025, 0x27), (0x10026, 0xde), (0x10027, 0xaf)] ++
  [(0x10028, 0xae), (0x10029, 0x39), (0x1002a, 0xb3), (0x1002b, 0xe5), (0x1002c, 0xfc), (0x1002d, 0x12),
   (0x1002e, 0x07), (0x1002f, 0x97), (0x101c0, 0x96), (0x101c1, 0xc2), (0x101c2, 0x98), (0x101c3, 0xd8),
   (0x101c4, 0x45), (0x101c5, 0x39), (0x101c6, 0xa1), (0x101c7, 0xf4), (0x101c8, 0xa0), (0x101c9, 0x33),
   (0x101ca, 0xeb), (0x101cb, 0x2d), (0x101cc, 0x81), (0x101cd, 0x7d), (0x101ce, 0x03), (0x101cf, 0x77),
   (0x101d0, 0xf2), (0x101d1, 0x40), (0x101d2, 0xa4), (0x101d3, 0x63), (0x101d4, 0xe5), (0x101d5, 0xe6)] ++
  [(0x101d6, 0xbc), (0x101d7, 0xf8), (0x101d8, 0x47), (0x101d9, 0x42), (0x101da, 0x2c), (0x101db, 0xe1),
   (0x101dc, 0xf2), (0x101dd, 0xd1), (0x101de, 0x17), (0x101df, 0x6b), (0x101e0, 0x3b), (0x101e1, 0xb2),
   (0x101e2, 0xfc), (0x101e3, 0xed), (0x101e4, 0xe1), (0x101e5, 0xc0), (0x101e6, 0x06), (0x101e7, 0xf3),
   (0x101e8, 0x30), (0x101e9, 0xde), (0x101ea, 0xdb), (0x101eb, 0x96), (0x101ec, 0x1a), (0x101ed, 0x8a),
   (0x101ee, 0x96), (0x101ef, 0x4f), (0x101f0, 0x79), (0x101f1, 0x0d), (0x101f2, 0x41), (0x101f3, 0xc6)] ++
  [(0x101f4, 0x43), (0x101f5, 0x7d), (0x101f6, 0x5a), (0x101f7, 0xf8), (0x101f8, 0xa6), (0x101f9, 0x41),
   (0x101fa, 0xfe), (0x101fb, 0xfb), (0x101fc, 0x26), (0x101fd, 0x56), (0x101fe, 0x89), (0x101ff, 0x6b)]

/-- The block at 0x10000, where each instance of partition 0 has `policy`. -/
def polState (policy : List Byte) : State :=
  { st.modPart 0 (fun p => { p with tkey := polKey }) with
    hbm := pages hbmPage ++ polCells, vfs := (paged []).vfs, insts := [(7, { inst0 with policy })] }

theorem polState_read : (counted (msg 4 0 0x10000) (polState polBytes)).readFor 0 0x10000 512 = some polBytes ∧
    (counted (msg 4 0 0x10000) (polState [])).readFor 0 0x10000 512 = some polBytes := by decide +kernel

theorem polBytes_ne : ([] : List Byte) ≠ polBytes := by decide +kernel

/-- The block's page is in HBM and under no scrub. -/
theorem polState_free (p : List Byte) : Unstopped (polState p) [contAsk (msg 4 0 0x10000), policyReach (msg 4 0 0x10000)] := by
  refine unstopped ?_
  have h : (polState p).units = (polState []).units ∧ (polState p).links = [] := ⟨rfl, rfl⟩
  exact (by decide +kernel : ([contAsk (msg 4 0 0x10000), policyReach (msg 4 0 0x10000)].all (fun a => !(polState []).askStops a)) = true)

theorem met_policy : Open (messageRules (msg 4 0 0x10000)) 4 ∧ Open [policyWaitRule (msg 4 0 0x10000)] 0 := by
  refine ⟨⟨_, rfl, polState polBytes, ⟨⟨rfl, fun _ => rfl⟩, rfl⟩, rfl, by decide, by decide +kernel, by decide +kernel, polState_free _,
      polBytes, polState_read.1, policy_passes, by decide, rfl, ?_⟩,
    ⟨_, rfl, polState [], ⟨⟨rfl, fun _ => rfl⟩, rfl⟩, rfl, by decide, by decide +kernel, polState_free _, polBytes, polState_read.2,
      policy_passes, by decide, (7, _), List.mem_singleton.mpr rfl, rfl, ?_⟩⟩
  · intro x hx _
    rw [List.mem_singleton.mp hx]
  · exact polBytes_ne

/-- Reserved bits; an object not aligned; and a block of zeros, which fails the first check. -/
theorem met_policyRefused : Open (policyRefusals (msg 4 1 0) 0) 0 ∧ Open (policyRefusals (msg 4 0 1) 0) 1 ∧
    Open (policyRefusals (msg 4 0 0x20000) 0) 2 := by
  have free : Unstopped (polState []) [contAsk (msg 4 0 0x20000), policyReach (msg 4 0 0x20000)] := unstopped (by decide +kernel)
  refine ⟨⟨_, rfl, st, (passes_msg _ _ _).1, rfl, by decide⟩,
    ⟨_, rfl, paged hbmPage, ⟨⟨⟨rfl, fun _ => rfl⟩, rfl⟩, rfl, rfl, unstopped (by decide +kernel)⟩, Or.inl fun h => absurd h.1 (by decide)⟩,
    ⟨_, rfl, polState [], ⟨⟨⟨rfl, fun _ => rfl⟩, rfl⟩, rfl, rfl, free⟩, ⟨by decide, by decide +kernel⟩, List.replicate 512 0,
      by decide +kernel, ⟨_, rfl, by decide +kernel⟩, fun j hj => absurd hj (Nat.not_lt_zero j)⟩⟩

/-- The last check: the block with another SEQUENCE is not what was signed. -/
theorem met_policySignature : PolicyFails (leBytes 512 (polWord + 2 ^ 64)) 0 { Partition.reset with tkey := polKey } 8 := by
  refine ⟨⟨_, rfl, by decide +kernel⟩, fun j hj c hc => ?_⟩
  interval_cases j <;> cases hc <;> decide +kernel

/-- HBM with the page of 1 GiB at 0 under VF 0's root, and at 0x10000 a graph word: task 0 of one tile and one instance, one task, image
at 0x20000, completion object at 0x30000 (R61, R160). -/
def mapped : State :=
  { paged [] with hbm := pages hbmPage ++
      [(0x10003, 0x49), (0x1000a, 0x02), (0x10010, 0x01), (0x10022, 0x03)] ++
      [(0x10031, 0xff), (0x10032, 0xff), (0x10038, 0x49), (0x10039, 0x4f), (0x1003a, 0x46), (0x1003b, 0x9c), (0x1003c, 0x47),
       (0x1003d, 0x4e), (0x1003e, 0x57), (0x1003f, 0x54)] }

theorem mapped_word : mapped.graphBytes 0 0x10000 = some (bytesAt mapped.hbm 0x10000 64) ∧
    graphWordOk (bytesAt mapped.hbm 0x10000 64) = true := by decide +kernel

/-- The launch of that graph, stopped; no instance runs. -/
def launch1 : Launch := { launch0 with root := 0x10000, stopped := true }
def stopped1 : State := { mapped with launches := [(5, launch1)], insts := [] }

/-- The conditions of a message that names a launch, as one test. -/
theorem names_of {m : Am} {s : State} {l : Nat} {x : Launch}
    (h : ((s.vf m.vf.toNat).en = true ∧ (m.sender = .host → m.seq = (s.vf m.vf.toNat).expSeq) ∧ s.running = true ∧ m.vf ≠ 511) ∧
      s.askStops (contAsk m) = false ∧ m.cont.toNat % 64 = 0 ∧ (counted m s).contOk m = true ∧ s.namedLaunch m = some (l, x) ∧
      s.launches.find l = some x ∧ x.walked = true) : Names m s l x :=
  ⟨⟨⟨h.1.1, h.1.2.1⟩, h.1.2.2.1⟩, h.1.2.2.2, fun a ha => by rw [List.mem_singleton.mp ha]; exact h.2.1, h.2.2⟩

/-- What LAUNCH reads is under no scrub. -/
theorem launchReads {m : Am} {s : State} (h : ([contAsk m, graphReach m].all (fun a => !s.askStops a)) = true)
    (hg : (((counted m s).graphBytes (vfOfAm m) m.cont.toNat).all (fun b =>
      !s.askStops { v := vfOfAm m, va := (graphWordOf b).completionVa, n := 128, read := false })) = true) : LaunchReads m s :=
  ⟨unstopped h, fun b e => by
    rw [e] at hg
    simpa using hg⟩

theorem names0 : Names (msg 1 0 0x10000) stopped1 5 launch1 := names_of (by decide +kernel)

/-- LAUNCH with every flag below 5 and no override. -/
theorem met_launch : Open (launchRules (msg 1 0x17 0x10000) 5 launch1) 0 ∧ Open (launchRules (msg 1 0 0x10000) 5 launch1) 1 ∧
    Open (launchRules (msg 1 0 0x10000) 5 launch1) 2 :=
  ⟨⟨_, rfl, mapped, ⟨⟨rfl, fun _ => rfl⟩, rfl⟩, by decide, by decide, Or.inr (Or.inl (by decide)), by decide, by decide,
      by decide +kernel, launchReads (by decide +kernel) (by decide +kernel), bytesAt mapped.hbm 0x10000 64, by decide +kernel, mapped_word.2,
      by decide +kernel, by decide +kernel⟩,
    ⟨_, rfl, stopped1, names0, rfl, rfl⟩,
    ⟨_, rfl, stopped1, names0, by decide, fun _ h => nomatch h⟩⟩

/-- A launch with one task still to issue: CANCEL takes it. -/
def launch2 : Launch := { launch0 with root := 0x10000, tasks := [{ task0 with nextIdx := 3 }] }
def running2 : State := { mapped with launches := [(5, launch2)] }

theorem met_cancel : Open (launchRules (msg 2 0 0x10000) 5 launch2) 3 :=
  ⟨_, rfl, { running2 with insts := [] }, names_of (by decide +kernel), by decide, by decide +kernel, fun _ h => (nomatch h),
    by decide +kernel⟩

theorem no_lease {α : Prop} (n k : Nat) (z : Lease) (h : nth (List.replicate n (none : Option Lease)) k none = some z) : α := by
  have e : nth (List.replicate n (none : Option Lease)) k none = none := by
    unfold nth
    rw [List.getElem?_replicate]
    split <;> rfl
  cases e.symm.trans h

theorem met_cut : Open (cutRules (msg 2 0 0x10000) 5 launch2 7 inst0) 0 ∧ Open (cutRules (msg 2 1 0x10000) 5 launch2 7 inst0) 1 := by
  have h : Names (msg 2 1 0x10000) running2 5 launch2 ∧ Names (msg 2 0 0x10000) running2 5 launch2 :=
    ⟨names_of (by decide +kernel), names_of (by decide +kernel)⟩
  have a : RunsAlone running2 5 7 inst0 :=
    ⟨by decide +kernel, by decide +kernel, rfl, rfl, rfl, rfl, rfl, rfl, by decide, fun k z e => no_lease 16 k z e⟩
  exact ⟨⟨_, rfl, running2, h.2, by decide, a⟩, ⟨_, rfl, running2, h.1, by decide, rfl, a, by decide⟩⟩

/-- The last report of its one task has taken effect. -/
def launch3 : Launch := { launch2 with tasks := [{ task0 with doneN := 4 }] }

/-- Each refusal at its least operand, and 256 live launches. -/
theorem met_launchRefusals : Open (launchRefusals (msg 1 32 0x10000) 5 launch2) 0 ∧ Open (launchRefusals (msg 1 0xF 0x10000) 5 launch2) 1 ∧
    Open (launchRefusals (msg 1 0 0x10000) 5 launch2) 2 ∧ Open (launchRefusals (msg 1 0 0x10001) 5 launch2) 3 ∧
    Open (launchRefusals (msg 1 1 0x10000) 5 launch2) 4 ∧ Open (launchRefusals (msg 1 0 0x10001) 5 launch2) 5 ∧
    Open (launchRefusals (msg 1 0 0x10000) 5 launch2) 6 ∧ Open (launchRefusals (msg 1 0 0x10000) 5 launch2) 7 ∧
    (∀ k ∈ [8, 11], Open (launchRefusals (msg 1 2 0x10000) 5 launch2) k) ∧ (∀ k ∈ [9, 12], Open (launchRefusals (msg 1 1 0x10001) 5 launch2) k) ∧
    (∀ k ∈ [10, 13], Open (launchRefusals (msg 1 1 0x10000) 5 launch2) k) ∧
    Open (launchRefusals (msg 1 1 0x10000) 5 launch3) 14 := by
  have zero_ne : (0 : BitVec 9) ≠ 511 := by decide
  have p : ∀ o c (s : State), (s.vf 0).en = true → (s.vf 0).expSeq = 0 → s.running = true →
      Passes (msg 1 o c) s ∧ (msg 1 o c).sender = .host ∧ (msg 1 o c).vf ≠ 511 :=
    fun _ _ _ h e r => ⟨⟨⟨h, fun _ => e.symm⟩, r⟩, rfl, zero_ne⟩
  have ok : ∀ o c, Passes (msg 1 o c) mapped ∧ (msg 1 o c).sender = .host ∧ (msg 1 o c).vf ≠ 511 :=
    fun o c => p o c mapped (by decide +kernel) (by decide +kernel) (by decide +kernel)
  have free : ∀ o c, (c = 0x10000 ∨ c = 0x10001) → Unstopped mapped [contAsk (msg 1 o c)] := fun o c h => by
    have e : contAsk (msg 1 o c) = contAsk (msg 1 0 c) := rfl
    rw [e]
    rcases h with rfl | rfl <;> exact unstopped (by decide +kernel)
  have odd : ∀ (o : Word) (s : State), ¬((msg 1 o 0x10001).cont.toNat % 64 = 0 ∧ (counted (msg 1 o 0x10001) s).contOk (msg 1 o 0x10001) = true) :=
    fun _ _ h => absurd h.1 (by decide : ¬(0x10001 : DWord).toNat % 64 = 0)
  refine ⟨⟨_, rfl, mapped, ok _ _, by decide⟩, ⟨_, rfl, mapped, ok _ _, by decide +kernel⟩,
    ⟨_, rfl, { mapped with launches := List.replicate 256 (5, launch0) }, p _ _ _ (by decide +kernel) (by decide +kernel) (by decide +kernel),
      by decide +kernel⟩,
    ⟨_, rfl, mapped, ok _ _, by decide, by decide, by decide +kernel, launchReads (by decide +kernel) (by decide +kernel), odd _ _⟩,
    ⟨_, rfl, mapped, ok _ _, by decide⟩, ⟨_, rfl, mapped, ok _ _, rfl, free _ _ (Or.inr rfl), odd _ _⟩,
    ⟨_, rfl, mapped, ok _ _, rfl, free _ _ (Or.inl rfl), by decide +kernel⟩,
    ⟨_, rfl, running2, p _ _ _ (by decide +kernel) (by decide +kernel) (by decide +kernel), rfl,
      names_of (by decide +kernel), rfl⟩, ?_, ?_, ?_,
    ⟨_, rfl, { mapped with launches := [(5, launch3)] },
      p _ _ _ (by decide +kernel) (by decide +kernel) (by decide +kernel), by decide,
      names_of (by decide +kernel), rfl⟩⟩
  · intro k hk
    simp only [List.mem_cons, List.not_mem_nil, or_false] at hk
    rcases hk with rfl | rfl <;> exact ⟨_, rfl, mapped, ok _ _, by decide⟩
  · intro k hk
    simp only [List.mem_cons, List.not_mem_nil, or_false] at hk
    rcases hk with rfl | rfl <;> exact ⟨_, rfl, mapped, ok _ _, by decide, free _ _ (Or.inr rfl), odd _ _⟩
  · intro k hk
    simp only [List.mem_cons, List.not_mem_nil, or_false] at hk
    rcases hk with rfl | rfl <;> exact ⟨_, rfl, mapped, ok _ _, by decide, free _ _ (Or.inl rfl), by decide +kernel⟩

/-- Instance 7 on hold, complete or not, its SE held where it ran, or faulted. -/
def held7 (done : Bool) : Inst := { inst0 with stop := .hold se false, holdDone := done }
def holds (done : Bool) (e : ElemState) : State :=
  { st with insts := [(7, held7 done)], elems := [(se, { elem0 with state := e, before := .run })] }

/-- An element of a cluster that has no partition. -/
def freed : State := { st with clusters := State.reset.clusters, elems := [(se, { elem0 with state := .held })] }

/-- DBGHOLD, a single step, of a faulted element and before the hold is complete, the release, and DBGREAD of item 0 into a unit
without an owner. -/
theorem met_debug : Open (debugRules (admin 0x22 (BitVec.ofNat 32 se) 0) 7 inst0) 0 ∧
    Open (debugRules (admin 0x22 (BitVec.ofNat 32 (se + 0x10000)) 0) 7 (held7 true)) 1 ∧
    Open (debugRules (admin 0x22 (BitVec.ofNat 32 (se + 0x10000)) 0) 7 (held7 true)) 2 ∧
    Open (debugRules (admin 0x22 (BitVec.ofNat 32 (se + 0x10000)) 0) 7 (held7 false)) 3 ∧
    Open (debugRules (admin 0x22 (BitVec.ofNat 32 se) 0) 7 (held7 true)) 4 ∧
    Open (debugRules (admin 0x21 (BitVec.ofNat 32 se) 0x40000000) 7 inst0) 5 :=
  ⟨⟨_, rfl, st, ⟨⟨⟨rfl, fun _ => rfl⟩, rfl⟩, rfl, by decide, by decide, rfl, rfl⟩, rfl, rfl⟩,
    ⟨_, rfl, holds true .held, ⟨⟨⟨rfl, fun _ => rfl⟩, rfl⟩, rfl, by decide, by decide, rfl, rfl⟩, rfl, ⟨se, false, rfl⟩, rfl, by decide,
      by decide, by decide +kernel⟩,
    ⟨_, rfl, holds true .faulted, ⟨⟨⟨rfl, fun _ => rfl⟩, rfl⟩, rfl, by decide, by decide, rfl, rfl⟩, rfl, ⟨se, false, rfl⟩, rfl, by decide⟩,
    ⟨_, rfl, holds false .held, ⟨⟨⟨rfl, fun _ => rfl⟩, rfl⟩, rfl, by decide, by decide, rfl, rfl⟩, rfl, ⟨se, false, rfl⟩, rfl⟩,
    ⟨_, rfl, holds true .held, ⟨⟨⟨rfl, fun _ => rfl⟩, rfl⟩, rfl, by decide, by decide, rfl, rfl⟩, rfl, ⟨se, false, rfl⟩, rfl, rfl, by decide,
      by decide⟩,
    ⟨_, rfl, freed, ⟨⟨rfl, fun _ => rfl⟩, rfl⟩, rfl, rfl, by decide, by decide +kernel, by decide +kernel, by decide +kernel,
      Or.inr (Or.inl (by decide)), _, rfl, by decide +kernel⟩⟩

/-- A free element of partition 0, whose policy lets one read of counter group 0 a second through, where some were read before. -/
def watched (policy : List Byte) (before : Nat) : State :=
  { st.modPart 0 (fun p => { p with active := policy, rate := List.replicate 24 before }) with insts := [] }

/-- DBGREAD of counter group 0 of that element. -/
def counterRead : Am := admin 0x21 (BitVec.ofNat 32 (pe + 1 + 0x100000)) 0x40000000

/-- No policy; room for one record, and none. -/
theorem met_filtered : Open (filterRules counterRead 0) 0 ∧ Open (filterRules counterRead 0) 1 ∧ Open (filterRules counterRead 0) 2 := by
  have reads : ∀ s : State, (s.vf 511).en = true ∧ (s.vf 511).expSeq = 0 ∧ s.running = true →
      Passes counterRead s ∧ counterRead.vf = 511 ∧ counterRead.sender = .host :=
    fun s h => ⟨⟨⟨h.1, fun _ => h.2.1.symm⟩, h.2.2⟩, rfl, rfl⟩
  have p (policy : List Byte) (n : Nat) := reads (watched policy n) ⟨rfl, rfl, rfl⟩
  refine ⟨⟨_, rfl, watched [] 0, ⟨(p _ _).1, rfl, rfl, by decide, by decide +kernel, by decide +kernel, Or.inl (by decide), by decide +kernel⟩,
      by decide +kernel, _, rfl, by decide +kernel⟩,
    ⟨_, rfl, watched (List.replicate 48 0 ++ [3]) 0, ⟨(p _ _).1, rfl, rfl, by decide, by decide +kernel, by decide +kernel, Or.inl (by decide),
      by decide +kernel⟩, by decide +kernel, by unfold HasRoom; decide +kernel, _, rfl, by decide +kernel⟩,
    ⟨_, rfl, watched (List.replicate 48 0 ++ [3]) 1, ⟨(p _ _).1, rfl, rfl, by decide, by decide +kernel, by decide +kernel, Or.inl (by decide),
      by decide +kernel⟩, by decide +kernel, by unfold HasRoom; decide +kernel, by decide +kernel⟩⟩

/-- A message of the debugger; a free element and one of instance 7; a region under a relay; an instance that is being saved. -/
def debugger (n : Nat) : Am := admin 0x22 (BitVec.ofNat 32 n) 0
def relaying : State := { st with insts := [(7, { inst0 with phase := .relay })] }
def saving : State := { st with insts := [(7, { inst0 with phase := .saving })] }

/-- The least operand out of range, no bound instance, a relay, a save; a page that cannot be read, and an element that runs. -/
theorem met_debugRefusals : (∀ k ∈ [0, 4], Open (debugRefusals (debugger 0x20000) 7 inst0) k) ∧
    (∀ k ∈ [1, 2, 5, 6], Open (debugRefusals (debugger (pe + 1)) 7 inst0) k) ∧
    (∀ k ∈ [3, 7], Open (debugRefusals (debugger se) 7 { inst0 with phase := .saving }) k) ∧
    Open (debugRefusals (debugger 0x1000000) 7 inst0) 8 ∧ Open (debugRefusals (admin 0x21 0 0x1000000000000000) 7 inst0) 9 ∧
    Open (debugRefusals (admin 0x21 (BitVec.ofNat 32 se) 0x40000000) 7 inst0) 10 := by
  have p (a : BitVec 8) (o : Word) (c : DWord) (s : State) (h : s.vfs = st.vfs) (r : s.boot = st.boot) :
      Passes (admin a o c) s ∧ (admin a o c).vf = 511 ∧ (admin a o c).sender = .host := by
    have e : s.vf 511 = st.vf 511 := by unfold State.vf; rw [h]
    refine ⟨⟨⟨?_, fun _ => ?_⟩, by unfold State.running; rw [r]; rfl⟩, rfl, rfl⟩
    · exact (congrArg (·.en) e).trans rfl
    · exact (congrArg (·.expSeq) e).symm
  refine ⟨fun k h => ?_, fun k h => ?_, fun k h => ?_, ⟨_, rfl, st, p _ _ _ st rfl rfl, Or.inl (by decide)⟩,
    ⟨_, rfl, st, p _ _ _ st rfl rfl, by decide, by decide +kernel, Or.inl (by decide), by decide +kernel⟩,
    ⟨_, rfl, st, p _ _ _ st rfl rfl, by decide, by decide +kernel, Or.inl (by decide), by decide +kernel, by decide, by decide +kernel⟩⟩ <;>
    simp only [List.mem_cons, List.not_mem_nil, or_false] at h
  · rcases h with rfl | rfl <;> exact ⟨_, rfl, st, p _ _ _ st rfl rfl, by decide⟩
  · rcases h with rfl | rfl | rfl | rfl
    · exact ⟨_, rfl, st, p _ _ _ st rfl rfl, by decide, by decide +kernel, by decide +kernel⟩
    · exact ⟨_, rfl, relaying, p _ _ _ relaying rfl rfl, by decide, by decide +kernel, (7, { inst0 with phase := .relay }), List.mem_singleton.mpr rfl, by decide +kernel, Or.inl rfl⟩
    · exact ⟨_, rfl, st, p _ _ _ st rfl rfl, by decide, by decide +kernel, by decide +kernel⟩
    · exact ⟨_, rfl, relaying, p _ _ _ relaying rfl rfl, by decide, by decide +kernel, (7, { inst0 with phase := .relay }), List.mem_singleton.mpr rfl, by decide +kernel, Or.inl rfl⟩
  · rcases h with rfl | rfl <;>
      exact ⟨_, rfl, saving, p _ _ _ saving rfl rfl, by decide, by decide +kernel, rfl, Or.inl rfl⟩

/-- The firmware does not run yet. -/
def off : State := { st with boot := .receiver none }

/-- Handler 0 serves instance 7 and holds its 16 messages. -/
def crowded : State :=
  served.modPart 0 (fun p => { p with handlers := upd p.handlers 0 (fun h => { h with queue := List.replicate 16 ⟨7, msg 0x40 0 0⟩ }) })

/-- Before the firmware runs, of a tenant and of VF 511; MAPROOT of VF 511 and of VF 0, whose instance runs; ORDER with a bit set; a user
message to an entry that is off, and to one that is full. -/
theorem met_refusedLate : (∀ k < 15, Open (refusedRules (msg 1 0 0)) (42 + k)) ∧ Open (refusedRules (admin 6 0 0)) 47 ∧
    Open (refusedRules (admin 0x20 511 0)) 57 ∧ Open (refusedRules (admin 0x20 0 0x400)) 58 ∧ Open (refusedRules (msg 6 1 0)) 59 ∧
    Open (refusedRules (msg 0x40 0 0)) 60 ∧ Open (refusedRules (msg 0x40 0 0)) 61 := by
  refine ⟨fun k h => ?_, ⟨_, rfl, off, ⟨rfl, fun _ => rfl⟩, rfl, rfl, Or.inr fun j hj e => ?_⟩,
    ⟨_, rfl, st, ⟨⟨rfl, fun _ => rfl⟩, rfl⟩, rfl, rfl, by decide⟩,
    ⟨_, rfl, st, ⟨⟨rfl, fun _ => rfl⟩, rfl⟩, rfl, rfl, by decide, by decide +kernel⟩, ⟨_, rfl, st, ⟨⟨rfl, fun _ => rfl⟩, rfl⟩, rfl, by decide⟩,
    ⟨_, rfl, st, ⟨⟨rfl, fun _ => rfl⟩, rfl⟩, rfl, by decide, by decide +kernel⟩,
    ⟨_, rfl, crowded, ⟨⟨rfl, fun _ => rfl⟩, rfl⟩, rfl, by decide, by decide +kernel, by decide +kernel⟩⟩
  · interval_cases k <;> exact ⟨_, rfl, off, ⟨rfl, fun _ => rfl⟩, rfl, rfl, Or.inl (by decide)⟩
  · simp only [firmwareInstrs, List.mem_cons, List.not_mem_nil, or_false] at hj
    rcases hj with rfl | rfl <;> cases e

/-- A VF that is off; a SEQ that is not next; a tenant and VF 511, each with the other's message. -/
theorem met_refused (k : Nat) (h : k < 15) : Open (refusedRules { msg 1 0 0 with vf := 3 }) k ∧
    Open (refusedRules { msg 1 0 0 with seq := 5 }) (15 + k) ∧ (k < 6 → Open (refusedRules (msg 1 0 0)) (30 + k)) ∧
    (k < 6 → Open (refusedRules (admin 1 0 0)) (36 + k)) := by
  have h2 : k < 6 → k = 0 ∨ k = 1 ∨ k = 2 ∨ k = 3 ∨ k = 4 ∨ k = 5 := by omega
  refine ⟨?_, ?_, ?_, ?_⟩
  · interval_cases k <;> exact ⟨_, rfl, st, rfl, rfl⟩
  · interval_cases k <;> exact ⟨_, rfl, st, rfl, rfl, by decide⟩
  · intro hk
    obtain rfl | rfl | rfl | rfl | rfl | rfl := h2 hk <;> exact ⟨_, rfl, st, ⟨⟨rfl, fun _ => rfl⟩, rfl⟩, rfl, by decide⟩
  · intro hk
    obtain rfl | rfl | rfl | rfl | rfl | rfl := h2 hk <;> exact ⟨_, rfl, st, ⟨⟨rfl, fun _ => rfl⟩, rfl⟩, rfl, rfl⟩

/-- Power-up; FWLOAD in the receiver state and while the firmware runs; the start. -/
theorem met_boot : Open (bootRules (admin 0x23 16777216 0) 0 [] true) 0 ∧ Open (bootRules (admin 0x23 16777216 0) 0 [] true) 1 ∧
    Open (bootRules (admin 0x23 0 0) 0 [] true) 4 ∧ Open (bootRules (admin 0x23 0 0) 0 [] true) 5 :=
  ⟨⟨_, rfl, State.reset, rfl⟩, ⟨_, rfl, { st with insts := [] }, ⟨rfl, fun _ => rfl⟩, rfl, rfl, by decide, by decide, Or.inr ⟨⟨none, rfl⟩, rfl⟩⟩,
    ⟨_, rfl, { st with boot := .starting }, rfl, rfl⟩, ⟨_, rfl, st, trivial⟩⟩

/-- A closed window: its image passes the part's check or it does not (log 5), and one of the two rules applies. -/
theorem met_firmware (n : Nat) : Open (bootRules (admin 0x24 0 0) 0 [] true) 2 ∨ Open (bootRules (admin 0x24 0 0) 0 [] true) 3 := by
  by_cases h : Config.firmwarePasses (bytesAt st.window 0 n) = true
  · exact Or.inl ⟨_, rfl, { st with boot := .receiver (some n) }, ⟨rfl, fun _ => rfl⟩, rfl, rfl, rfl, n, Or.inl rfl, h⟩
  · exact Or.inr ⟨_, rfl, { st with boot := .receiver (some n) }, ⟨rfl, fun _ => rfl⟩, rfl, rfl, rfl, n, rfl, by simpa using h⟩

/-! ## Hypotheses that are met: the host, other packages and registers -/

theorem opens {l : List EventRule} {k : Nat} {i : Instr} {pre : State → Prop} {post : State → State → Prop}
    (h : l[k]? = some ⟨i, pre, post⟩) (s : State) (hp : pre s) : Open l k := ⟨_, h, s, hp⟩

/-- HBM unit 0 is under scrub. -/
def underScrub : State := st.modUnit 0 (fun u => { u with scrub := true })

theorem unasked {s : State} (h : s.links = []) (i : Instr) : Unasked s i := fun r hr => by
  rw [h] at hr
  exact nomatch hr

/-- An access over a granule boundary, one in a unit of no partition, and one under a scrub. -/
theorem met_host : Open (hostRules 0 0x7C 8 []) 0 ∧ Open (hostRules 0 0x40000000 8 []) 1 ∧
    Open (hostRules 0 0x7C 8 [1, 2, 3, 4, 5, 6, 7, 8]) 2 ∧ Open (hostRules 0 0x40000000 8 [1]) 3 ∧ Open (hostRules 0 0x40000000 8 [1]) 4 ∧
    Open (hostRules 0 0x7C 8 []) 5 ∧ Open (hostRules 0 0x7C 8 [1, 2, 3, 4, 5, 6, 7, 8]) 6 :=
  ⟨opens rfl st ⟨by unfold Reaches; decide +kernel, unasked rfl _⟩, opens rfl st (by decide +kernel),
    opens rfl st ⟨by unfold Reaches; decide +kernel, unasked rfl _⟩, opens rfl st (by decide +kernel), opens rfl st (by decide +kernel),
    opens rfl underScrub (by decide +kernel), opens rfl underScrub (by decide +kernel)⟩

/-- Before any remap, with every port up, a granule of another package has a port. -/
theorem link_port {s : State} (pick : Nat → Nat) (h : s.remapped = []) (hu : s.aqric = List.replicate 36 { up := true }) :
    ∃ p, s.linkOf pick = .port p := by
  have e : s.hashedPort pick = some (pick 36 % 36) := by
    unfold State.hashedPort
    rw [h]
    simp [Nat.mod_lt]
  have up : (nth s.aqric (pick 36 % 36) { up := false }).up = true := by
    unfold nth
    rw [hu, List.getElem?_replicate, if_pos (Nat.mod_lt _ (by decide))]
    rfl
  refine ⟨pick 36 % 36, ?_⟩
  unfold State.linkOf
  rw [e]
  simp only [up, if_true]
  rw [hu]
  simp

/-- With its port down and not yet remapped the granule waits, while another port is up. -/
theorem link_waits {s : State} (pick : Nat → Nat) (h : s.remapped = []) (hu : s.aqric = (List.replicate 36 { up := true }).set (pick 36 % 36) { up := false }) :
    s.linkOf pick = .waits := by
  have lt : pick 36 % 36 < 36 := Nat.mod_lt _ (by decide)
  have e : s.hashedPort pick = some (pick 36 % 36) := by
    unfold State.hashedPort
    rw [h]
    simp [Nat.mod_lt]
  unfold State.linkOf
  rw [e, hu]
  generalize pick 36 % 36 = p at lt
  interval_cases p <;> decide

/-- The ports and the accesses of the link are no part of a walk. -/
theorem hostHome_links (s : State) (a : List AqricPort) (r : List LinkReq) (v va : Nat) (k : AccessWant) :
    ({ s with aqric := a, links := r } : State).hostHome v va k = s.hostHome v va k := rfl

theorem hostWaits_links (s : State) (a : List AqricPort) (r : List LinkReq) (v va : Nat) (k : AccessWant) :
    ({ s with aqric := a, links := r } : State).hostWaits v va k = s.hostWaits v va k := rfl

/-- The page of an access of VF 0 at 0x10000 lies in another package. -/
theorem away_of (k : AccessWant) (hk : k = .load ∨ k = .store) :
    ∃ pkg pa, ∀ a r, LiesAway { abroadPage with aqric := a, links := r } 0 0x10000 8 k pkg pa := by
  have h : (match abroadPage.hostHome 0 0x10000 k with
      | some (.remote _ _ _ _) => true
      | _ => false) = true := by rcases hk with rfl | rfl <;> decide +kernel
  split at h
  · next pkg ptag pa port e =>
    refine ⟨pkg, pa, fun a r => ⟨by decide +kernel, ?_, ptag, port, (hostHome_links _ a r _ _ _).trans e⟩⟩
    rw [hostWaits_links]
    rcases hk with rfl | rfl <;> decide +kernel
  · cases h

/-- The five rules of an access of the host in another package: asked for, no port, waiting, answered, refused or failed. -/
theorem met_away (i : Instr) (k : AccessWant) (hk : k = .load ∨ k = .store) (write : Bool) (got : Nat → HostAnswer) :
    ∃ pkg pa, let r (x : Option LinkAnswer) : LinkReq := ⟨3, .host i, pkg, pa, 8, write, some 0, x⟩
      let open_ (x : Option LinkAnswer) (j : Nat) : Prop := Open (awayRules i 0 0x10000 8 k write got pkg pa (r x)) j
      open_ none 0 ∧ open_ none 1 ∧ open_ none 2 ∧ open_ (some (.done 9)) 3 ∧ open_ (some .refused) 4 ∧ open_ (some .failed) 4 := by
  obtain ⟨pkg, pa, h⟩ := away_of k hk
  refine ⟨pkg, pa, ?_⟩
  intro r open_
  let s (x : Option LinkAnswer) : State := { abroadPage with links := [r x] }
  have mine (x : Option LinkAnswer) : LiesAway (s x) 0 0x10000 8 k pkg pa ∧
      (s x).links.filter (fun y => y.owner = .host i) = [r x] ∧ (r x).pkg = pkg ∧ (r x).pa = pa := by
    refine ⟨h abroadPage.aqric [r x], ?_, rfl, rfl⟩
    exact (List.filter_cons_of_pos (by simp [r])).trans rfl
  refine ⟨opens rfl abroadPage ⟨h abroadPage.aqric abroadPage.links, unasked rfl _, link_port _ rfl (by decide +kernel)⟩,
    opens rfl { abroadPage with aqric := List.replicate 36 { up := false } } ⟨h _ abroadPage.links, unasked rfl _, by decide +kernel⟩,
    opens rfl (s none) ⟨mine none, rfl⟩, opens rfl (s (some (.done 9))) ⟨mine _, 9, rfl⟩,
    opens rfl (s (some .refused)) ⟨mine _, Or.inl rfl⟩, opens rfl (s (some .failed)) ⟨mine _, Or.inr rfl⟩⟩

/-- The last bytes of a granule, and an atomic; a PTAG that is not the owner's, and an address past HBM. -/
theorem met_package (k : Nat) (h : k < 5) : Open (packageRules 1 0 60 4 [1, 2, 3, 4] 0 1 2 (.load 4)) k := by
  interval_cases k <;> exact opens rfl st (by decide +kernel)

theorem met_packageRefused : Open (packageRules 1 1 60 4 [] 0 1 2 (.load 4)) 5 ∧
    Open (packageRules 1 0 0x40000000000 4 [] 0 1 2 (.load 4)) 5 ∧ Open (packageRules 1 0 60 4 [] 0 1 2 (.load 4)) 6 :=
  ⟨opens rfl st (by decide +kernel), opens rfl st (by decide +kernel), opens rfl underScrub (by decide +kernel)⟩

/-- A user message waits for a task that runs, and for one that no launch has. -/
def queued (task : BitVec 16) : State :=
  { st.modPart 0 (fun p => { p with handlers := upd p.handlers 0 (fun h => { h with hen := true, task, queue := [⟨3, msg 0x40 0 0⟩] }) }) with
    insts := [(7, { inst0 with baton := some (se, 0) })] }

/-- VF 0 has a message that waits for the card, of an element or of the device. -/
def outgoing (sender : Option (Nat × Option Nat)) : State := st.modVf 0 (fun v => { v with out := [⟨0x80, 0, 0, 0, sender⟩] })

/-- An ORDER stands behind that message. -/
def order0 : Queued := ⟨4, msg 6 0 0⟩
def ordered : State := (queued 0).modVf 0 (fun v => { v with orders := [order0] })

theorem met_delivery : Open (deliveryRules 0 0 0 se 0 ⟨3, msg 0x40 0 0⟩ [] order0 ⟨0x80, 0, 0, 0, none⟩ []) 0 ∧
    Open (deliveryRules 0 0 0 se 0 ⟨3, msg 0x40 0 0⟩ [] order0 ⟨0x80, 0, 0, 0, none⟩ []) 1 ∧
    Open (deliveryRules 0 0 0 se 0 ⟨3, msg 0x40 0 0⟩ [] order0 ⟨0x80, 0, 0, 0, none⟩ []) 2 ∧
    Open (deliveryRules 0 0 0 se 0 ⟨3, msg 0x40 0 0⟩ [] order0 ⟨0x80, 0, 0, 0, none⟩ []) 3 ∧
    Open (deliveryRules 0 0 0 se 0 ⟨3, msg 0x40 0 0⟩ [] order0 ⟨0x80, 0, 0, 0, some (se, some 6)⟩ []) 4 := by
  have r : ∀ s ∈ [queued 0, ordered], (nth (s.part 0).handlers 0 { }).queue = [⟨3, msg 0x40 0 0⟩] ∧
      (∃ x, s.served? 0 (nth (s.part 0).handlers 0 { }).task.toNat = some x ∧ x.baton = some (se, 0) ∧ x.phase = .run ∧
        x.finInjected = false) ∧
      (s.elem se).inRoom (nth (s.part 0).handlers 0 { }).port.toNat = true ∧ (s.elem se).state = .run ∧
      (s.tile (tileOf se)).hopsStopped = false := by
    simp only [List.forall_mem_cons, List.not_mem_nil, false_implies, implies_true, and_true]
    exact ⟨⟨by decide +kernel, ⟨{ inst0 with baton := some (se, 0) }, by decide +kernel, rfl, rfl, rfl⟩, by decide +kernel⟩,
      ⟨by decide +kernel, ⟨{ inst0 with baton := some (se, 0) }, by decide +kernel, rfl, rfl, rfl⟩, by decide +kernel⟩⟩
  exact ⟨opens rfl (queued 0) ⟨r _ (by simp), by decide +kernel⟩,
    opens rfl ordered ⟨r _ (by simp), by decide +kernel, rfl, by decide +kernel⟩,
    opens rfl (queued 9) (by decide +kernel), ⟨_, rfl, outgoing none, by decide +kernel, rfl⟩,
    ⟨_, rfl, outgoing (some (se, some 6)), by decide +kernel, 6, rfl⟩⟩

/-- The state without instances or launches. -/
def quiet : State := { st with insts := [], launches := [], elems := [] }

theorem met_admin (k : Nat) (h : k < 12) (h2 : k ≠ 2) : Open (adminWrites 3 0 9 0 0x400000000000 31) k := by
  interval_cases k <;> first | exact absurd rfl h2 | exact opens rfl quiet (by decide +kernel)

/-- Control registers with REARM below CEILING, where the write is taken. -/
theorem met_control : Open (adminWrites 3 0 9 0 0x10001 31) 2 := opens rfl quiet (by decide +kernel)

theorem met_tenant (who : BitVec 9) (h : who = 0 ∨ who = 511) : Open (tenantWrites who 0 3 0 true 0) 0 ∧
    Open (tenantWrites who 0 3 0 false 0) 1 ∧ Open (tenantWrites who 0 3 0 false 0x8000000000) 2 ∧
    Open (tenantWrites who 0 3 0 false 0) 3 ∧ Open (tenantWrites who 0 3 0 false 1) 4 ∧ Open (tenantWrites who 0 15 0x10003C false 0) 5 ∧
    Open (tenantWrites who 0 3 0x100118 false 0) 6 ∧ Open (tenantWrites who 0 3 0x100120 false 0) 7 := by
  obtain rfl | rfl := h
  · and_intros <;> first | exact opens rfl quiet (by decide +kernel) | exact opens rfl st (by decide +kernel)
  · and_intros <;> first
      | exact opens rfl quiet (by decide +kernel)
      | exact opens rfl st (by decide +kernel)
      | exact opens rfl { quiet with units := [] } (by decide +kernel)

theorem met_plain : Open (plainWrites 0 0 0xFFFFFF 0x100080 0) 0 ∧ Open (plainWrites 0 15 0 0x2078 0) 1 ∧
    Open (plainWrites 0 0 0xFFFFFF 0x10FFFFFF 0) 2 ∧ Open (plainWrites 0 0 0xFFFFFF 0x10FFFFFF 0) 3 ∧
    Open (plainWrites 0 0 0 0x1188 0) 4 ∧ Open (plainWrites 0 0 0 0x1190 0) 5 := by
  and_intros <;> first
    | exact opens rfl st (by decide +kernel)
    | exact opens rfl { st with boot := .receiver (some 16777216) } (by decide +kernel)

/-- VF 0 at registers of VF 511, and of partition 1. -/
theorem met_foreign (k : Nat) (h : k < 13) : Open (foreignWrites 0 0 1 0 0 false 0 0 0) k := by
  interval_cases k <;> exact opens rfl st (by decide +kernel)

theorem met_foreignWrite : Open (foreignWrites 0 0 1 0 0x110000 false 0 0 0) 13 ∧ Open (foreignWrites 0 0 1 0 0x2000 false 0 0 0) 14 :=
  ⟨opens rfl st (by decide +kernel), opens rfl st ⟨by decide, Or.inr (Or.inl (by decide +kernel))⟩⟩

/-! ## Hypotheses that are met: the fabric -/

def tok0 : Token := ⟨Lanes.all 0, 0, none⟩

/-- The PE with a route of its first entry, and the token of its route buffer or its output queue. -/
def routed (r : BitVec 32) (rb oq : List Token) : State :=
  st.modElem pe (fun e => { e with
    bank := { e.bank with routes := e.bank.routes.set 0 r }, rb := e.rb.set 0 rb.head?, oq := e.oq.set 0 oq, credits := List.replicate 16 1 })

/-- To queue 1 of the SE; to a PE that nothing runs on; to channel 0 of tile 1; into the route buffer. -/
theorem met_transfer : Open (transferRules pe 0 0x80000041 tok0 7 (1, 0)) 0 ∧ Open (transferRules pe 0 0x80000024 tok0 7 (1, 0)) 1 ∧
    Open (transferRules pe 0 0xE0000001 tok0 7 (1, 0)) 2 ∧ Open (transferRules pe 0 0xE0000001 tok0 7 (1, 0)) 3 :=
  ⟨opens rfl (routed 0x80000041 [tok0] []) (by decide +kernel), opens rfl (routed 0x80000024 [tok0] []) (by decide +kernel),
    opens rfl (routed 0xE0000001 [tok0] []) (by decide +kernel), opens rfl (routed 0xE0000001 [] [tok0]) (by decide +kernel)⟩

/-- A message from tile 1, and tile 0 with its endpoint 0 at queue 1 of the SE and what the channel holds. -/
def far0 : FarTok := ⟨tok0, pe, 0, 7⟩
def msgOf (b : MsgBody) : Msg := ⟨9, 1, 0, b⟩
def receiving (b : MsgBody) (d : BitVec 32) (held : List FarTok) : State :=
  { st.modTile 0 (fun t => { t with endpoints := t.endpoints.set 0 d, epBuf := t.epBuf.set 0 held }) with track := [msgOf b] }

/-- A buffer of seven tokens and one of eight. -/
theorem met_far : Open (farRules 9 (msgOf (.far 0 far0)) 0 0 pe 0 7 far0 [] (se, 1)) 0 ∧
    Open (farRules 9 (msgOf (.far 0 far0)) 0 0 pe 0 7 far0 [] (se, 1)) 1 ∧
    Open (farRules 9 (msgOf (.far 0 far0)) 0 0 pe 0 7 far0 [] (se, 1)) 2 ∧
    Open (farRules 9 (msgOf (.far 0 far0)) 0 0 pe 0 7 far0 [] (se, 1)) 3 ∧
    Open (farRules 9 (msgOf (.credit pe 0 7)) 0 0 pe 0 7 far0 [] (se, 1)) 4 ∧
    Open (farRules 9 (msgOf (.credit pe 0 8)) 0 0 pe 0 8 far0 [] (se, 1)) 5 :=
  ⟨opens rfl (receiving (.far 0 far0) 0x80000041 (List.replicate 7 far0)) (by decide +kernel),
    opens rfl (receiving (.far 0 far0) 0x80000041 (List.replicate 8 far0)) (by decide +kernel),
    opens rfl (receiving (.far 0 far0) 0 []) (by decide +kernel), opens rfl (receiving (.far 0 far0) 0x80000041 [far0]) (by decide +kernel),
    opens rfl (receiving (.credit pe 0 7) 0 []) (by decide +kernel), opens rfl (receiving (.credit pe 0 8) 0 []) (by decide +kernel)⟩

/-- An access of the AG on its way to 0x1000. -/
def acc0 (stage : AccStage) (kind : AccKind) : Access := ⟨3, 2, ag, 0, 0x1000, kind, .hbm 0x1000, stage⟩
def op0 : MemOp := ⟨2, firing0, 7, ag, 0, none, 0, .none, [], Lanes.all 0, false, false, [], false⟩

theorem met_track : Open (trackRules 0 9 3 7 false (msgOf (.far 0 far0)) (acc0 .egress (.load 0 64)) 0 far0) 0 ∧
    Open (trackRules 0 9 3 7 false (msgOf (.access 3)) (acc0 .egress (.load 0 64)) 0 far0) 1 ∧
    Open (trackRules 0 9 3 7 true (msgOf (.far 0 far0)) (acc0 .egress (.load 0 64)) 0 far0) 2 ∧
    Open (trackRules 0 9 3 8 true (msgOf (.credit pe 0 8)) (acc0 .egress (.load 0 64)) 0 far0) 3 :=
  ⟨opens rfl (st.modTile 0 (fun t => { t with egressReq := [msgOf (.far 0 far0)] })) ⟨by decide +kernel, fun _ h => nomatch h⟩,
    opens rfl { st.modTile 0 (fun t => { t with egressReq := [msgOf (.access 3)] }) with accs := [(3, acc0 .egress (.load 0 64))] }
      (by decide +kernel),
    opens rfl (receiving (.far 0 far0) 0 []) (by decide +kernel),
    opens rfl (receiving (.credit pe 0 8) 0 []) ⟨by decide +kernel, pe, 0, rfl, by decide +kernel⟩⟩

/-- FINISH at the head of queue 0 of the SE, with what stands in queue 1. -/
def finish : Token := ⟨Lanes.empty, 0xF, none⟩
def finishing (l : List Token) : State := st.modElem se (fun e => { e with iq := [[finish], l, [], []] })

/-- The SE stopping; the other elements of its instance. -/
def ending (others : NMap Element) : State := { st with elems := others ++ [(se, { elem0 with state := .stopping })] }

theorem met_finish : Open (finishRules se 0 7 finish []) 0 ∧ Open (finishRules se 0 7 finish []) 1 ∧
    Open (finishRules se 0 7 finish []) 2 ∧ Open (finishRules se 0 7 finish []) 3 ∧ Open (finishRules se 0 7 finish []) 4 :=
  ⟨opens rfl (finishing []) (by decide +kernel), opens rfl (finishing [tok0]) (by decide +kernel), opens rfl (ending []) (by decide +kernel),
    opens rfl (ending [(ag, elem0)]) ⟨by decide +kernel, inst0, by decide +kernel, by decide, by decide +kernel⟩,
    opens rfl (ending []) ⟨by decide +kernel, inst0, by decide +kernel⟩⟩

/-- The PE with words in its slots. -/
def slotted (ws : List (Option (BitVec 128))) (age : Nat) (inflight : List Firing) : State :=
  st.modElem pe (fun e => { e with
    bank := { e.bank with slots := ws.map (·.getD 0) }, en := 0xFFFF, age := age :: List.replicate 15 0, inflight := inflight })

/-- No slot; a MOV from v0 to v0; the same while another is in flight, at age 63 and 64. -/
def movWord : Option (BitVec 128) := encodeWord (.mov { slot0 with da := .v 0, sa := .v 0 })

theorem met_selection : Open (selectionRules pe 7) 0 ∧ Open (selectionRules pe 7) 1 ∧ Open (selectionRules pe 7) 2 :=
  ⟨opens rfl st (by unfold MaySelect; decide +kernel), opens rfl (slotted [movWord] 63 []) (by unfold MaySelect; decide +kernel),
    opens rfl (slotted [movWord] 64 [{ firing0 with word := movWord.getD 0, remaining := 1 }]) (by unfold MaySelect; decide +kernel)⟩

/-! ## Hypotheses that are met: memory and links -/

/-- The access of the AG that waits for its walk, with memory that holds the page tables or nothing. -/
def walking : Access := { acc0 .walk (.load 0 64) with home := .unset }
def walks (m : List Host.Cell) : State := { mapped with hbm := m, accs := [(3, walking)], ops := [(2, op0)] }

theorem met_walk : Open (walkRules 3 walking op0 page0 0x1000 cXLATE 7) 0 ∧ Open (walkRules 3 walking op0 page0 0x1000 cXLATE 7) 1 := by
  have w : ∀ m ∈ [mapped.hbm, []], Walks (walks m) 3 walking op0 := by
    unfold Walks
    decide +kernel
  exact ⟨opens rfl (walks mapped.hbm) ⟨w _ (by simp), by decide +kernel, by decide +kernel⟩,
    opens rfl (walks []) ⟨w _ (by simp), by decide +kernel, by decide +kernel, rfl, by decide +kernel⟩⟩

/-- The same access of each kind at its home. -/
def homed (kind : AccKind) : State :=
  { mapped with accs := [(3, acc0 .track kind)], ops := [(2, op0)], track := [msgOf (.access 3)] }

theorem atHome (kind : AccKind) : AtHome (homed kind) 3 (acc0 .track kind) op0 0x1000 := by
  refine ⟨⟨rfl, rfl, rfl, rfl, ?_, rfl⟩, (by decide +kernel : mapped.scrubbing 0x1000 = false)⟩
  exact (by decide +kernel : ((homed (.load 0 64)).accMsg (acc0 .track (.load 0 64))).isSome = true)

/-- A load of a granule, a store of its last byte, one of a POISON token, an atomic of two lanes on one word, with POISON, and a CAS. -/
theorem met_home : Open (homeRules 3 (acc0 .track (.load 0 64)) op0 0x1000 0 64 [] 0 [] [] false) 0 ∧
    Open (homeRules 3 (acc0 .track (.store [(63, 1)] false)) op0 0x1000 0 64 [(63, 1)] 0 [] [] false) 1 ∧
    Open (homeRules 3 (acc0 .track (.store [(63, 1)] true)) op0 0x1000 0 64 [(63, 1)] 0 [] [] false) 2 ∧
    Open (homeRules 3 (acc0 .track (.atomic 15 [(3, 60, 7), (15, 60, 1)] true)) op0 0x1000 60 4 [] 15 [(3, 60, 7), (15, 60, 1)] [] true) 3 ∧
    Open (homeRules 3 (acc0 .track (.cas [(0, 0, 7, 1), (15, 60, 0, 1)] false)) op0 0x1000 60 4 [] 15 []
      [(0, 0, 7, 1), (15, 60, 0, 1)] false) 4 :=
  ⟨opens rfl (homed (.load 0 64)) ⟨atHome _, rfl⟩, opens rfl (homed (.store [(63, 1)] false)) ⟨atHome _, rfl⟩,
    opens rfl (homed (.store [(63, 1)] true)) ⟨atHome _, rfl⟩, opens rfl (homed (.atomic 15 [(3, 60, 7), (15, 60, 1)] true)) ⟨atHome _, rfl, by decide⟩,
    opens rfl (homed (.cas [(0, 0, 7, 1), (15, 60, 0, 1)] false)) ⟨atHome _, rfl, by decide⟩⟩

theorem met_homeScrub : Open (homeRules 3 (acc0 .track (.load 0 64)) op0 0x1000 0 64 [] 0 [] [] false) 5 :=
  opens rfl { homed (.load 0 64) with units := [(0, { owner := 0, scrub := true })] }
    ⟨⟨rfl, rfl, rfl, rfl, by decide +kernel, rfl⟩, by decide +kernel⟩

/-- An access elsewhere, on its way or asked of the other package; another access to its granule may stand before it. -/
def gone (h : Home) (stage : AccStage) (kind : AccKind) : Access := { acc0 stage kind with home := h }
def goneState (h : Home) (stage : AccStage) (kind : AccKind) : State :=
  { mapped with accs := [(3, gone h stage kind)], ops := [(2, op0)], track := [msgOf (.access 3)] }

theorem waiting_of (h : Home) (kind : AccKind) (hh : h ≠ .unset) : Waiting (goneState h .track kind) 3 (gone h .track kind) op0 h := by
  refine ⟨rfl, rfl, rfl, rfl, ?_, rfl⟩
  have e : (goneState h .track kind).accMsg (gone h .track kind) = (msgOf (.access 3) : Option Msg) := by
    cases h <;> first | exact absurd rfl hh | rfl
  rw [e]
  rfl

/-- The registers of device MMIO; a package that takes the access, one whose port is still to be remapped, and one that no port reaches. -/
theorem met_awayHome : (Open (awayHomeRules 3 (gone (.mmio 0x40000000000) .track (.load 0 8)) op0 1 0 0x40000000000 0 8 0 7 [] 0 [] false) 0) ∧
    Open (awayHomeRules 3 (gone (.mmio 0x40000000000) .track (.store [(0, 1)] false)) op0 1 0 0x40000000000 0 8 0 7 [(0, 1)] 0 [] false) 1 ∧
    (∃ p, Open (awayHomeRules 3 (gone (.remote 1 0 0x1000 0) .track (.load 0 64)) op0 1 0 0x1000 0 64 p 7 [] 0 [] false) 2) ∧
    Open (awayHomeRules 3 (gone (.remote 1 0 0x1000 0) .track (.load 0 64)) op0 1 0 0x1000 0 64 0 7 [] 0 [] false) 3 ∧
    Open (awayHomeRules 3 (gone (.remote 1 0 0x1000 0) .track (.load 0 64)) op0 1 0 0x1000 0 64 0 7 [] 0 [] false) 4 := by
  have w (k : AccKind) := waiting_of (.remote 1 0 0x1000 0) k (by simp)
  let s : State := goneState (.remote 1 0 0x1000 0) .track (.load 0 64)
  have ports (a : List AqricPort) : Waiting { s with aqric := a } 3 (gone (.remote 1 0 0x1000 0) .track (.load 0 64)) op0 (.remote 1 0 0x1000 0) := w _
  obtain ⟨p, hp⟩ := link_port (s := s) (Config.aqricHash 1 (0x1000 / 64)) rfl (by decide +kernel)
  refine ⟨opens rfl (goneState (.mmio 0x40000000000) .track (.load 0 8)) ⟨waiting_of _ _ (by simp), rfl⟩,
    opens rfl (goneState (.mmio 0x40000000000) .track (.store [(0, 1)] false)) ⟨waiting_of _ _ (by simp), rfl⟩,
    ⟨p, opens rfl s ⟨w _, hp⟩⟩, opens rfl { s with aqric := s.aqric.set (Config.aqricHash 1 (0x1000 / 64) 36 % 36) { up := false } } ⟨ports _, ?_⟩,
    opens rfl { s with aqric := List.replicate 36 { up := false } } ⟨ports _, by decide +kernel, by decide +kernel, rfl⟩⟩
  exact link_waits (Config.aqricHash 1 (0x1000 / 64)) rfl rfl

/-- The other package performs or refuses (log 7): of each kind one of two rules applies. -/
theorem met_awayAsked : ∀ x ∈ [(AccKind.load 0 64, 5), (.store [(0, 1)] true, 6), (.atomic 15 [(0, 0, 1), (15, 60, 1)] false, 7)],
    let rules : List EventRule := awayHomeRules 3 (gone (.remote 1 0 0x1000 0) (.aqric 9) x.1) op0 1 0 0x1000 0 64 0 7 [(0, 1)] 15
      [(0, 0, 1), (15, 60, 1)] (x.2 == 6)
    Open rules x.2 ∨ Open rules 8 := by
  have on (k : AccKind) (hk : k ∈ [AccKind.load 0 64, .store [(0, 1)] true, .atomic 15 [(0, 0, 1), (15, 60, 1)] false]) :
      OnLink (goneState (.remote 1 0 0x1000 0) (.aqric 9) k) 3 (gone (.remote 1 0 0x1000 0) (.aqric 9) k) op0 1 0x1000 := by
    refine ⟨rfl, rfl, rfl, ⟨0, 0, rfl⟩, 9, rfl, ?_⟩
    rcases List.mem_cons.mp hk with rfl | hk
    · decide +kernel
    rcases List.mem_cons.mp hk with rfl | hk
    · decide +kernel
    rw [List.mem_singleton.mp hk]
    decide +kernel
  simp only [List.forall_mem_cons, List.not_mem_nil, false_implies, implies_true, and_true]
  by_cases r : Config.remoteRefuses mapped.fresh 0x1000 = true
  · exact ⟨Or.inr (opens rfl _ ⟨⟨on _ (by simp), r⟩, by decide +kernel, rfl⟩), Or.inr (opens rfl _ ⟨⟨on _ (by simp), r⟩, by decide +kernel, rfl⟩),
      Or.inr (opens rfl _ ⟨⟨on _ (by simp), r⟩, by decide +kernel, rfl⟩)⟩
  · have r : Config.remoteRefuses mapped.fresh 0x1000 = false := by simpa using r
    exact ⟨Or.inl (opens rfl _ ⟨⟨on _ (by simp), r⟩, rfl⟩), Or.inl (opens rfl _ ⟨⟨on _ (by simp), r⟩, rfl⟩),
      Or.inl (opens rfl _ ⟨⟨on _ (by simp), r⟩, rfl⟩)⟩

/-- A request of the link for a granule, and an earlier one. -/
def req0 (owner : LinkOwner) (id : Nat) : LinkReq := ⟨id, owner, 1, 0x1000, 64, false, some 0, none⟩

theorem met_link : Open (linkRules 3 (req0 (.graph 5) 3)) 0 ∧ Open (linkRules 3 (req0 .write 3)) 1 ∧ Open (linkRules 3 (req0 .write 3)) 2 :=
  ⟨opens rfl { st with links := [req0 (.graph 5) 3] } (by decide +kernel), opens rfl { st with links := [req0 .write 3] } (by decide +kernel),
    opens rfl { st with links := [req0 .write 2, req0 .write 3] } (by decide +kernel)⟩

/-- A copy of one granule at the end of the SRAM, in or out, before or after it has performed. -/
def copy0 (dir : Nat) (lap : Option (Nat × Nat)) (done : List Nat) : Copy :=
  { id := 2, firing := firing0, eid := se, dir, laddr := 0x7FFFC0, va := 0x1000, len := 64, scope := 0, entry := some 6, lap, performed := done,
    acc0 := 20 }
def copying (c : Copy) : State := mapped.modTile 0 (fun t => { t with copies := [c] })

/-- The bank of that granule has taken its event of this step. -/
def bankTaken (tile addr : Nat) (s : State) : State :=
  s.modTile tile (fun t => { t with bankStep := (s.cluster 0).steps, banks := [(bankOf (addr / 64), none)] })

/-- What the copy asked of another package, and the answer. -/
def copyReq (x : LinkAnswer) : LinkReq := ⟨3, .copy 20, 1, 0x1000, 64, false, some 0, some x⟩
def copyAnswered (c : Copy) (x : LinkAnswer) : State := { copying c with links := [copyReq x] }

theorem met_copies : Open (copyRules 20 0 (copy0 0 none []) 0x1000 1 7 0 (copyReq .refused)) 0 ∧
    Open (copyRules 20 0 (copy0 1 none []) 0x1000 1 7 0 (copyReq .refused)) 1 ∧
    Open (copyRules 20 0 (copy0 0 none []) 0x1000 1 7 0 (copyReq .refused)) 2 ∧
    Open (copyRules 20 0 (copy0 1 none []) 0x1000 1 7 0 (copyReq .refused)) 2 := by
  have h : BankFree (copying (copy0 0 none [])) 0 true 20 (bankOf (0x7FFFC0 / 64)) ∧
      BankFree (copying (copy0 1 none [])) 0 true 20 (bankOf (0x7FFFC0 / 64)) := by
    unfold BankFree
    decide +kernel
  have k : BankTaken (bankTaken 0 0x7FFFC0 (copying (copy0 0 none []))) 0 (bankOf (0x7FFFC0 / 64)) ∧
      BankTaken (bankTaken 0 0x7FFFC0 (copying (copy0 1 none []))) 0 (bankOf (0x7FFFC0 / 64)) := by
    unfold BankTaken
    decide +kernel
  exact ⟨opens rfl (copying (copy0 0 none [])) ⟨by decide +kernel, by decide, h.1⟩,
    opens rfl (copying (copy0 1 none [])) ⟨by decide +kernel, by decide, h.2⟩,
    opens rfl (bankTaken 0 0x7FFFC0 (copying (copy0 0 none []))) ⟨by decide +kernel, k.1⟩,
    opens rfl (bankTaken 0 0x7FFFC0 (copying (copy0 1 none []))) ⟨by decide +kernel, k.2⟩⟩

/-- In and out, the other package answers; it refuses; or the port fails. -/
theorem met_copiesAway : Open (copyRules 20 0 (copy0 0 none []) 0x1000 1 7 0 (copyReq (.done 9))) 4 ∧
    Open (copyRules 20 0 (copy0 1 none []) 0x1000 1 7 0 (copyReq (.done 9))) 5 ∧
    Open (copyRules 20 0 (copy0 1 none []) 0x1000 1 7 0 (copyReq .refused)) 6 ∧
    Open (copyRules 20 0 (copy0 1 none []) 0x1000 1 7 0 (copyReq .failed)) 6 := by
  have h : BankFree (copyAnswered (copy0 0 none []) (.done 9)) 0 true 20 (bankOf (0x7FFFC0 / 64)) := by
    unfold BankFree
    decide +kernel
  exact ⟨opens rfl (copyAnswered (copy0 0 none []) (.done 9)) ⟨⟨9, by decide +kernel⟩, by decide, h⟩,
    opens rfl (copyAnswered (copy0 1 none []) (.done 9)) ⟨⟨9, by decide +kernel⟩, by decide⟩,
    opens rfl (copyAnswered (copy0 1 none []) .refused) ⟨Or.inl (by decide +kernel), by decide +kernel⟩,
    opens rfl (copyAnswered (copy0 1 none []) .failed) ⟨Or.inr (by decide +kernel), by decide +kernel⟩⟩

/-- The copy's page lies in another package: its port is asked. -/
theorem met_copyAsks : ∃ pa pkg i p, Open (copyRules 20 0 { copy0 0 none [] with va := 0x10000 } pa pkg i p (copyReq .refused)) 3 := by
  let c : Copy := { copy0 0 none [] with va := 0x10000 }
  let s : State := abroadPage.modTile 0 (fun t => { t with copies := [c] })
  have h : (match (s.translate (quarterOf c.eid) (s.vfOf c.eid) (c.va + 64 * (20 - c.acc0)) .load false).1 with
      | .ok (.remote pkg i pa 0) => decide (s.homeWaits (some 0) (.remote pkg i pa 0) = false)
      | _ => false) = true := by decide +kernel
  split at h
  · next pkg i pa e =>
    obtain ⟨p, hp⟩ := link_port (s := s) (Config.aqricHash pkg (pa / 64)) rfl (by decide +kernel)
    exact ⟨pa, pkg, i, p, opens rfl s ⟨⟨by decide +kernel, by decide +kernel, by decide +kernel, by decide, e, of_decide_eq_true h⟩, by decide, hp⟩⟩
  · cases h

/-- A store or an atomic of an SE at the last word of the SRAM of tile 1. -/
def away (kind : AccKind) : Access := { acc0 .track kind with eid := se, home := .sram 1 0x7FFFFC }
def opOut (entry : Option Nat) : MemOp := { op0 with eid := se, entry }
def awayState (kind : AccKind) (entry : Option Nat) : State :=
  { mapped with accs := [(3, away kind)], ops := [(2, opOut entry)], track := [msgOf (.access 3)] }

/-- The same while tile 1 is gated. -/
def gatedAway (kind : AccKind) (entry : Option Nat) : State := (awayState kind entry).modTile 1 (fun t => { t with gate := .gated })

theorem met_remoteStore : Open (remoteStoreRules 3 (away (.store [(0, 1), (3, 1)] false)) (opOut none) 1 0x7FFFFC 7 [(0, 1), (3, 1)] 0 [] false) 0 ∧
    Open (remoteStoreRules 3 (away (.atomic 15 [(0, 0, 1), (15, 4, 2)] true)) (opOut none) 1 0x7FFFFC 7 [] 15 [(0, 0, 1), (15, 4, 2)] true) 1 ∧
    Open (remoteStoreRules 3 (away (.store [(0, 1), (3, 1)] false)) (opOut (some 6)) 1 0x7FFFFC 7 [] 0 [] false) 2 ∧
    Open (remoteStoreRules 3 (away (.store [(0, 1), (3, 1)] false)) (opOut none) 1 0x7FFFFC 7 [] 0 [] false) 3 ∧
    Open (remoteStoreRules 3 (away (.store [(0, 1), (3, 1)] false)) (opOut none) 1 0x7FFFFC 7 [] 0 [] false) 4 := by
  have h : BankFree (awayState (.store [(0, 1), (3, 1)] false) none) 1 false 3 (bankOf (0x7FFFFC / 64)) ∧
      BankFree (awayState (.atomic 15 [(0, 0, 1), (15, 4, 2)] true) none) 1 false 3 (bankOf (0x7FFFFC / 64)) ∧
      BankTaken (bankTaken 1 0x7FFFFC (awayState (.store [(0, 1), (3, 1)] false) none)) 1 (bankOf (0x7FFFFC / 64)) := by
    unfold BankFree BankTaken
    decide +kernel
  have w (kind : AccKind) (n : Option Nat) : Waiting (awayState kind n) 3 (away kind) (opOut n) (.sram 1 0x7FFFFC) :=
    ⟨rfl, rfl, rfl, rfl, rfl, rfl⟩
  refine ⟨opens rfl (awayState (.store [(0, 1), (3, 1)] false) none) ⟨⟨w _ _, by decide +kernel⟩, rfl, h.1⟩,
    opens rfl (awayState (.atomic 15 [(0, 0, 1), (15, 4, 2)] true) none) ⟨⟨w _ _, by decide +kernel⟩, rfl, by decide, h.2.1⟩,
    opens rfl (gatedAway (.store [(0, 1), (3, 1)] false) (some 6)) ⟨⟨rfl, rfl, rfl, rfl, by decide +kernel, rfl⟩, by decide +kernel, by decide +kernel, rfl⟩,
    opens rfl (gatedAway (.store [(0, 1), (3, 1)] false) none)
      ⟨⟨rfl, rfl, rfl, rfl, by decide +kernel, rfl⟩, by decide +kernel, by decide +kernel, rfl, by decide +kernel, rfl⟩,
    opens rfl (bankTaken 1 0x7FFFFC (awayState (.store [(0, 1), (3, 1)] false) none))
      ⟨⟨⟨rfl, rfl, rfl, rfl, by decide +kernel, rfl⟩, by decide +kernel⟩, h.2.2⟩⟩

/-- A LOAD stream of one token that prefetches, its next token cut or to be read from `m`. -/
def loading (ahead : List Prefetched) (s : State) : State :=
  s.modElem ag (fun e => { e with streams := upd e.streams 0 (fun t =>
    { t with cfg := { v := true, base := 0x10000, ext := [16, 1, 1, 1, 1], stride := [1, 0, 0, 0, 0] }, mode := .prefetching, ahead }) })

def moved0 : Prefetched := ⟨tok0, none, { }, 0⟩
def answer0 : Answer := ⟨6, 0, 0, false, some tok0⟩

theorem met_answers : Open (answerRules ag 0 0 2 answer0 tok0 (copy0 0 none [0]) moved0 [] (3, 1, 0) ([], false)) 0 ∧
    Open (answerRules ag 0 0 2 answer0 tok0 (copy0 0 none [0]) moved0 [] (3, 1, 0) ([], false)) 5 ∧
    Open (answerRules ag 0 0 2 answer0 tok0 (copy0 0 none [0]) moved0 [] (3, 1, 0) ([], false)) 6 ∧
    Open (answerRules ag 0 0 2 answer0 tok0 (copy0 2 (some (0, 0)) [0]) moved0 [] (3, 1, 0) ([], false)) 7 :=
  ⟨opens rfl (loading [moved0] st) (by decide +kernel), opens rfl (st.modElem ag (fun e => { e with ans := [answer0] })) (by decide +kernel),
    opens rfl (copying (copy0 0 none [0])) (by decide +kernel),
    opens rfl (copying (copy0 2 (some (0, 0)) [0])) ⟨by decide +kernel, by decide +kernel, 0, 0, rfl, by decide +kernel⟩⟩

/-- What a prefetch finds: tokens, a wait for a scrub, or a fault. -/
inductive Found where
  | tokens | waits | stops | other
deriving DecidableEq, Repr

def found (s : State) : Found := match (s.fetchTokens ag 0 ((s.elem ag).stream 0)).1 with
  | .ok (_ :: _) => .tokens
  | .ok [] => .other
  | .error .wait => .waits
  | .error (.fault _) => .stops

/-- The prefetch reads its token; while the page tables are under a scrub it waits; without page tables it faults. -/
theorem met_prefetch : (∃ p rest, Open (answerRules ag 0 0 2 answer0 tok0 (copy0 0 none [0]) p rest (3, 1, 0) ([], false)) 1) ∧
    Open (answerRules ag 0 0 2 answer0 tok0 (copy0 0 none [0]) moved0 [] (3, 1, 0) ([], false)) 2 ∧
    ∃ f, Open (answerRules ag 0 0 2 answer0 tok0 (copy0 0 none [0]) moved0 [] f ([], false)) 4 := by
  have h : found (loading [] mapped) = .tokens ∧ found (loading [] scrubbed) = .waits ∧ found (loading [] { mapped with hbm := [] }) = .stops := by
    decide +kernel
  refine ⟨?_, ?_, ?_⟩
  · have h := h.1
    unfold found at h
    split at h
    · next p rest e => exact ⟨p, rest, opens rfl (loading [] mapped) ⟨by decide +kernel, by decide +kernel, e⟩⟩
    all_goals cases h
  · have h := h.2.1
    unfold found at h
    split at h
    · cases h
    · cases h
    · next e => exact opens rfl (loading [] scrubbed) ⟨by decide +kernel, by decide +kernel, e⟩
    · cases h
  · have h := h.2.2
    unfold found at h
    split at h
    · cases h
    · cases h
    · cases h
    · next f e => exact ⟨f, opens rfl (loading [] { mapped with hbm := [] }) ⟨by decide +kernel, by decide +kernel, e⟩⟩

/-- The template of an EGRESS stream is read. -/
theorem met_template : ∃ x, Open (answerRules ag 0 0 2 answer0 tok0 (copy0 0 none [0]) moved0 [] (3, 1, 0) x) 3 := by
  let s : State := mapped.modElem ag (fun e => { e with streams := upd e.streams 0 (fun t =>
    { t with cfg := { v := true, kind := 5, stride := [1, 0, 0, 0, 0], scaleVa := 0x10000 }, mode := .ready }) })
  have h : (match (s.readNow ag 0 ((s.elem ag).stream 0).cfg.scaleVa 64).1 with
      | .ok _ => true
      | _ => false) = true := by decide +kernel
  split at h
  · next x e => exact ⟨x, opens rfl s ⟨by decide +kernel, e⟩⟩
  · cases h

/-- A write of a Starter that waits for the last bytes of unit 0. -/
def parked0 : State := { underScrub with parked := [spreadBytes 0x3FFFFFFE [1, 2]] }

theorem met_errors : Open (errorRules 0 0 pe 0 7 0 0 []) 0 ∧ Open (errorRules 0 0 pe 0 7 0 0 []) 1 ∧ Open (errorRules 0 0 pe 0 7 0 0 []) 2 ∧
    Open (errorRules 0 0 pe 0 7 0 0 []) 3 ∧ Open (errorRules 0 0 pe 0x3FFFFFFFFFF 7 0 0 []) 4 ∧
    Open (errorRules 0 0 pe 0 7 0 0x3FFFFFFE [1, 2]) 5 ∧ Open (errorRules 0 0 pe 0 7 0 0 []) 6 :=
  ⟨opens rfl st (by decide +kernel), opens rfl st trivial, opens rfl st (by decide +kernel), opens rfl st trivial, opens rfl st (by decide),
    opens rfl parked0 (by decide +kernel), opens rfl underScrub (by decide +kernel)⟩

/-! ## Hypotheses that are met: links -/

/-- An access at the last Aqric port, a message of the SE there, and a request of the link. -/
def abroad : Access := { acc0 (.aqric 0) (.load 0 64) with home := .remote 1 0 0x1000 35 }
def podAm0 : PodAm := ⟨6, se, 1, some 35, msg 0x40 0 0, 7, firing0⟩
def req35 (owner : LinkOwner) : LinkReq := ⟨3, owner, 1, 0x1000, 64, false, some 35, none⟩

/-- Port 35 fails with nothing, an access, a message, or a request of each owner on it; it drains; it replays. -/
theorem met_aqric : (∀ k ∈ [0, 9], Open (aqricRules 35 abroad op0 podAm0 7 (req35 .write) 0 (copy0 0 none [])) k) ∧
    Open (aqricRules 35 abroad op0 podAm0 7 (req35 .write) 0 (copy0 0 none [])) 1 ∧
    Open (aqricRules 35 abroad op0 podAm0 7 (req35 .write) 0 (copy0 0 none [])) 2 ∧
    Open (aqricRules 35 abroad op0 podAm0 7 (req35 (.stream 7 ag 0 0)) 0 (copy0 0 none [])) 3 ∧
    Open (aqricRules 35 abroad op0 podAm0 7 (req35 (.copy 20)) 0 (copy0 0 none [])) 4 ∧
    Open (aqricRules 35 abroad op0 podAm0 7 (req35 .write) 0 (copy0 0 none [])) 5 ∧
    Open (aqricRules 35 abroad op0 podAm0 7 (req35 (.graph 5)) 0 (copy0 0 none [])) 6 ∧
    Open (aqricRules 35 abroad op0 podAm0 7 (req35 .write) 0 (copy0 0 none [])) 7 ∧
    Open (aqricRules 35 abroad op0 podAm0 7 (req35 .write) 0 (copy0 0 none [])) 8 := by
  let on (r : List LinkReq) : State := { copying (copy0 0 none []) with links := r }
  refine ⟨fun k h => ?_, opens rfl { st with accs := [(3, abroad)], ops := [(2, op0)] } (by decide +kernel),
    opens rfl { st with podAms := [podAm0] } (by decide +kernel),
    opens rfl (on [req35 (.stream 7 ag 0 0)]) ⟨by decide +kernel, ⟨0, 0, rfl⟩, by decide +kernel⟩,
    opens rfl (on [req35 (.copy 20)]) ⟨by decide +kernel, ⟨20, rfl, by decide +kernel⟩, by decide +kernel⟩,
    opens rfl (on [req35 .write]) (by decide +kernel),
    opens rfl (on [req35 (.graph 5)]) ⟨by decide +kernel, .hostRead 0 0 0, Or.inr (Or.inl ⟨5, Or.inl rfl⟩)⟩,
    opens rfl { st with aqric := st.aqric.set 35 { up := false, draining := true } } (by decide +kernel),
    opens rfl (on [req35 .write]) (Or.inr (by decide +kernel))⟩
  simp only [List.mem_cons, List.not_mem_nil, or_false] at h
  rcases h with rfl | rfl <;> exact opens rfl st (by decide +kernel)

/-- The other askers that a failed port answers: a host access, an image, a report, a binding decision and a message. -/
theorem met_aqricAskers : ∀ o ∈ [LinkOwner.host (.hostRead 0 0 0), .image 7, .report 7, .bind 0, .message (msg 5 0 0)],
    Open (aqricRules 35 abroad op0 podAm0 7 (req35 o) 0 (copy0 0 none [])) 6 := by
  simp only [List.forall_mem_cons, List.not_mem_nil, false_implies, implies_true, and_true]
  have f (o : LinkOwner) : 35 < ({ st with links := [req35 o] } : State).aqric.length ∧
      (nth ({ st with links := [req35 o] } : State).aqric 35 { up := false }).up = true ∧ ({ st with links := [req35 o] } : State).onPort 35 = [] ∧
      ({ st with links := [req35 o] } : State).links.filter (fun x => x.port = some 35 ∧ x.answer = none) = [req35 o] ∧
      ({ st with links := [req35 o] } : State).podAms.filter (fun x => x.port = some 35) = [] := ⟨(by decide : 35 < st.aqric.length), rfl, rfl, rfl, rfl⟩
  exact ⟨opens rfl _ ⟨f _, .hostRead 0 0 0, Or.inl rfl⟩, opens rfl _ ⟨f _, .hostRead 0 0 0, Or.inr (Or.inl ⟨7, Or.inr (Or.inl rfl)⟩)⟩,
    opens rfl _ ⟨f _, .hostRead 0 0 0, Or.inr (Or.inl ⟨7, Or.inr (Or.inr (Or.inl rfl))⟩)⟩,
    opens rfl _ ⟨f _, .hostRead 0 0 0, Or.inr (Or.inl ⟨0, Or.inr (Or.inr (Or.inr rfl))⟩)⟩,
    opens rfl _ ⟨f _, .hostRead 0 0 0, Or.inr (Or.inr ⟨msg 5 0 0, rfl⟩)⟩⟩

/-- A frame of flow 0 between the addresses of a template of zeros, of a kind, a SEQ and an acknowledged SEQ. -/
def frame0 (kind seq ack : Nat) : EthFrame :=
  { deviceFrame 0 0 0 0 0 (ethHeader 0 ack seq 0 false kind) [] with dstMac := Config.ethMac 0 }

theorem frame0_ok (kind seq ack : Nat) (h : (kind, seq, ack) ∈ [(0, 0, 0), (0, 1, 0), (1, 0, 5)]) : frameOk 0 (frame0 kind seq ack) kind = true := by
  have e : (frame0 kind seq ack).dstMac = Config.ethMac 0 := rfl
  unfold frameOk
  rw [e]
  simp only [decide_true]
  revert h
  simp only [List.mem_cons, Prod.mk.injEq, List.not_mem_nil, or_false]
  rintro (⟨rfl, rfl, rfl⟩ | ⟨rfl, rfl, rfl⟩ | ⟨rfl, rfl, rfl⟩) <;> decide +kernel

/-- The AG with an INGRESS stream 0 and an EGRESS stream 1 of the flow of zeros, and what that flow has sent. -/
def zeros : List Byte := List.replicate 64 0
def linked (x : List TxFlow) : State :=
  { mapped with now := 100000, txFlows := x, elems := [(ag, { elem0 with
    streams := [{ cfg := { v := true, kind := 6, stride := [1, 0, 0, 0, 0] }, mode := .prefetching, tmpl := some zeros },
      { cfg := { v := true, kind := 5, stride := [1, 0, 0, 0, 0] }, mode := .ready, tmpl := some zeros }] })] }

def sent0 : SentFrame := ⟨0, 5, frame0 0 5 0, ag, some 7, [6]⟩
def flow0 : Flow := ⟨0, 0, 0, 1, 0, frame0 0 0 0⟩
def sending (resends : Nat) : TxFlow := { key := ⟨0, 0, 0⟩, nextSeq := 6, unacked := [sent0], resends }
def notOurs : EthFrame := { frame0 0 0 0 with pause := true }

/-- The port whose flow has fifteen frames to acknowledge. -/
def nearly : State := let s := linked []; { s with eth := s.eth.set 0 { flows := [{ flow0 with owed := 15 }] } }

/-- A frame that is not the port's; of no stream; taken; the sixteenth; out of order; an ACK that is due; an ACK that is not the port's; of
no stream; and one that acknowledges; the eighth resend, and the fault after it. -/
theorem met_eth : let rules (f : EthFrame) (k : Nat) (y : Flow) (x : TxFlow) : List EventRule := ethRules 0 0 ag k f y x 0 7 sent0 zeros
    Open (rules notOurs 0 flow0 (sending 7)) 0 ∧ Open (rules (frame0 0 0 0) 0 flow0 (sending 7)) 1 ∧
    Open (rules (frame0 0 0 0) 0 flow0 (sending 7)) 2 ∧ Open (rules (frame0 0 0 0) 0 { flow0 with owed := 15 } (sending 7)) 3 ∧
    Open (rules (frame0 0 1 0) 0 flow0 (sending 7)) 4 ∧ Open (rules (frame0 0 0 0) 0 flow0 (sending 7)) 5 ∧
    Open (rules notOurs 0 flow0 (sending 7)) 6 ∧ Open (rules (frame0 1 0 5) 0 flow0 (sending 7)) 7 ∧
    Open (rules (frame0 1 0 5) 1 flow0 (sending 7)) 8 ∧ Open (rules (frame0 1 0 5) 1 flow0 (sending 7)) 9 ∧
    Open (rules (frame0 1 0 5) 1 flow0 (sending 8)) 10 := by
  intro rules
  have bad (kind : Nat) : frameOk 0 notOurs kind = false := by
    unfold frameOk
    rfl
  exact ⟨opens rfl st (bad 0), opens rfl mapped ⟨frame0_ok _ _ _ (by decide), by decide +kernel⟩,
    opens rfl (linked []) ⟨⟨frame0_ok _ _ _ (by decide), by decide +kernel⟩, by decide +kernel, by decide +kernel⟩,
    opens rfl nearly ⟨⟨frame0_ok _ _ _ (by decide), by decide +kernel⟩, by decide +kernel, rfl, by decide +kernel, rfl⟩,
    opens rfl (linked []) ⟨⟨frame0_ok _ _ _ (by decide), by decide +kernel⟩, by decide +kernel⟩,
    opens rfl { st with eth := st.eth.set 0 { flows := [flow0] } } ⟨rfl, by decide⟩, opens rfl st (bad 1),
    opens rfl mapped ⟨frame0_ok _ _ _ (by decide), by decide +kernel⟩,
    opens rfl (linked [sending 7]) ⟨frame0_ok _ _ _ (by decide), by decide +kernel, rfl, rfl, by decide +kernel, fun _ h => nomatch h⟩,
    opens rfl (linked [sending 7]) ⟨⟨rfl, rfl, rfl, fun h => (nomatch h), by decide⟩, by decide⟩,
    opens rfl (linked [sending 8]) ⟨⟨rfl, rfl, rfl, fun h => (nomatch h), by decide⟩, by decide, rfl, rfl, rfl, by decide +kernel⟩⟩

/-! ## Hypotheses that are met: power and leases -/

/-- Two milliseconds after the start, the update of the second still to come. -/
def later : State := { st with now := 2000000, lastMs := some 0 }

/-- A lease of instance 7 in slot 3 of cluster 0, which began at 0 or waits for the rail. -/
def lease0 (begin_ : Option Nat) : Lease :=
  { handle := 0x10304, inst := 7, launch := 5, task := 0, vf := 0, eid := se, point := 4, hard := false, us := 10, begin_, entry := some 6,
    order := 0, asked := [] }
def leased (begin_ : Option Nat) (s : State) : State :=
  s.modCluster 0 (fun c => { c with slots := c.slots.set 3 (some (lease0 begin_)), melt := .sprint })

/-- The task of a HARD lease, and its handler, whose only run has ended. -/
def trapTask : Task := { task0 with gw := { ttCount := 4, leaseOk := true, hardOk := true, handler := 9, w := 1, h := 1 }, fchain := 0x10000 }
def handler0 : Task := { task0 with gw := { ttCount := 1, predN := 255, taskId := 9, w := 1, h := 1 }, final := true }
def trapLaunch : Launch := { launch0 with tasks := [trapTask, handler0] }

/-- That lease in slot 3 as the only one. -/
def hardLease (begin_ : Option Nat) : Lease := { lease0 begin_ with hard := true }
def trapping (begin_ : Option Nat) (s : State) : State :=
  { s.modCluster 0 (fun c => { c with slots := (List.replicate 16 none).set 3 (some (hardLease begin_)), melt := .sprint }) with
    launches := [(5, trapLaunch)] }

theorem one_slot {n : Nat} {l w : Lease} (h : nth ((List.replicate 16 (none : Option Lease)).set 3 (some l)) n none = some w) :
    n = 3 ∧ w = l := by
  unfold nth at h
  rw [List.getElem?_set] at h
  by_cases e : 3 = n
  · subst e
    simp at h
    exact ⟨rfl, h.symm⟩
  · simp only [e, if_false, List.getElem?_replicate] at h
    split at h <;> cases h

theorem may_trap (b : Option Nat) (s : State) (hs : (s.cluster 0).slots = (List.replicate 16 none).set 3 (some (hardLease b)))
    (hi : s.insts.find 7 = some inst0) (hl : s.launches = [(5, trapLaunch)]) (hc : s.clusters.length = 16) (hp : 0 < s.parts.length)
    (hr : s.rects 0 1 1 ≠ []) : MayTrap s 0 3 (hardLease b) inst0 trapLaunch trapTask handler0 1 := by
  refine ⟨rfl, hi, rfl, by omega, rfl, rfl, rfl, rfl, rfl, rfl, hp, ?_, ?_, rfl, rfl, by decide, by decide, rfl, rfl, rfl, rfl, rfl, rfl, by decide,
    hr, ?_⟩
  · intro n w e _
    rw [hs] at e
    exact (one_slot e).1
  · rw [hl]
    rfl
  · intro m c hm e
    obtain rfl : m = 0 := by omega
    cases e
    exact fun h => absurd h.1 (by decide)

/-- The update of one cluster, of its slot 3 and of that of another. -/
def upd0 (pkgw : BitVec 16) (g h : Nat) (l : Lease) : List EventRule := updateRules [] [] pkgw g 3 h l inst0 trapLaunch trapTask handler0 1

/-- The lease in slot 3 of a cluster, which the controller is to end for the budget or not. -/
def leasedIn (g : Nat) (asked : List Nat) : State :=
  { later.modCluster g (fun c => { c with slots := c.slots.set 3 (some { lease0 (some 0) with asked }), melt := .sprint }) with subject := (g, 0) }

/-- The last update of a cluster is none of this millisecond. -/
theorem is_due {s : State} {g : Nat} (h : (s.subject.1 = g ∧ s.clusters.length = 16 ∧ (s.cluster g).slots.length = 16 ∧ g < 16) ∧
    s.startTime / 1000000 < s.now / 1000000 ∧ ∀ m ∈ (s.cluster g).lastMs, m < s.now / 1000000) :
    s.subject.1 = g ∧ s.clusters.length = 16 ∧ (s.cluster g).slots.length = 16 ∧ g < 16 ∧
      (match (s.cluster g).lastMs with
        | some m => m < s.now / 1000000
        | none => s.startTime / 1000000 < s.now / 1000000) := by
  refine ⟨h.1.1, h.1.2.1, h.1.2.2.1, h.1.2.2.2, ?_⟩
  split
  · next m e => exact h.2.2 m e
  · exact h.2.1

/-- The first and the last cluster without a lease; REFREEZE; the update done. -/
theorem met_update : Open (upd0 6000 0 0 (lease0 none)) 0 ∧ Open (upd0 0 15 0 (lease0 none)) 0 ∧ Open (upd0 6000 0 0 (lease0 none)) 1 ∧
    Open (upd0 6000 0 0 (lease0 none)) 2 := by
  have q (g : Nat) (s : State) (h : (s.cluster g).slots = List.replicate 16 none) : ∀ n w, nth (s.cluster g).slots n none = some w → w.asked = [] :=
    fun n w e => no_lease 16 n w (h ▸ e)
  exact ⟨opens rfl later ⟨⟨is_due (by decide +kernel), rfl, q 0 _ rfl⟩, Or.inr (Or.inl (by decide)), by decide +kernel⟩,
    opens rfl ({ later with subject := (15, 0) }.modCluster 15 (fun c => { c with lastMs := some 1 })) ⟨⟨is_due (by decide +kernel), rfl, q 15 _ rfl⟩, Or.inl (by decide), by decide +kernel⟩,
    opens rfl (later.modCluster 0 (fun c => { c with melt := .refreeze })) ⟨⟨is_due (by decide +kernel), rfl, q 0 _ rfl⟩, Or.inr (Or.inl (by decide)), by decide +kernel⟩,
    opens rfl (later.modCluster 0 (fun c => { c with lastMs := some 2 })) (by decide +kernel)⟩

/-- What no slot but the third holds. -/
theorem only_third {l : Lease} (s : State) (g : Nat) (h : (s.cluster g).slots = (List.replicate 16 none).set 3 (some l)) :
    ∀ n w, nth (s.cluster g).slots n none = some w → n = 3 ∧ w = l := fun _ _ e => one_slot (h ▸ e)

/-- One watt more than is allowed: the last lease of another cluster, a SOFT one of this cluster, one that was asked to end, and a HARD one. -/
theorem met_budget : Open (upd0 6001 0 1 (lease0 (some 0))) 3 ∧ Open (upd0 6001 0 0 (lease0 (some 0))) 4 ∧
    Open (upd0 6001 1 0 { lease0 (some 0) with asked := [6] }) 4 ∧ Open (upd0 6001 0 0 (hardLease (some 0))) 5 := by
  have far (s : State) (g : Nat) (l : Lease) (h : (s.cluster g).slots = (List.replicate 16 none).set 3 (some l)) :
      ∀ n, n ≠ 3 → ∀ w, nth (s.cluster g).slots n none = some w → w.asked = [] := fun n hn w e => absurd (only_third s g h n w e).1 hn
  refine ⟨opens rfl { leasedIn 1 [] with subject := (0, 0) } ⟨⟨is_due (by decide +kernel), rfl, fun n w e => no_lease 16 n w e⟩, by decide +kernel⟩,
    opens rfl (leasedIn 0 []) ⟨⟨is_due (by decide +kernel), rfl, by decide +kernel, by decide +kernel, far _ 0 _ rfl, Or.inr (by decide +kernel)⟩, rfl⟩,
    opens rfl (leasedIn 1 [6]) ⟨⟨is_due (by decide +kernel), rfl, by decide +kernel, by decide +kernel, far _ 1 _ rfl, Or.inl (by decide +kernel)⟩, rfl⟩,
    opens rfl (trapping (some 0) later) ⟨⟨is_due (by decide +kernel), rfl, by decide +kernel, by decide +kernel, far _ 0 _ rfl, Or.inr (by decide +kernel)⟩,
      may_trap _ _ (by decide +kernel) (by decide +kernel) rfl (by decide +kernel) (by decide +kernel) (by decide +kernel)⟩⟩

/-- A heat store at the ceiling exactly, without a lease and with a HARD one. -/
theorem met_ceiling : Open (upd0 0 0 0 (lease0 (some 0))) 6 ∧ Open (upd0 0 0 0 (hardLease (some 0))) 7 := by
  let s : State := (trapping (some 0) later).modCluster 0 (fun c => { c with heat := 0xF0000000 })
  have one : ∀ n w, nth (s.cluster 0).slots n none = some w → n = 3 ∧ w = hardLease (some 0) := only_third s 0 rfl
  exact ⟨opens rfl (later.modCluster 0 (fun c => { c with heat := 0xF0000000, melt := .sprint }))
      ⟨⟨⟨is_due (by decide +kernel), rfl, fun n y h => no_lease 16 n y h⟩, Or.inr (Or.inl (by decide)), by decide +kernel⟩, fun n y h => no_lease 16 n y h⟩,
    opens rfl s ⟨⟨⟨is_due (by decide +kernel), rfl, fun n w e => by rw [(one n w e).2]; rfl⟩, Or.inr (Or.inl (by decide)), by decide +kernel⟩,
      by decide +kernel,
      may_trap _ _ (by decide +kernel) (by decide +kernel) rfl (by decide +kernel) (by decide +kernel) (by decide +kernel),
      fun n w h => (one n w h).1⟩⟩

/-- Refilling or not; a tile that is idle; one that closes, with and without an operation at its banks; and the end of ungating. -/
theorem met_gates : Open (gateRules 0 1 7 inst0 0) 0 ∧ Open (gateRules 0 1 7 inst0 0) 1 ∧ Open (gateRules 0 1 7 inst0 0) 2 ∧
    Open (gateRules 0 1 7 inst0 0) 3 ∧ Open (gateRules 0 1 7 inst0 0) 4 ∧ Open (gateRules 0 1 7 inst0 2000000) 5 := by
  let closing : State := { later.modTile 1 (fun t => { t with gate := .closing }) with subject := (1, 0) }
  refine ⟨opens rfl (later.modCluster 0 (fun c => { c with injEn := true })) (by decide +kernel), opens rfl later (by decide +kernel),
    opens rfl { later.modCluster 0 (fun c => { c with autogate := true }) with subject := (1, 0), now := 1000000 } (by decide +kernel),
    opens rfl closing ⟨by decide +kernel, by decide +kernel, by decide +kernel, ?_⟩,
    opens rfl { closing.modTile 1 (fun t => { t with banks := [(0, some 3)] }) with accs := [(3, acc0 .track (.load 0 64))] }
      ⟨by decide +kernel, Or.inr ⟨3, 0, by decide +kernel, by decide +kernel⟩⟩,
    opens rfl { later.modTile 1 (fun t => { t with gate := .ungating 2000000 }) with subject := (1, 0) } (by decide +kernel)⟩
  rintro (⟨w, hw, _⟩ | ⟨n, b, hb, _⟩)
  · exact absurd hw (by rw [(by decide +kernel : (closing.tile 1).bankWaits = [])]; exact List.not_mem_nil)
  · exact absurd hb (by rw [(by decide +kernel : (closing.tile 1).banks = [])]; exact List.not_mem_nil)

/-- A request of instance 7, and the controller that holds it: VF 0 may take every point. -/
def ask0 (hard : Bool) : CtrlReq := ⟨7, 0, se, some 6, .inr (10, 4, hard), 0⟩
def asking (hard : Bool) : State :=
  { st.modVf 0 (fun v => { v with maxop := 7, maxn := 8, maxus := 10 }) with lastMs := some 0, ctrlQ := [ask0 hard], subject := (7, 0) }

theorem may_lease (s : State) (h : s.task? 5 0 = some task0) : MayLease s inst0 false :=
  ⟨rfl, task0, h, rfl, fun x => nomatch x⟩

/-- That state with other numbers in VF 0 or cluster 0. -/
def askingV (f : Vf → Vf) : State := (asking false).modVf 0 f
def askingC (f : Cluster → Cluster) : State := (asking false).modCluster 0 f

/-- What the requests of these states share. -/
theorem asks_fit (s : State) (h : Requests s 7 inst0 (ask0 false) 10 4 false) (ht : s.task? 5 0 = some task0) (hc : ¬Clamped s 7 inst0) :
    Requests s 7 inst0 (ask0 false) 10 4 false ∧ MayLease s inst0 false ∧ ¬Clamped s 7 inst0 := ⟨h, may_lease s ht, hc⟩

/-- HARD without HARD_OK; the clamp of reset; REFREEZE; one watt above SPRINTW; a heat store one step of MELT below the ceiling; a full
grant of the greatest duration; a heat store with time left; MAXOP and MAXUS one below what is asked. -/
theorem met_requests : Open (requestRules 7 inst0 (ask0 true) 10 4 true) 0 ∧ Open (requestRules 7 inst0 (ask0 false) 10 4 false) 1 ∧
    Open (requestRules 7 inst0 (ask0 false) 10 4 false) 2 ∧ Open (requestRules 7 inst0 (ask0 false) 10 4 false) 3 ∧
    Open (requestRules 7 inst0 (ask0 false) 10 4 false) 4 ∧ Open (requestRules 7 inst0 (ask0 false) 10 4 false) 5 ∧
    Open (requestRules 7 inst0 (ask0 false) 10 4 false) 6 ∧ Open (requestRules 7 inst0 (ask0 false) 10 4 false) 7 := by
  have fit : ∀ s ∈ [asking false, askingC (fun c => { c with melt := .refreeze }), askingC (fun c => { c with pwr := 6001 }),
      askingC (fun c => { c with pwr := 1000, heat := 0xEFFFFFFF }), askingC (fun c => { c with pwr := 100 }),
      askingV (fun v => { v with maxop := 4, maxus := 9 }), askingV (fun v => { v with maxop := 4, maxus := 10 })],
      Requests s 7 inst0 (ask0 false) 10 4 false ∧ MayLease s inst0 false ∧ ¬Clamped s 7 inst0 := by
    simp only [List.forall_mem_cons, List.not_mem_nil, false_implies, implies_true, and_true]
    refine ⟨?_, ?_, ?_, ?_, ?_, ?_, ?_⟩ <;>
      exact asks_fit _ (by unfold Requests; decide +kernel) (by decide +kernel) (by unfold Clamped; decide +kernel)
  refine ⟨opens rfl (asking true) ⟨by unfold Requests; decide +kernel, ?_⟩,
    opens rfl (askingV (fun v => { v with maxop := 3 })) ⟨by unfold Requests; decide +kernel, may_lease _ (by decide +kernel),
      Or.inl (by decide +kernel)⟩,
    opens rfl (askingC (fun c => { c with melt := .refreeze })) ⟨fit _ (by simp), by decide +kernel⟩,
    opens rfl (askingC (fun c => { c with pwr := 6001 })) ⟨⟨⟨fit _ (by simp), by decide +kernel⟩, by decide +kernel⟩,
      by unfold Claims.within; decide +kernel⟩,
    opens rfl (askingC (fun c => { c with pwr := 1000, heat := 0xEFFFFFFF })) ⟨⟨⟨fit _ (by simp), by decide +kernel⟩, by decide +kernel⟩,
      by unfold Claims.within; decide +kernel⟩,
    opens rfl (asking false) ⟨⟨⟨fit _ (by simp), by decide +kernel⟩, by decide +kernel⟩, by unfold Claims.within; decide +kernel⟩,
    opens rfl (askingC (fun c => { c with pwr := 100 })) ⟨⟨⟨fit _ (by simp), by decide +kernel⟩, by decide +kernel⟩,
      by unfold Claims.within; decide +kernel⟩,
    opens rfl (askingV (fun v => { v with maxop := 4, maxus := 9 })) ⟨⟨fit _ (by simp), by decide +kernel⟩, by decide +kernel,
      by unfold Claims.within; decide +kernel⟩⟩
  rintro ⟨_, t, ht, _, hh⟩
  have e : (asking true).task? 5 0 = some task0 := by decide +kernel
  cases e.symm.trans ht
  exact nomatch hh rfl

theorem none_asked (s : State) (l : Lease) (h : (s.cluster 0).slots = (List.replicate 16 none).set 3 (some l)) (hl : l.asked = []) :
    ∀ n w, nth (s.cluster 0).slots n none = some w → w.asked = [] := fun n w e => by
  rw [(only_third s 0 h n w e).2]
  exact hl

/-- A LEASEEND of a handle. -/
def end0 (h : Word) : CtrlReq := ⟨7, 0, se, some 6, .inl h, 0⟩

theorem met_leaseEvents : Open (leaseEvents 0 3 7 (lease0 none) (end0 0x10304) 0x10304 0 se 1 tok0 [] inst0 trapLaunch trapTask handler0 1) 0 ∧
    Open (leaseEvents 0 3 7 (lease0 (some 1990000)) (end0 0x10304) 0x10304 1990000 se 1 tok0 [] inst0 trapLaunch trapTask handler0 1) 1 ∧
    Open (leaseEvents 0 3 7 (hardLease (some 1990000)) (end0 0x10304) 0x10304 1990000 se 1 tok0 [] inst0 trapLaunch trapTask handler0 1) 2 ∧
    Open (leaseEvents 0 3 7 (lease0 (some 0)) (end0 0x10304) 0x10304 0 se 1 tok0 [] inst0 trapLaunch trapTask handler0 1) 3 ∧
    Open (leaseEvents 0 3 7 (lease0 (some 0)) (end0 0x20304) 0x20304 0 se 1 tok0 [] inst0 trapLaunch trapTask handler0 1) 4 ∧
    Open (leaseEvents 0 3 7 (lease0 (some 0)) (end0 0x20304) 0x20304 0 se 1 tok0 [] inst0 trapLaunch trapTask handler0 1) 5 :=
  ⟨opens rfl { leased none st with subject := (0, 3) } (by decide +kernel),
    opens rfl ({ leased (some 1990000) later with subject := (0, 3) }.modCluster 0 (fun c => { c with lastMs := some 2 }))
      ⟨⟨by decide +kernel, by decide +kernel, rfl, by decide +kernel, by decide +kernel, none_asked _ (lease0 (some 1990000)) rfl rfl⟩, rfl⟩,
    opens rfl ({ trapping (some 1990000) later with subject := (0, 3) }.modCluster 0 (fun c => { c with lastMs := some 2 }))
      ⟨⟨by decide +kernel, by decide +kernel, rfl, by decide +kernel, by decide +kernel, none_asked _ (hardLease (some 1990000)) rfl rfl⟩,
      may_trap _ _ (by decide +kernel) (by decide +kernel) rfl (by decide +kernel) (by decide +kernel) (by decide +kernel)⟩,
    opens rfl { leased (some 0) st with subject := (7, 0), lastMs := some 0, ctrlQ := [end0 0x10304] } (by decide +kernel),
    opens rfl { leased (some 0) st with subject := (7, 0), lastMs := some 0, ctrlQ := [end0 0x20304] } ⟨by decide +kernel, by decide +kernel,
      fun x hx => by
        have e : st.insts.find 7 = some inst0 := by decide +kernel
        cases e.symm.trans hx
        exact fun _ h => nomatch h⟩,
    opens rfl { st with subject := (7, 0), insts := [(7, { inst0 with leaseBuf := [tok0], leasePort := some (se, 1) })] } ⟨rfl,
      ⟨{ inst0 with leaseBuf := [tok0], leasePort := some (se, 1) }, by decide +kernel, rfl, rfl⟩, by decide +kernel⟩⟩

/-! ## Hypotheses that are met: the Starter -/

/-- A launch not yet walked. -/
def unwalked : Launch := { launch0 with root := 0x10000, walked := false, tasks := [] }
def admitting (m : List Host.Cell) : State := { mapped with hbm := m, launches := [(5, unwalked)], insts := [], subject := (5, 0) }
def node0 : GraphNode :=
  ⟨0x10000, { w := 1, h := 1, instances := 1, ttCount := 1, configVa := 0x20000, completionVa := 0x30000, handler := 0xFFFF }, [], []⟩

/-- A unit whose bytes no access may read yet. -/
def scrub0 : NMap Unit_ := [(0, { owner := 0, scrub := true })]

/-- What a walk ends with. -/
def walkEnd (s : State) : Option (Nat × VisitStop) := (s.visitAll unwalked.vf (s.tableRoom (s.homeOf unwalked.part)) 300000 [unwalked.root] []).2

def walkFound (s : State) : Nat := match walkEnd s with
  | none => 0
  | some (_, .waits _) => 1
  | some (_, .fails _) => 2

/-- The graph of one node; the same while its tables are under a scrub; and without tables. -/
theorem met_graph : Open (walkGraphRules 5 unwalked [node0]) 0 ∧ Open (walkGraphRules 5 unwalked [node0]) 1 ∧ Open (walkGraphRules 5 unwalked [node0]) 2 := by
  have h : walkFound { admitting mapped.hbm with units := scrub0 } = 1 ∧ walkFound (admitting []) = 2 := by decide +kernel
  refine ⟨opens rfl (admitting mapped.hbm) ⟨by decide +kernel, by decide +kernel, by decide +kernel, fun n h => by
      cases Option.some.inj (h : some node0 = some n)
      exact ⟨by decide, by decide +kernel⟩⟩,
    opens rfl { admitting mapped.hbm with units := scrub0 } ⟨by decide +kernel, ?_⟩,
    opens rfl (admitting []) ⟨by decide +kernel, by decide +kernel, Or.inl ?_⟩⟩
  · have h := h.1
    unfold walkFound at h
    split at h
    · cases h
    · next va a e => exact ⟨va, a, e⟩
    · cases h
  · have h := h.2
    unfold walkFound at h
    split at h
    · cases h
    · cases h
    · next va g e => exact ⟨va, g, e⟩

/-- Launch 5 with one task, as the event's subject; no instance. -/
def one (a : Task) : Launch := { launch0 with tasks := [a] }
def about (a : Task) : State := { st with launches := [(5, one a)], insts := [], subject := (5, 0), now := 20000000 }
def ripe : Task := { task0 with ready := true, level := 5, levelSince := 10000000 }
def counted4 : Task := { task0 with doneN := 3, failedN := 1 }
def ended : Task := { task0 with doneN := 4, final := true, status := .done }

/-- A Starter's write waits for a scrub. -/
def behind (a : Task) : State := { about a with parked := [[]] }
def noting : Task := { task0 with note := some (2, 1) }
def unwritten : Task := { task0 with dirty := true }

def telling : Task := { ended with telling := true }

theorem noWrites {s : State} (h : s.parked = []) (hl : s.links = []) : NoWrites s := ⟨h, fun r hr => by rw [hl] at hr; exact nomatch hr⟩
theorem some_write (a : Task) : ¬NoWrites (behind a) := fun h => nomatch h.1

/-- A task at its next level; two that may not rise; one with all reports; one whose end is still to be told; a progress; a note; the end of
the launch; and each that waits for a write. -/
theorem met_tasks : Open (taskRules 5 0 (one ripe) ripe (2, 1) 0) 0 ∧ Open (taskRules 5 0 (one task0) task0 (2, 1) 0) 1 ∧
    Open (taskRules 5 0 { one ripe with stopped := true } ripe (2, 1) 0) 1 ∧
    Open (taskRules 5 0 (one counted4) counted4 (2, 1) 0) 2 ∧ Open (taskRules 5 0 (one telling) telling (2, 1) 0) 3 ∧
    Open (taskRules 5 0 (one telling) telling (2, 1) 0) 4 ∧ Open (taskRules 5 0 (one unwritten) unwritten (2, 1) 0) 5 ∧
    Open (taskRules 5 0 (one noting) noting (2, 1) 0) 6 ∧ Open (taskRules 5 0 (one ended) ended (2, 1) 0) 7 ∧
    Open (taskRules 5 0 (one noting) noting (2, 1) 0) 8 ∧ Open (taskRules 5 0 (one ended) ended (2, 1) 0) 9 ∧
    Open (taskRules 5 0 (one ended) ended (2, 1) 15) 10 :=
  ⟨opens rfl (about ripe) (by unfold About; decide +kernel), opens rfl (about task0) (by unfold About; decide +kernel),
    opens rfl { about ripe with launches := [(5, { one ripe with stopped := true })] } (by unfold About; decide +kernel),
    opens rfl (about counted4) (by unfold About; decide +kernel), opens rfl (about telling) ⟨⟨rfl, rfl, rfl⟩, rfl, noWrites rfl rfl, by decide⟩,
    opens rfl (behind telling) ⟨⟨rfl, rfl, rfl⟩, rfl, some_write _⟩, opens rfl (about unwritten) (by unfold About; decide +kernel),
    opens rfl (about noting) ⟨⟨rfl, rfl, rfl⟩, rfl, rfl, by decide, noWrites rfl rfl⟩,
    opens rfl (about ended) ⟨rfl, rfl, rfl, by decide, by decide, noWrites rfl rfl⟩,
    opens rfl (behind noting) ⟨⟨rfl, rfl, rfl⟩, some_write _⟩, opens rfl (behind ended) ⟨rfl, rfl, some_write _⟩, opens rfl st (by decide +kernel)⟩

/-- The object of a task in HBM, where no scrub is. -/
theorem met_object : Memory.wf mapped.hbm = true ∧ mapped.storeHome 0 0x30000 = some (.hbm 0x30000) ∧
    ∀ j < 64, mapped.scrubbing (0x30000 + j) = false := by decide +kernel

/-- A task that waits for its first instance. -/
def waits : Task := { va := 0x10000, gw := { ttCount := 4, configVa := 0x20000 }, ready := true }
def deciding : State :=
  { (about waits).modPart 0 (fun p => { p with decide_ := true }) with launches := [(5, one waits)] }

/-- The place of that task is still held by the instance whose pre-emption is under way. -/
def pendingPlace : State :=
  { deciding with
    insts := [(7, { inst0 with task := 9, stop := .cut false false })],
    launches := [(5, one { waits with reserved := [0] })], elems := [], nextId := 8 }

/-- The binding decision without a task; with one whose image is under a scrub; with one; with one whose place is not free yet; MINRES at its
last microsecond. -/
theorem met_bind : Open (bindRules 0 5 0 (one waits) waits (0, 0, 0) 7 inst0) 0 ∧ Open (bindRules 0 5 0 (one waits) waits (0, 0, 0) 7 inst0) 1 ∧
    Open (bindRules 0 5 0 (one waits) waits (0, 0, 0) 7 inst0) 2 ∧
    Open (bindRules 0 5 0 (one { waits with reserved := [0] }) { waits with reserved := [0] } (0, 0, 0) 7 inst0) 3 ∧
    Open (bindRules 0 5 0 (one waits) waits (0, 0, 0) 7 inst0) 4 :=
  ⟨opens rfl { deciding with launches := [] } (by decide +kernel),
    opens rfl { deciding with units := scrub0, vfs := mapped.vfs, hbm := mapped.hbm } ⟨by decide +kernel, Option.isSome_iff_exists.mp (by decide +kernel)⟩,
    opens rfl deciding (by decide +kernel), opens rfl pendingPlace (by decide +kernel),
    opens rfl { st with subject := (7, 0), now := 50000 } (by decide +kernel)⟩

/-- An image of one PE without slots at 0x20000 (R252 to R254); its baton port is queue 0 of the PE. -/
def imaged : State :=
  { mapped with hbm := mapped.hbm ++
      [(0x20000, 0x43), (0x20001, 0x46), (0x20002, 0x47), (0x20003, 0x31), (0x20004, 0x01), (0x20006, 0x09), (0x20008, 0x01), (0x2000a, 0x01),
       (0x20010, 0xc0), (0x20014, 0x08), (0x20017, 0x80), (0x20020, 0x75), (0x20021, 0x1a), (0x20022, 0x8d), (0x20023, 0xd8), (0x20024, 0x6a),
       (0x20025, 0x8f), (0x20026, 0xf9), (0x20027, 0xfc), (0x20028, 0xed), (0x20029, 0x46), (0x2002a, 0x0c), (0x2002b, 0xb2), (0x2002c, 0xdb)] ++
      [(0x2002d, 0x33), (0x2002e, 0xfc), (0x2002f, 0xfe), (0x20030, 0xd8), (0x20031, 0x1a), (0x20032, 0x78), (0x20033, 0x0e), (0x20034, 0xc9),
       (0x20035, 0x7f), (0x20036, 0x6a), (0x20037, 0xc2), (0x20038, 0xeb), (0x20039, 0x96), (0x2003a, 0xb2), (0x2003b, 0x2e), (0x2003c, 0xeb),
       (0x2003d, 0xb7), (0x2003e, 0x20), (0x2003f, 0x20), (0x20040, 0x02), (0x20042, 0x08), (0x20044, 0x70), (0x20048, 0x01)] }

/-- Instance 7 in a phase, its region clear, with a context or none. -/
def inPhase (p : Phase) (ctx : Option Nat) : Inst := { inst0 with phase := p, ctx }
def staging (m : List Host.Cell) (x : Inst) (c : NMap Context) : State :=
  { mapped with hbm := m, launches := [(5, one waits)], insts := [(7, x)], elems := [], subject := (7, 0), contexts := c }
def context0 (bad : Bool) : Context :=
  { inst := inst0, elements := [], tiles := [], length := 64, time := 0, unit0 := 0, units := 1, bad, farOut := false }

/-- The record of that context at the start of the pool: a header and CHECK alone. -/
def resuming : State :=
  let s := staging [] (inPhase .relay (some 3)) [(3, context0 false)]
  { s with hbm := putBytes [] 0 (s.headerOf inst0 64 0 ++ leBytes 8 (contextCheck (s.headerOf inst0 64 0))) }

/-- A record of the same source waits in another instance, of the SEQ before the first. -/
def event0 (family code : Nat) : FaultEvent :=
  { kind := 0, src := se, family, code, slot := none, word := 0, heads := 0, tokens := [], addr := 0, time := 0, seq := 0, ttidx := 0, policy := [] }
def earlier (kind src : Nat) : Inst := { inst0 with task := 9, faults := [{ event0 10 2 with kind, src, seq := 0xFFFFFFFF }] }
def faultedImage (others : NMap Inst) : State :=
  let s := staging [] (inPhase .relay none) []
  { s with insts := s.insts ++ others }

def noImage : Image := ⟨0, none, none, [], [], 0⟩
def noFail : ImgFail := { off := 0, family := 0, code := 0 }

/-- The resume with a footprint of 1 KiB, before the Starter writes the SRAM; while it does, with a granule left; and once it has. -/
def footed : Task := { waits with gw := { waits.gw with footprint := 1 } }
def resumes (sweep : Option Sweep) : State :=
  let s : State := { staging [] (inPhase .relay (some 3)) [(3, context0 false)] with launches := [(5, one footed)] }
  { s with hbm := putBytes [] 0 (s.headerOf inst0 64 0 ++ leBytes 8 (contextCheck (s.headerOf inst0 64 0))) }.modTile 0 (fun t => { t with sweep })

/-- The one image that a state stages, and the fault of one that it cannot. -/
def goodImage (s : State) : Bool := match s.instImage (inPhase .relay none) with
  | .ok _ => true
  | .error _ => false
def faultWaits (s : State) : Option Bool := match s.instImage (inPhase .relay none) with
  | .ok _ => none
  | .error f => some (s.recordsWait 0 (s.imageRecord (inPhase .relay none) f).1)

theorem met_relay : Open (relayRules 7 (inPhase .relay none) waits noImage noFail (context0 false) 3) 0 ∧
    (∃ im, Open (relayRules 7 (inPhase .relay none) waits im noFail (context0 false) 3) 1) ∧
    Open (relayRules 7 (inPhase .relay none) waits noImage noFail (context0 false) 3) 2 ∧
    (∃ f, Open (relayRules 7 (inPhase .relay none) waits noImage f (context0 false) 3) 3) ∧
    (∃ f, Open (relayRules 7 (inPhase .relay none) waits noImage f (context0 false) 3) 4) ∧
    Open (relayRules 7 (inPhase .staged none) waits noImage noFail (context0 true) 3) 10 := by
  let u : State := { staging imaged.hbm (inPhase .relay none) [] with units := scrub0 }
  have h : goodImage (staging imaged.hbm (inPhase .relay none) []) = true ∧ faultWaits (faultedImage [(8, earlier 1 0)]) = some true ∧
      faultWaits (faultedImage []) = some false := by decide +kernel
  have c : Concerns u 7 (inPhase .relay none) waits := ⟨rfl, rfl, rfl⟩
  have stop : ∃ r, u.instStop (inPhase .relay none) = some r := Option.isSome_iff_exists.mp (by decide +kernel)
  refine ⟨opens rfl u ⟨c, rfl, rfl, by decide +kernel, stop⟩, ?_, opens rfl u ⟨⟨c, rfl, by decide +kernel, rfl, rfl⟩, rfl, stop⟩, ?_, ?_,
    opens rfl (staging [] (inPhase .staged none) []) (by decide +kernel)⟩
  · have h := h.1
    unfold goodImage at h
    split at h
    · next im e => exact ⟨im, opens rfl (staging imaged.hbm (inPhase .relay none) []) ⟨by unfold Concerns; decide +kernel, rfl, rfl,
        by decide +kernel, by decide +kernel, e⟩⟩
    · cases h
  · have h := h.2.1
    unfold faultWaits at h
    split at h
    · cases h
    · next f e => exact ⟨f, opens rfl (faultedImage [(8, earlier 1 0)]) ⟨by unfold Concerns; decide +kernel, rfl, by decide +kernel, e,
        Option.some.inj h⟩⟩
  · have h := h.2.2
    unfold faultWaits at h
    split at h
    · cases h
    · next f e => exact ⟨f, opens rfl (faultedImage []) ⟨by unfold Concerns; decide +kernel, rfl, by decide +kernel, rfl, e, Option.some.inj h⟩⟩

/-- The Starter's writes of a restore are to begin, one granule is left, and none; the pool is under a scrub; the record is bad. -/
theorem met_restore : Open (relayRules 7 (inPhase .relay (some 3)) footed noImage noFail (context0 false) 3) 5 ∧
    Open (relayRules 7 (inPhase .relay (some 3)) footed noImage noFail (context0 false) 3) 6 ∧
    Open (relayRules 7 (inPhase .relay (some 3)) footed noImage noFail (context0 false) 3) 7 ∧
    Open (relayRules 7 (inPhase .relay (some 3)) footed noImage noFail (context0 false) 3) 8 ∧
    Open (relayRules 7 (inPhase .relay (some 3)) waits noImage noFail (context0 true) 3) 9 :=
  ⟨opens rfl (resumes none) (by unfold Concerns; decide +kernel), opens rfl (resumes (some ⟨true, [(0, 1, 0)], [], []⟩)) (by unfold Concerns; decide +kernel),
    opens rfl (resumes (some ⟨true, [], [], []⟩)) (by unfold Concerns; decide +kernel),
    opens rfl { resumes none with units := scrub0 } (by decide +kernel),
    opens rfl (staging [] (inPhase .relay (some 3)) [(3, context0 true)]) (by unfold Concerns; decide +kernel)⟩

/-- The record of one element. -/
def context1 : Context := { context0 false with elements := [{ elem0 with before := .run }] }

theorem met_commit : Open (commitRules 7 (inPhase .commit none) waits 3 context1) 0 ∧ Open (commitRules 7 (inPhase .commit (some 3)) waits 3 context1) 1 :=
  ⟨opens rfl (staging [] (inPhase .commit none) []) (by unfold Concerns; decide +kernel),
    opens rfl (staging [] (inPhase .commit (some 3)) [(3, context1)]) (by unfold Concerns; decide +kernel)⟩

/-- The last index of the task; a report of index 3. -/
def last1 : Task := { task0 with nextIdx := 3 }
def fed : Inst := { inst0 with held := [], baton := some (se, 1) }
def batons (a : Task) (x : Inst) : State := { st with launches := [(5, one a)], insts := [(7, x)], subject := (7, 0) }
def reporting : Inst := { inst0 with tdones := [⟨se, 3⟩] }

/-- An instance that waits with nothing to do, while the other takes the last index. -/
def idle8 : Inst := { inst0 with num := 1, held := [] }
def lastIndex : State := { batons { last1 with ready := true } fed with insts := [(7, fed), (8, idle8)] }

theorem met_baton : Open (batonRules 7 fed last1 se 1 ⟨se, 3⟩ [] 8 idle8) 0 ∧
    Open (batonRules 7 fed { last1 with ready := true } se 1 ⟨se, 3⟩ [] 8 idle8) 1 ∧
    Open (batonRules 7 reporting task0 se 1 ⟨se, 3⟩ [] 8 idle8) 2 ∧ Open (batonRules 7 reporting task0 se 1 ⟨se, 3⟩ [] 8 idle8) 3 := by
  refine ⟨opens rfl (batons last1 fed) ⟨by unfold Concerns; decide +kernel, fun y hy z hz => ?_⟩,
    opens rfl lastIndex (by unfold Concerns; decide +kernel),
    opens rfl { batons task0 reporting with units := scrub0, vfs := mapped.vfs, hbm := mapped.hbm } (by unfold Concerns; decide +kernel),
    opens rfl (batons task0 reporting) (by unfold Concerns; decide +kernel)⟩
  have e : (batons last1 fed).instsOf fed.launch fed.task = [(7, fed)] := by decide +kernel
  rw [e] at hy
  rw [List.mem_singleton.mp hy]
  exact if_pos rfl ▸ List.cons_ne_nil _ _

/-! ## Hypotheses that are met: stops -/

def faulty (f : FaultEvent) : Inst := { inst0 with faults := [f] }

/-- A fault of instance 7 behind an earlier one of the same element in another instance. -/
def behindFault (f : FaultEvent) : State :=
  { batons task0 (faulty f) with insts := [(7, faulty f), (8, earlier 0 se)] }

/-- The last cycle before the watchdog bites, with tokens in both kinds of queues of the SE. -/
def stuck : State :=
  (batons task0 { inst0 with watchdog := 2 ^ 20 }).modElem se (fun e => { e with iq := [[], [], [], [tok0]], oq := [[tok0], [], [], []] })

theorem met_faults : Open (faultRules 7 (faulty (event0 10 2)) task0 (event0 10 2) []) 0 ∧
    Open (faultRules 7 (faulty (event0 10 2)) task0 (event0 10 2) []) 1 ∧
    Open (faultRules 7 (faulty (event0 9 1)) task0 (event0 9 1) []) 2 ∧
    Open (faultRules 7 { inst0 with watchdog := 2 ^ 20 } task0 (event0 9 1) []) 3 :=
  ⟨opens rfl (behindFault (event0 10 2)) (by unfold Concerns; decide +kernel),
    opens rfl (batons task0 (faulty (event0 10 2))) (by unfold Concerns; decide +kernel),
    opens rfl (batons task0 (faulty (event0 9 1))) (by unfold Concerns; decide +kernel),
    opens rfl stuck (by decide +kernel)⟩

def releasing0 (r : Bool) : Inst := { inst0 with faulted := true, releaseAsked := true, releasing := r }

theorem met_release : Open (releaseRules 7 (releasing0 false)) 0 ∧ Open (releaseRules 7 (releasing0 true)) 1 :=
  ⟨opens rfl (batons task0 (releasing0 false)) (by decide +kernel), opens rfl (batons task0 (releasing0 true)) (by decide +kernel)⟩

/-- The wave is to reach the element it starts from. -/
def waving (stop : Stop) : Inst := { inst0 with stop, waveLeft := inst0.elems }
def frozen0 (stop : Stop) (done : Bool) : Inst := { inst0 with stop, holdDone := done }

/-- A single step of the SE in slot 5, under a policy, in a cluster of a partition or of none. -/
def step0 : StepWait := ⟨se, 5, 0, 0, 7⟩
def stepping (policy : List Byte) (own : Bool) : State :=
  let s := batons task0 { frozen0 (.hold se false) true with policy }
  { s with stepWaits := [step0], clusters := if own then s.clusters else State.reset.clusters }

/-- A policy's entry for class 12: LEVEL and RATE. -/
def class12 (level rate : Byte) : List Byte := List.replicate 144 0 ++ [level, 0, 0, rate]

/-- The partition has let one record of every class through in this second. -/
def spent (s : State) : State := s.modPart 0 (fun p => { p with rate := List.replicate 24 1 })

abbrev holding (stop : Stop) (done : Bool) : List EventRule := holdRules se 7 (frozen0 stop done) step0 0
theorem met_wave : Open (holdRules ag 7 (waving (.hold se false)) step0 0) 0 ∧ Open (holdRules ag 7 (waving (.cut false false)) step0 0) 1 :=
  ⟨opens rfl (batons task0 (waving (.hold se false))) ⟨by decide +kernel, se, false, rfl⟩,
    opens rfl (batons task0 (waving (.cut false false))) ⟨by decide +kernel, false, false, rfl⟩⟩
theorem met_hold : Open (holding (.hold se false) false) 2 ∧ Open (holding (.hold se true) false) 3 ∧
    Open (holding (.hold se false) true) 4 ∧ Open (holding (.hold se false) true) 5 ∧ Open (holding (.hold se false) true) 6 ∧
    Open (holding (.hold se false) true) 7 ∧ Open (holding (.hold se false) true) 8 := by
  refine ⟨opens rfl (batons task0 (frozen0 (.hold se false) false)) ⟨⟨rfl, by decide +kernel, by decide +kernel, se, rfl⟩, ?_⟩,
    opens rfl (batons task0 (frozen0 (.hold se true) false)) ⟨rfl, ?_, ⟨se, rfl⟩, ?_⟩,
    opens rfl (stepping [] false) ?_, opens rfl (stepping [] true) ?_, opens rfl (stepping (class12 1 31) true) ?_,
    opens rfl (stepping (class12 3 31) true) ?_, opens rfl (spent (stepping (class12 3 0) true)) ?_⟩ <;>
  first | decide +kernel | (unfold HasRoom; decide +kernel)

/-- Every element has been reached by the wave of a CUT; a pool of `n` units. -/
def cut0 (stop : Stop) (phase : Phase) (alloc : Option (Nat × Nat)) : Inst := { inst0 with stop, phase, alloc }
def pooled (n : Nat) (x : Inst) : State := (batons task0 x).modPart 0 (fun p => { p with poolSize := BitVec.ofNat 32 n })

/-- No tile is left for the task's shape; a word of the footprint of its tile cannot be read. -/
def shapeless : State := (pooled 10 (cut0 (.cut true false) .saving none)).modCluster 0 (fun c => { c with retired := BitVec.allOnes 36 })
def open1 : Task := { task0 with nextIdx := 3 }
/-- The Starter at the SRAM of the saved tile: under way, done, and done with a word that cannot be read. -/
def saved : Inst := cut0 (.cut false false) .saving (some (0, 10))
def swept0 (a : Task) (left : List (Nat × Nat × Nat)) (poison : List Nat) : State :=
  { (pooled 10 saved).modTile 0 (fun t => { t with sweep := some ⟨false, left, [], poison⟩ }) with launches := [(5, one a)] }
def footTask : Task := { task0 with gw := { task0.gw with footprint := 1 } }
def before0 : State := { pooled 10 saved with launches := [(5, one footTask)] }
def dropped0 : Inst := cut0 (.cut true false) .saving none

theorem met_save_start : Open (saveRules 7 (cut0 (.cut false false) .run none) task0 0 10) 0 ∧
    Open (saveRules 7 (cut0 (.cut true false) .run none) task0 0 10) 1 ∧
    Open (saveRules 7 (cut0 (.cut false false) .run none) task0 0 10) 2 :=
  ⟨opens rfl (pooled 10 (cut0 (.cut false false) .run none)) (by decide +kernel),
    opens rfl (pooled 10 (cut0 (.cut true false) .run none)) (by decide +kernel),
    opens rfl (pooled 9 (cut0 (.cut false false) .run none)) (by decide +kernel)⟩

theorem saves0 {s : State} {a : Task} (h : (Concerns s 7 saved a ∧ s.drained 7 saved = true ∧ a.gw.replicate = false) ∧
    s.poolWaits 0 0 10 = false) : (Concerns s 7 saved a ∧ saved.phase = .saving ∧ s.drained 7 saved = true ∧ a.gw.replicate = false) ∧
    saved.alloc = some (0, 10) ∧ s.poolWaits saved.part 0 10 = false ∧ ∃ l, saved.stop = .cut false l :=
  ⟨⟨h.1.1, rfl, h.1.2⟩, rfl, h.2, false, rfl⟩

theorem met_save_end : Open (saveRules 7 saved footTask 0 10) 3 ∧ Open (saveRules 7 saved footTask 0 10) 4 ∧
    Open (saveRules 7 saved footTask 0 10) 5 ∧ Open (saveRules 7 saved task0 0 10) 6 ∧ Open (saveRules 7 dropped0 task0 0 10) 7 ∧
    Open (saveRules 7 dropped0 open1 0 10) 8 ∧ Open (saveRules 7 saved footTask 0 10) 9 := by
  refine ⟨opens rfl before0 ⟨saves0 ?_, ?_⟩, opens rfl (swept0 footTask [(0, 1, 0)] []) ⟨saves0 ?_, ?_⟩,
    opens rfl (before0.modUnit 0 (fun u => { u with scrub := true })) ⟨⟨?_, ?_⟩, rfl, ?_⟩,
    opens rfl (swept0 task0 [] []) ⟨⟨saves0 ?_, ?_⟩, ?_⟩, opens rfl (pooled 10 dropped0) ⟨⟨?_, ?_⟩, rfl, ?_⟩,
    opens rfl { shapeless with launches := [(5, one open1)] } ⟨⟨?_, ?_⟩, rfl, ?_⟩,
    opens rfl (swept0 footTask [] [127]) ⟨⟨saves0 ?_, ?_⟩, ?_⟩⟩ <;>
  first | decide +kernel | (unfold Concerns; decide +kernel)

/-! ## Hypotheses that are met: the whole machine -/

/-- A step from a state whose memory lists bytes answers a state. -/
theorem met_step : Memory.wf mapped.hbm = true ∧ ∃ t, step { mapped with agenda := [.tick 1] } = .next t :=
  ⟨by decide +kernel, _, rfl⟩

/-- v2 = v0 + v1. -/
def sum0 : Slot := { slot0 with sa := .v 0, sb := .v 1, da := .v 2 }

/-- A well-formed instruction with an opcode and a well-formed message; both have words. -/
theorem met_encode : (Instr.add sum0).wellFormed = true ∧ (opcodeOf (.add sum0)).isSome = true ∧
    (Instr.launch (msg 1 0 0)).wellFormed = true ∧ ∃ m, amOf (.launch (msg 1 0 0)) = some m ∧ m.sender = .host ∧ m.amop.getLsbD 7 = false :=
  ⟨by decide, by decide, by decide, _, rfl, rfl, by decide⟩

theorem met_decode : decodeSlot 0x80001A0000C12FE08AFFC00000000000 = .ok (.lease
    { pri := 0, condT := 0, condF := 0, test0 := some ⟨2, true, 0⟩, test1 := none, da := .o 3, db := .none, otag := 0, deq := 4,
      sa := .head 2, sb := .none, sc := .none, pd := 0, pm := .keep, rnd := 0, d := false, kt := false, sat := false,
      ack := false, x := false, imm := 0 }) := by decide

/-- Each clause of a step: a firing in focus with a word, one without, an event, a message, a due firing, and nothing. -/
theorem met_turns :
    (∃ s : State, ∃ (fo : Focus) (i : Instr), s.focus = some fo ∧ decodeSlot fo.firing.word = .ok i) ∧
    (∃ s : State, ∃ (fo : Focus) (r : Reject), s.focus = some fo ∧ decodeSlot fo.firing.word = .error r) ∧
    (∃ s : State, ∃ i x rest, s.focus = none ∧ s.agenda = .event i x :: rest) ∧
    (∃ s : State, ∃ w l rest, s.focus = none ∧ s.agenda = .hostAm :: rest ∧ s.amIn = w :: l) ∧
    (∃ s : State, ∃ eid f i rest, s.focus = none ∧ s.agenda = .writeBack eid :: rest ∧
      ((s.elem eid).inflight.filter (fun f => f.remaining = 0)).find? (fun f => f.opc = 0x18D) = none ∧
      ((s.elem eid).inflight.filter (fun f => f.remaining = 0)).head? = some f ∧ decodeSlot f.word = .ok i) ∧
    ∃ s : State, s.focus = none ∧ s.agenda = [] := by
  let f : Firing := { firing0 with word := 0x80001A0000C12FE08AFFC00000000000 }
  have h : (((slotted [] 0 [f]).elem pe).inflight.filter (fun f => f.remaining = 0)).find? (fun f => f.opc = 0x18D) = none ∧
      (((slotted [] 0 [f]).elem pe).inflight.filter (fun f => f.remaining = 0)).head? = some f := by decide +kernel
  exact ⟨⟨inFocus st se f, ⟨se, f⟩, _, rfl, met_decode⟩, ⟨inFocus st se firing0, ⟨se, firing0⟩, .empty, rfl, by decide⟩,
    ⟨{ st with agenda := [.event .complete (5, 0)] }, _, _, _, rfl, rfl⟩, ⟨{ st with agenda := [.hostAm], amIn := [0] }, _, _, _, rfl, rfl, rfl⟩,
    ⟨{ slotted [] 0 [f] with agenda := [.writeBack pe] }, pe, f, _, [], rfl, rfl, h.1, h.2, met_decode⟩, ⟨st, rfl, rfl⟩⟩

/-- FLAGCLR first (R345). -/
theorem met_flagclr : ∃ s : State, ∃ f i, s.focus = none ∧ s.agenda = [.writeBack pe] ∧
    ((s.elem pe).inflight.filter (fun f => f.remaining = 0)).find? (fun f => f.opc = 0x18D) = some f ∧ decodeSlot f.word = .ok i := by
  let w : Slot := { slot0 with imm := 1 }
  let f : Firing := { firing0 with word := (encodeWord (.flagclr w)).getD 0 }
  have h : (((slotted [] 0 [firing0, f]).elem pe).inflight.filter (fun f => f.remaining = 0)).find? (fun f => f.opc = 0x18D) = some f ∧
      decodeSlot f.word = .ok (.flagclr w) := by decide +kernel
  exact ⟨{ slotted [] 0 [firing0, f] with agenda := [.writeBack pe] }, f, .flagclr w, rfl, rfl, h.1, h.2⟩

/-- Memory in its canonical form, a write over the wrap of a tile's SRAM, and a poisoned word written whole. -/
theorem met_memory : Memory.wf mapped.hbm = true ∧ Memory.wf (Tile.reset.write (spreadBytes 0x7FFFFE [1, 2, 3, 4]) false).sram = true := by
  decide +kernel

/-- Two orders of two terms. -/
theorem met_trees (t u : Nat → Option Term) : (AccTree.term (.term .start t) u).terms.Perm (AccTree.join (.term .start u) (.term .start t)).terms :=
  List.Perm.swap u t []

/-- One firing of terms 1 in every register, far from a window's bounds. -/
theorem met_floors : (0 : Nat) < elemCount true ∧ (AccTree.term .start (fun _ => some (some (1, 0)))).terms.length < 2 ^ 32 ∧
    ((AccTree.term .start (fun _ => some (some (1, 0)))).acc true 0).ov true 0 = false := by decide +kernel

/-! ## Decoding: one word per opcode, put together field by field from R141, R234 to R243 and the operand tables -/

/-- The word decodes to the instruction. -/
def decodesAs (p : BitVec 128 × Instr) : Bool := decodeSlot p.1 == .ok p.2

theorem decodes_integer : ([
    (0x8000000000007FE0BFFFC00000000000, .nop { slot0 with deq := 5 }),
    (0x800000000000B92606FFC00000000000, .mov { slot0 with da := .a 2, db := .o 1, otag := 3, sa := .v 6 }),
    (0x8000000000010FE009A7C00000000000, .add { slot0 with da := .v 3, sa := .head 1, sb := .c 4 }),
    (0x8000000000018FE009A7D10000000000, .sub { slot0 with da := .v 3, sa := .head 1, sb := .c 4, pd := 2, pm := .lane0 }),
    (0x8000000000022FE001C7C00080000001, .adds { slot0 with da := .o 3, sa := .v 1, sb := .imm, imm := 0x80000001 }),
    (0x8000000000028FE009A7C00000000000, .subs { slot0 with da := .v 3, sa := .head 1, sb := .c 4 }),
    (0x8000000000030FE009A7C00000000000, .addus { slot0 with da := .v 3, sa := .head 1, sb := .c 4 }),
    (0x8000000000038FE009A7C00000000000, .subus { slot0 with da := .v 3, sa := .head 1, sb := .c 4 }),
    (0x8000000000040FE009A7C00400000000, .mul { slot0 with da := .v 3, sa := .head 1, sb := .c 4, sat := true }),
    (0x8000000000048FE009A7C00000000000, .mulh { slot0 with da := .v 3, sa := .head 1, sb := .c 4 }),
    (0x8000000000050FE009A7C00000000000, .mulhu { slot0 with da := .v 3, sa := .head 1, sb := .c 4 }),
    (0x8000000000058FE009A3C00400000000, .mad { slot0 with da := .v 3, sa := .head 1, sb := .c 4, sc := .a 3, sat := true }),
    (0x8000000000060FE009A7C00000000000, .div { slot0 with da := .v 3, sa := .head 1, sb := .c 4 }),
    (0x8000000000068FE009A7C00000000000, .divu { slot0 with da := .v 3, sa := .head 1, sb := .c 4 }),
    (0x8000000000070FE009A7C00000000000, .rem { slot0 with da := .v 3, sa := .head 1, sb := .c 4 }),
    (0x8000000000078FE009A7C00000000000, .remu { slot0 with da := .v 3, sa := .head 1, sb := .c 4 })] : List (BitVec 128 × Instr)).all decodesAs = true := by decide +kernel

theorem decodes_bits : ([
    (0x80000000000803E007FFC00400000000, .neg { slot0 with da := .v 0, sa := .v 7, sat := true }),
    (0x80000000000883E019FFC00000000000, .abs { slot0 with da := .v 0, sa := .lane }),
    (0x8000000000090FE009A7C00000000000, .min { slot0 with da := .v 3, sa := .head 1, sb := .c 4 }),
    (0x8000000000098FE009A7C00000000000, .max { slot0 with da := .v 3, sa := .head 1, sb := .c 4 }),
    (0x80000000000A0FE009A7C00000000000, .minu { slot0 with da := .v 3, sa := .head 1, sb := .c 4 }),
    (0x80000000000A8FE009A7C00000000000, .maxu { slot0 with da := .v 3, sa := .head 1, sb := .c 4 }),
    (0x80000000000B0FE009A7C00000000000, .and { slot0 with da := .v 3, sa := .head 1, sb := .c 4 }),
    (0x80000000000B8FE009A7C00000000000, .or { slot0 with da := .v 3, sa := .head 1, sb := .c 4 }),
    (0x80000000000C0FE009A7C00000000000, .xor { slot0 with da := .v 3, sa := .head 1, sb := .c 4 }),
    (0x80000000000C8FE009A7C00000000000, .andn { slot0 with da := .v 3, sa := .head 1, sb := .c 4 }),
    (0x80000000000D17E01DFFC00000000000, .not { slot0 with da := .v 5, sa := .ones }),
    (0x80000000000D8FE009A7C00000000000, .shl { slot0 with da := .v 3, sa := .head 1, sb := .c 4 }),
    (0x80000000000E0FE009A7C00000000000, .shr { slot0 with da := .v 3, sa := .head 1, sb := .c 4 }),
    (0x80000000000E8FE009A7C00000000000, .sar { slot0 with da := .v 3, sa := .head 1, sb := .c 4 }),
    (0x80000000000F0FE009A7C00000000000, .rol { slot0 with da := .v 3, sa := .head 1, sb := .c 4 }),
    (0x80000000000F97E004FFC00000000000, .clz { slot0 with da := .v 5, sa := .v 4 })] : List (BitVec 128 × Instr)).all decodesAs = true := by decide +kernel

theorem decodes_fields : ([
    (0x80000000001017E004FFC00000000000, .popc { slot0 with da := .v 5, sa := .v 4 }),
    (0x80000000001097E004FFC00000000000, .brev { slot0 with da := .v 5, sa := .v 4 }),
    (0x80000000001117E004FFC02000000088, .bfx { slot0 with da := .v 5, sa := .v 4, rnd := 1, imm := 0x88 }),
    (0x80000000001197E0041FC00000000064, .bfi { slot0 with da := .v 5, sa := .v 4, sb := .v 3, imm := 0x64 }),
    (0x8000000000120FE009A0800000000000, .sel { slot0 with da := .v 3, sa := .head 1, sb := .c 4, sc := .v 2 }),
    (0x8000000000128FE009A7C00000000000, .cmpeq { slot0 with da := .v 3, sa := .head 1, sb := .c 4 }),
    (0x8000000000130FE009A7C00000000000, .cmpne { slot0 with da := .v 3, sa := .head 1, sb := .c 4 }),
    (0x8000000000138FE009A7FB0000000000, .cmplt { slot0 with da := .v 3, sa := .head 1, sb := .c 4, pd := 7, pm := .allLanes }),
    (0x8000000000140FE009A7C00000000000, .cmple { slot0 with da := .v 3, sa := .head 1, sb := .c 4 }),
    (0x8000000000148FE009A7C00000000000, .cmpltu { slot0 with da := .v 3, sa := .head 1, sb := .c 4 }),
    (0x8000000000150FE009A7C00000000000, .cmpleu { slot0 with da := .v 3, sa := .head 1, sb := .c 4 }),
    (0x80000000001587E00297C01000000000, .add64 { slot0 with da := .v 1, sa := .v 2, sb := .c 2, d := true }),
    (0x80000000001607E002C7C010FFFFFFFF, .sub64 { slot0 with da := .v 1, sa := .v 2, sb := .imm, d := true, imm := 0xffffffff }),
    (0x800000000016BBE00267C01000000000, .mul64 { slot0 with da := .a 2, sa := .v 2, sb := .a 0, d := true }),
    (0x80000000001707E0021FC01000000000, .cmplt64 { slot0 with da := .v 1, sa := .v 2, sb := .v 3, d := true }),
    (0x800000000017B7E003FFC0000000000C, .amov { slot0 with da := .a 1, sa := .v 3, imm := 0xc }),
    (0x8000000000183BE00CB3C00100000000, .aadd { slot0 with da := .a 2, sa := .a 0, sb := .c 6, sc := .a 3, x := true })] : List (BitVec 128 × Instr)).all decodesAs = true := by decide +kernel

theorem decodes_float : ([
    (0x80000000002013E0083FC08000000000, .fadd { slot0 with da := .v 4, sa := .head 0, sb := .v 7, rnd := 4 }),
    (0x80000000002093E0083FC02000000000, .fsub { slot0 with da := .v 4, sa := .head 0, sb := .v 7, rnd := 1 }),
    (0x80000000002113E0083FC04000000000, .fmul { slot0 with da := .v 4, sa := .head 0, sb := .v 7, rnd := 2 }),
    (0x80000000002193E0083C406000000000, .ffma { slot0 with da := .v 4, sa := .head 0, sb := .v 7, sc := .c 1, rnd := 3 }),
    (0x80000000002213E0083C801000000000, .ffms { slot0 with da := .v 4, sa := .head 0, sb := .v 7, sc := .c 2, d := true }),
    (0x80000000002293E0083C400000000000, .fnma { slot0 with da := .v 4, sa := .head 0, sb := .v 7, sc := .c 1 }),
    (0x80000000002313E0083FC00000000000, .fmin { slot0 with da := .v 4, sa := .head 0, sb := .v 7 }),
    (0x80000000002393E0083FC01000000000, .fmax { slot0 with da := .v 4, sa := .head 0, sb := .v 7, d := true }),
    (0x80000000002413E003FFC00000000000, .fabs { slot0 with da := .v 4, sa := .v 3 }),
    (0x80000000002493E003FFC01000000000, .fneg { slot0 with da := .v 4, sa := .v 3, d := true }),
    (0x80000000002513E0083FC00000000000, .fcopysgn { slot0 with da := .v 4, sa := .head 0, sb := .v 7 }),
    (0x80000000002593E0083FC00000000000, .fcmpeq { slot0 with da := .v 4, sa := .head 0, sb := .v 7 }),
    (0x80000000002613E0083FE20000000000, .fcmplt { slot0 with da := .v 4, sa := .head 0, sb := .v 7, pd := 4, pm := .anyLane }),
    (0x80000000002693E0083FC00000000000, .fcmple { slot0 with da := .v 4, sa := .head 0, sb := .v 7 }),
    (0x80000000002713E0083FC00000000000, .fcmpun { slot0 with da := .v 4, sa := .head 0, sb := .v 7 }),
    (0x80000000002793E0083FC00000000000, .fdiv { slot0 with da := .v 4, sa := .head 0, sb := .v 7 })] : List (BitVec 128 × Instr)).all decodesAs = true := by decide +kernel

theorem decodes_exact : ([
    (0x80000000002813E003FFC02000000000, .fsqrt { slot0 with da := .v 4, sa := .v 3, rnd := 1 }),
    (0x80000000002893E003FFC00000000000, .frcp { slot0 with da := .v 4, sa := .v 3 }),
    (0x80000000002913E003FFC01000000000, .frsq { slot0 with da := .v 4, sa := .v 3, d := true }),
    (0x80000000002993E003FFC06000000000, .frint { slot0 with da := .v 4, sa := .v 3, rnd := 3 }),
    (0x80000000002A13E003FFC00000000000, .fclass { slot0 with da := .v 4, sa := .v 3 }),
    (0x80000000002A93E0083FC02000000000, .fscale { slot0 with da := .v 4, sa := .head 0, sb := .v 7, rnd := 1 }),
    (0x80000000002B13E003FFC00000000000, .fexpn { slot0 with da := .v 4, sa := .v 3 }),
    (0x80000000002BF3E01FFFC00000000F80, .xclr { slot0 with da := .x 1, imm := 0xf80 }),
    (0x80000000002C6FE002FFC00100000000, .xadd { slot0 with da := .x 0, sa := .v 2, x := true }),
    (0x80000000002CF3E0021FC01000000000, .xmac { slot0 with da := .x 1, sa := .v 2, sb := .v 3, d := true }),
    (0x80000000002D73E08A9FC00000000000, .xmerge { slot0 with da := .x 1, deq := 4, sa := .head 2, sb := .c 3 }),
    (0x80000000002DA1201C67C00000000000, .xsend { slot0 with da := .o 0, db := .o 1, sa := .x 1, sb := .a 0 }),
    (0x80000000002E07E01BFFC05000000000, .xrd { slot0 with da := .v 1, sa := .x 0, rnd := 2, d := true }),
    (0x80000000002E87E01CFFC00000000000, .xflag { slot0 with da := .v 1, sa := .x 1 })] : List (BitVec 128 × Instr)).all decodesAs = true := by decide +kernel

theorem decodes_convert : ([
    (0x80000000004007E002FFC02000000000, .cvtfi { slot0 with da := .v 1, sa := .v 2, rnd := 1 }),
    (0x80000000004087E002FFC04000000000, .cvtfu { slot0 with da := .v 1, sa := .v 2, rnd := 2 }),
    (0x80000000004107E002FFC06000000000, .cvtif { slot0 with da := .v 1, sa := .v 2, rnd := 3 }),
    (0x80000000004187E002FFC08000000000, .cvtuf { slot0 with da := .v 1, sa := .v 2, rnd := 4 }),
    (0x800000000042044003FFC00000000000, .cvtsd { slot0 with da := .v 1, db := .v 2, sa := .v 3 }),
    (0x80000000004287E00327C01000000000, .cvtds { slot0 with da := .v 1, sa := .v 3, sb := .v 4, d := true }),
    (0x80000000004307E003FFC01000000000, .cvtdi { slot0 with da := .v 1, sa := .v 3, d := true }),
    (0x80000000004387E003FFC01000000000, .cvtid { slot0 with da := .v 1, sa := .v 3, d := true }),
    (0x80000000004407E002FFC00000000000, .fsinpi { slot0 with da := .v 1, sa := .v 2 }),
    (0x80000000004487E002FFC00000000000, .fcospi { slot0 with da := .v 1, sa := .v 2 }),
    (0x800000000045048002FFC00000000000, .frred { slot0 with da := .v 1, db := .v 4, sa := .v 2 }),
    (0x80000000004587E002FFC00000000000, .fexp2 { slot0 with da := .v 1, sa := .v 2 }),
    (0x80000000004607E002FFC00000000000, .flog2 { slot0 with da := .v 1, sa := .v 2 }),
    (0x80000000004687E002FFC00000000000, .ftanh { slot0 with da := .v 1, sa := .v 2 }),
    (0x80000000004707E002FFC00000000000, .fsigm { slot0 with da := .v 1, sa := .v 2 })] : List (BitVec 128 × Instr)).all decodesAs = true := by decide +kernel

theorem decodes_lanes : ([
    (0x80000000004807E002FFC06000000000, .lswap { slot0 with da := .v 1, sa := .v 2, rnd := 3 }),
    (0x80000000004887E0027FC00000000000, .lrot { slot0 with da := .v 1, sa := .v 2, sb := .a 3 }),
    (0x80000000004907E00219000100000000, .lperm { slot0 with da := .v 1, sa := .v 2, sb := .v 3, sc := .v 4, x := true }),
    (0x80000000004987E002C7C0000000000F, .lbcast { slot0 with da := .v 1, sa := .v 2, sb := .imm, imm := 0xf }),
    (0x80000000004A07E00287C00000000000, .lxor { slot0 with da := .v 1, sa := .v 2, sb := .c 0 }),
    (0x80000000004A87E0021FC02000000000, .lcomp { slot0 with da := .v 1, sa := .v 2, sb := .v 3, rnd := 1 }),
    (0x80000000004B07E0021FC06100000000, .lexp { slot0 with da := .v 1, sa := .v 2, sb := .v 3, rnd := 3, x := true }),
    (0x80000000004B87E00289400000000000, .lshup { slot0 with da := .v 1, sa := .v 2, sb := .c 1, sc := .v 5 }),
    (0x80000000004C07E0026FC00000000000, .vmask { slot0 with da := .v 1, sa := .v 2, sb := .a 1 }),
    (0x80000000004CB3E002FFC02000000000, .vvalid { slot0 with da := .a 0, sa := .v 2, rnd := 1 }),
    (0x80000000004D33E002FFC01000000000, .vradd { slot0 with da := .a 0, sa := .v 2, d := true }),
    (0x80000000004DB7E002FFC02000000000, .vrmin { slot0 with da := .a 1, sa := .v 2, rnd := 1 }),
    (0x80000000004E37E002FFC00000000000, .vrmax { slot0 with da := .a 1, sa := .v 2 }),
    (0x80000000004EB7E002FFC08000000000, .vrfadd { slot0 with da := .a 1, sa := .v 2, rnd := 4 }),
    (0x80000000004F37E002FFC00000000000, .vrfmax { slot0 with da := .a 1, sa := .v 2 }),
    (0x80000000004F87E002FB400100000000, .vscan { slot0 with da := .v 1, sa := .v 2, sc := .a 1, x := true }),
    (0x80000000005007E002FD402100000000, .vfscan { slot0 with da := .v 1, sa := .v 2, sc := .c 5, rnd := 1, x := true })] : List (BitVec 128 × Instr)).all decodesAs = true := by decide +kernel

theorem decodes_stream : ([
    (0x80000000006025410BFFC00000000000, .pass { slot0 with da := .o 1, db := .o 2, deq := 8, sa := .head 3 }),
    (0x800000000060A1C02875C00000000000, .dup { slot0 with da := .o 0, db := .a 2, deq := 1, sa := .head 0, sb := .a 2, sc := .c 7 }),
    (0x80000000006123E08A0FC00000000000, .filt { slot0 with da := .o 0, deq := 4, sa := .head 2, sb := .v 1 }),
    (0x800000000061A3E08A0FC02000000000, .gate { slot0 with da := .o 0, deq := 4, sa := .head 2, sb := .v 1, rnd := 1 }),
    (0x80000000006223E0E84A802000000000, .merge { slot0 with da := .o 0, deq := 7, sa := .head 0, sb := .head 1, sc := .head 2, rnd := 1 }),
    (0x800000000062A121285E804000000000, .zip { slot0 with da := .o 0, db := .o 1, deq := 9, sa := .head 0, sb := .head 3, sc := .zero, rnd := 2 }),
    (0x8000000000632124C957C00000000000, .isect { slot0 with da := .o 0, db := .o 1, otag := 2, deq := 6, sa := .head 1, sb := .head 2 }),
    (0x800000000063A124C956800000000000, .union { slot0 with da := .o 0, db := .o 1, otag := 2, deq := 6, sa := .head 1, sb := .head 2, sc := .zero }),
    (0x80000000006423E028FFC02000123456, .retag { slot0 with da := .o 0, deq := 1, sa := .head 0, rnd := 1, imm := 0x123456 }),
    (0x800000000064A12028FFC00000004001, .tagsel { slot0 with da := .o 0, db := .o 1, deq := 1, sa := .head 0, imm := 0x4001 }),
    (0x80000000006523E01FFFC00000000002, .aloop { slot0 with da := .o 0, imm := 0x2 }),
    (0x80000000006581202887C04000000000, .cnt { slot0 with da := .v 0, db := .o 1, deq := 1, sa := .head 0, sb := .c 0, rnd := 2 }),
    (0x80000000006621B2286C400000000000, .endgen { slot0 with da := .o 0, db := .a 1, otag := 9, deq := 1, sa := .head 0, sb := .a 1, sc := .c 1 }),
    (0x800000000066FFE01FFFC0000000F0A0, .pset { slot0 with imm := 0xf0a0 }),
    (0x8000000000677FE001FFC02080010000, .sloten { slot0 with sa := .v 1, rnd := 1, imm := 0x80010000 }),
    (0x800000000067A060281FC00000000000, .pack { slot0 with da := .o 0, db := .v 3, deq := 1, sa := .head 0, sb := .v 3 })] : List (BitVec 128 × Instr)).all decodesAs = true := by decide +kernel

theorem decodes_scratchpad : ([
    (0x80000000008007E002FFC000007FFFFC, .lds { slot0 with da := .v 1, sa := .v 2, imm := 0x7ffffc }),
    (0x800000000080A3E0021FC00240000010, .sts { slot0 with da := .o 0, sa := .v 2, sb := .v 3, ack := true, imm := 0x40000010 }),
    (0x80000000008107E002FFC00000000004, .ldsx { slot0 with da := .v 1, sa := .v 2, imm := 0x4 }),
    (0x800000000081FFE0021FC00000000008, .stsx { slot0 with sa := .v 2, sb := .v 3, imm := 0x8 }),
    (0x80000000008207E0021FC0E000000010, .atms { slot0 with da := .v 1, sa := .v 2, sb := .v 3, rnd := 7, imm := 0x10 }),
    (0x80000000008287E00219000000000014, .cass { slot0 with da := .v 1, sa := .v 2, sb := .v 3, sc := .v 4, imm := 0x14 }),
    (0x80000000008307E002FFC00000000018, .tas { slot0 with da := .v 1, sa := .v 2, imm := 0x18 }),
    (0x8000000000838480021FC00018000000, .hins { slot0 with da := .v 1, db := .v 4, sa := .v 2, sb := .v 3, imm := 0x18000000 }),
    (0x800000000084048002FFC00008000000, .hfind { slot0 with da := .v 1, db := .v 4, sa := .v 2, imm := 0x8000000 }),
    (0x800000000084FFE002FFC00138000020, .lbput { slot0 with sa := .v 2, x := true, imm := 0x38000020 }),
    (0x80000000008507E01FFFC00028000040, .lbget { slot0 with da := .v 1, imm := 0x28000040 }),
    (0x80000000008587E01FFFC00010000000, .lbstat { slot0 with da := .v 1, imm := 0x10000000 }),
    (0x8000000000862BE01FFFC000C0000000, .fences { slot0 with da := .o 2, imm := 0xc0000000 }),
    (0x800000000086A7E002FFC042B8000000, .cpy { slot0 with da := .o 1, sa := .v 2, rnd := 2, ack := true, imm := 0xb8000000 }),
    (0x80000000008723E0021FC00240000004, .rsts { slot0 with da := .o 0, sa := .v 2, sb := .v 3, ack := true, imm := 0x40000004 }),
    (0x800000000087A3E0021FC00100000008, .ratm { slot0 with da := .o 0, sa := .v 2, sb := .v 3, x := true, imm := 0x8 })] : List (BitVec 128 × Instr)).all decodesAs = true := by decide +kernel

theorem decodes_memory : ([
    (0x80000000008823E002FFC0003FFFFFFF, .ldg { slot0 with da := .o 0, sa := .v 2, imm := 0x3fffffff }),
    (0x800000000088FFE0021FC00010000001, .stg { slot0 with sa := .v 2, sb := .v 3, imm := 0x10000001 }),
    (0x80000000008927E002FFC00020000002, .gath { slot0 with da := .o 1, sa := .v 2, imm := 0x20000002 }),
    (0x800000000089A3E0021FC00290000000, .scat { slot0 with da := .o 0, sa := .v 2, sb := .v 3, ack := true, imm := 0x90000000 }),
    (0x80000000008A7FE0021FC0A030000000, .atmg { slot0 with sa := .v 2, sb := .v 3, rnd := 5, imm := 0x30000000 }),
    (0x80000000008AA3E0021D000010000000, .casg { slot0 with da := .o 0, sa := .v 2, sb := .v 3, sc := .c 4, imm := 0x10000000 }),
    (0x80000000008B21201FFFC00020000000, .patld { slot0 with da := .o 0, db := .o 1, imm := 0x20000000 }),
    (0x80000000008BA3E049FFC00250000000, .patst { slot0 with da := .o 0, deq := 2, sa := .head 1, ack := true, imm := 0x50000000 }),
    (0x80000000008C23E01FFFC00030000000, .planeld { slot0 with da := .o 0, imm := 0x30000000 }),
    (0x80000000008CAFE01FFFC00010000000, .wld { slot0 with da := .o 3, imm := 0x10000000 }),
    (0x80000000008D23E01FFFC00080000000, .fenceg { slot0 with da := .o 0, imm := 0x80000000 }),
    (0x80000000008DFFE001FFC00020000003, .patset { slot0 with sa := .v 1, imm := 0x20000003 }),
    (0x80000000008E7FE001FFC00010000100, .pref { slot0 with sa := .v 1, imm := 0x10000100 })] : List (BitVec 128 × Instr)).all decodesAs = true := by decide +kernel

theorem decodes_matrix : ([
    (0x8000000000A07FE01FFFC0013FFF8064, .mcfg { slot0 with x := true, imm := 0x3fff8064 }),
    (0x8000000000A0FFE028FFC00000000005, .mwload { slot0 with deq := 1, sa := .head 0, imm := 0x5 }),
    (0x8000000000A17FE049FFC00000000001, .mexpt { slot0 with deq := 2, sa := .head 1, imm := 0x1 }),
    (0x8000000000A1FFE08AFFC00000000000, .mplane { slot0 with deq := 4, sa := .head 2 }),
    (0x8000000000A223E01FFFC08100000000, .mdrain { slot0 with da := .o 0, rnd := 4, x := true }),
    (0x8000000000A2FFE01FFFC00000000000, .mclr slot0),
    (0x8000000000A37FE01FFFC00000000000, .mswap slot0),
    (0x8000000000A387E01FFFC00000000000, .mstat { slot0 with da := .v 1 })] : List (BitVec 128 × Instr)).all decodesAs = true := by decide +kernel

theorem decodes_system : ([
    (0x8000000000C07FE01FFFC000000000A5, .trap { slot0 with imm := 0xa5 }),
    (0x8000000000C0FFE01FFFC00000000000, .brk slot0),
    (0x8000000000C12FE08AFFC00000000000, .lease { slot0 with da := .o 3, deq := 4, sa := .head 2 }),
    (0x8000000000C1A3E001FFC00000000000, .leaseend { slot0 with da := .o 0, sa := .v 1 }),
    (0x8000000000C207E01FFFC00000000000, .meltrd { slot0 with da := .v 1 }),
    (0x8000000000C287E01FFFC00000000004, .cntrd { slot0 with da := .v 1, imm := 0x4 }),
    (0x8000000000C37FE01FFFC000000001FF, .cntctl { slot0 with imm := 0x1ff }),
    (0x8000000000C387E010FFC00000000000, .pace { slot0 with da := .v 1, sa := .c 0 }),
    (0x8000000000C407E01FFFC00000000000, .tstamp { slot0 with da := .v 1 }),
    (0x8000000000C4FFE001FFC00000000000, .tdone { slot0 with sa := .v 1 }),
    (0x8000000000C57FE01FFFC00000000000, .yield slot0),
    (0x8000000000C5A3E001FFC00000000000, .amsend { slot0 with da := .o 0, sa := .v 1 }),
    (0x8000000000C607E01FFFC00000000000, .flagrd { slot0 with da := .v 1 }),
    (0x8000000000C6FFE01FFFC00000000080, .flagclr { slot0 with imm := 0x80 }),
    (0x8000000000C707E01FFFC00000000007, .policyrd { slot0 with da := .v 1, imm := 0x7 })] : List (BitVec 128 × Instr)).all decodesAs = true := by decide +kernel

/-! ## Decoding: triggers, messages and refused words -/

/-- The example of R141, `when !p0 i2:data* … pri 1`, on a NOP; then PRI 3, p7 TRUE, i1 END and i3 class all. -/
theorem decodes_triggers : ([
    (0xA0003A0000007FE01FFFC00000000000, .nop { slot0 with pri := 1, condF := 1, test0 := some ⟨2, true, 0⟩ }),
    (0xF000159FE0007FE01FFFC00000000000,
      .nop { slot0 with pri := 3, condT := 0x80, test0 := some ⟨1, false, 0xC⟩, test1 := some ⟨3, true, 0xF⟩ })] :
    List (BitVec 128 × Instr)).all decodesAs = true := by decide +kernel

/-- The example of R31, LAUNCH of VF 37 with SEQ 18, and the other AMOPs of R32 in the same place. -/
def am37 (amop operand : Nat) : Am := ⟨BitVec.ofNat 8 amop, 37, 0, 18, BitVec.ofNat 32 operand, 0x00001F4000000200, .host⟩

theorem decodes_messages : ([
    (0x011280120000000D00001F4000000200, .launch (am37 1 0xD)), (0x021280120000000100001F4000000200, .cancel (am37 2 1)),
    (0x031280120000000100001F4000000200, .preempt (am37 3 1)), (0x041280120000000000001F4000000200, .resume (am37 4 0)),
    (0x051280120000000900001F4000000200, .signal (am37 5 9)), (0x061280120000000000001F4000000200, .order (am37 6 0)),
    (0x071280120000000000001F4000000200, .policy (am37 7 0)), (0x081280120000000300001F4000000200, .maproot (am37 8 3)),
    (0x091280120000100000001F4000000200, .fwloadOpen (am37 9 0x1000)), (0x091280120000000000001F4000000200, .fwloadClose (am37 9 0)),
    (0x0A1280120001004000001F4000000200, .dbgread (am37 10 0x10040)), (0x0B1280120001004000001F4000000200, .dbghold (am37 11 0x10040)),
    (0x0B1280120000004000001F4000000200, .dbgholdRelease (am37 11 0x40)), (0x4F1280120000000700001F4000000200, .userAm (am37 0x4F 7)),
    (0x501280120000000700001F4000000200, .amUndefined (am37 0x50 7))] : List (BitVec 128 × Instr)).all
    (fun p => decodeTableWord 128 p.1.toNat == some p.2) = true := by decide +kernel

/-- The decoder refuses by name: an empty slot, a reserved trigger bit, PCOND 11, a test of tag 0xF, a reserved class, an
unassigned opcode, OTAG 0xF, the specifiers 30 and 16, RND 7, and fewer than 16 bytes. -/
theorem refuses_words : ([
    (0, .empty), (0x8000000001010BE0000FC00000000000, .trigger),
    (0x8001800000010BE0000FC00000000000, .trigger), (0x800011E000010BE0000FC00000000000, .trigger),
    (0x80000012C0010BE0000FC00000000000, .trigger), (0x800000000018FFE01FFFC00000000000, .opcode),
    (0x80000000000123FE000FC00000000000, .otagFinish), (0x8000000000010BE01E0FC00000000000, .reserved),
    (0x80000000000143E0000FC00000000000, .reserved), (0x8000000000010BE0000FC0E000000000, .reserved)] : List (BitVec 128 × Reject)).all (fun p => decodeSlot p.1 == .error p.2) = true ∧
    decode (List.replicate 15 0xFF) = .error .short := by decide +kernel

/-! ## Ill-formed terms, one for each check of `Instr.wellFormed` -/

theorem wellFormed_accepts : [Instr.add sum0, .lds { sum0 with sb := .none, imm := 0x7FFFFF }, .fadd { sum0 with sa := .a 2, d := true },
    .launch (am37 1 0), .elementFreed pe].all (fun i => i.wellFormed) = true := by decide +kernel

/-- The trigger half (R141) and OTAG (R129). -/
theorem wellFormed_trigger : [Instr.add { sum0 with condT := 4, condF := 4 }, .add { sum0 with test0 := some ⟨0, false, 15⟩ },
    .add { sum0 with test1 := some ⟨0, true, 6⟩ }, .add { sum0 with da := .o 0, otag := 15 }].all (fun i => !i.wellFormed) = true := by
  decide +kernel

/-- Sources and destinations (R235, R236). -/
theorem wellFormed_operands : [Instr.add { sum0 with sb := .none }, .add { sum0 with sa := .x 0 }, .add { sum0 with sc := .v 0 },
    .fadd { sum0 with sa := .a 1, d := true }, .fadd { sum0 with sb := .c 3, d := true }, .fadd { sum0 with da := .a 3, d := true },
    .add { sum0 with da := .x 1 }, .add { sum0 with da := .none, db := .v 1 }, .add { sum0 with db := .v 2 }, .xadd { slot0 with sa := .v 0, da := .v 1 },
    .tagsel { slot0 with sa := .head 0 }, .xsend { slot0 with sa := .x 0, sb := .v 0, da := .v 1 }, .fences { slot0 with da := .v 0 },
    .sts { slot0 with sa := .v 0, sb := .v 1, ack := true }, .dup { slot0 with sa := .head 0, deq := 1, sb := .a 1, sc := .c 0, da := .o 0, db := .a 2 },
    .pass { slot0 with sa := .v 0, da := .o 0 }, .mplane { slot0 with sa := .head 0 }, .pack { slot0 with sa := .head 0, sb := .a 0, da := .o 0, db := .v 0, deq := 1 },
    .zip { slot0 with sa := .head 0, sb := .head 1, sc := .v 0, da := .o 0, db := .o 1, rnd := 2, deq := 3 },
    .merge { slot0 with sa := .head 0, sb := .head 0, da := .o 0, deq := 1 }].all (fun i => !i.wellFormed) = true := by decide +kernel

/-- Predicates, RND/MOD, flags and tags (R239 to R241). -/
theorem wellFormed_modes : [Instr.add { sum0 with pd := 1 }, .add { sum0 with pm := .endTag }, .nop { slot0 with pm := .lane0 },
    .pset { slot0 with imm := 0x101, pm := .setTrue }, .ldg { slot0 with sa := .v 0, da := .o 0, pm := .anyLane },
    .stg { slot0 with sa := .v 0, sb := .v 1, da := .o 0, ack := true, pm := .lane0 }, .add { sum0 with rnd := 1 },
    .fadd { sum0 with rnd := 5 }, .add { sum0 with d := true }, .add64 sum0, .add { sum0 with sat := true }, .add { sum0 with ack := true },
    .add { sum0 with x := true }, .add { sum0 with da := .o 0, kt := true }, .add { sum0 with kt := true, deq := 1 }, .add { sum0 with otag := 1 },
    .filt { sum0 with da := .o 0, otag := 1 }, .isect { slot0 with sa := .head 0, sb := .head 1, da := .o 0, deq := 3, kt := true },
    .aadd { sum0 with sc := .a 0 }, .atms { sum0 with x := true, rnd := 1 }].all (fun i => !i.wellFormed) = true := by decide +kernel

/-- IMM (R242) and the fields that instructions take from it. -/
theorem wellFormed_fields : [Instr.add { sum0 with imm := 1 }, .bfx { sum0 with sb := .none, imm := 0x410 + 1 }, .bfx { sum0 with sb := .imm, imm := 0x20 },
    .amov { sum0 with sb := .none, imm := 16 }, .xclr { slot0 with da := .x 0, imm := 0x1000 },
    .retag { slot0 with sa := .head 0, da := .o 0, imm := 0xE }, .retag { slot0 with sa := .head 0, da := .o 0, imm := 0x1000000, rnd := 1 },
    .tagsel { slot0 with sa := .head 0, da := .o 0, imm := 0x8000 }, .aloop { slot0 with da := .o 0, imm := 4 }, .pset { slot0 with imm := 1 },
    .pset { slot0 with imm := 0x10100 }, .sloten { slot0 with imm := 1 }, .lds { sum0 with sb := .none, imm := 0x800000 },
    .lds { sum0 with sb := .none, imm := 0x40000000 }, .hfind { sum0 with sb := .none, imm := 0x20000000 }, .lbstat { slot0 with imm := 1 },
    .tas { sum0 with sb := .none, imm := 2 }, .fenceg { slot0 with da := .o 0, imm := 0x10000000 }, .patset { slot0 with sa := .v 0, imm := 5 },
    .patset { slot0 with imm := 0 }, .mcfg { slot0 with imm := 0 }, .mcfg { slot0 with imm := 0xD000 }, .mcfg { slot0 with imm := 0x39000, x := true },
    .mwload { slot0 with sa := .head 0, deq := 1, imm := 8 }, .mexpt { slot0 with sa := .head 0, deq := 1, imm := 2 }, .trap { slot0 with imm := 256 },
    .cntrd { sum0 with sa := .none, sb := .none, imm := 8 }, .cntctl { slot0 with imm := 0x301 }, .cntctl { slot0 with imm := 0x100 }, .flagclr slot0,
    .endgen { slot0 with sa := .head 0, sb := .a 0, sc := .c 0, da := .o 0, db := .a 0, otag := 1 }].all (fun i => !i.wellFormed) = true := by decide +kernel

/-- A message under another AMOP's constructor, and events that name what does not exist (R2, R17). -/
theorem wellFormed_others : [Instr.launch (am37 2 0), .fwloadOpen (am37 9 0), .dbghold (am37 11 0), .userAm (am37 0x50 0), .elementFreed (64 * 48),
    .tokenTransfer pe 16, .prefetch ag 4, .endpointDelivery 6 0, .trackInject 1024 0, .finishArrival pe 4, .userAmDelivery 16 0, .vfTableWrite 511 512 0,
    .ownershipWrite 511 4096 0, .clusterControlWrite 511 16 0, .aqricPortFail 36, .tkeyWrite 511 16 0 0].all (fun i => !i.wellFormed) = true := by decide +kernel

/-! ## Single firings with results of the spec -/

/-- Lane 0 of v1 and the sticky flags after an instruction that writes v1 on the lanes `a`, `b` and `c`. -/
def wordAfter (i : Instr) (a b c : List Word) : Option (Word × Word) :=
  match exec i (inFocus st pe { firing0 with a := plain a, b := plain b, c := plain c }) with
  | .next t => ((t.elem pe).v.getD 1 (lanesOfList [])).toList.head?.bind (fun l => l.map (fun x => (x, (t.elem pe).flags)))
  | _ => none

def into1 : Slot := { slot0 with da := .v 1, sa := .v 0, sb := .v 1 }

/-- The borderline integer results of chapter 12 (R257 to R260), with OF = 0x04 and IDZ = 0x20. -/
theorem integer_results : ([
    (.adds into1, 0x7FFFFFF0, 0x20, 0x7FFFFFFF, 4), (.subus into1, 3, 5, 0, 4), (.mul into1, 0xFFFFFFFD, 0x40000000, 0x40000000, 0),
    (.mul { into1 with sat := true }, 0xFFFFFFFD, 0x40000000, 0x80000000, 4), (.mulh into1, 0xFFFFFFFD, 0x40000000, 0xFFFFFFFF, 0),
    (.mulhu into1, 0xFFFFFFFD, 0x40000000, 0x3FFFFFFF, 0), (.div into1, 0xFFFFFFF9, 2, 0xFFFFFFFD, 0), (.rem into1, 0xFFFFFFF9, 2, 0xFFFFFFFF, 0),
    (.div into1, 0x80000000, 0xFFFFFFFF, 0x80000000, 4), (.rem into1, 0x80000000, 0xFFFFFFFF, 0, 0), (.divu into1, 5, 0, 0xFFFFFFFF, 0x20),
    (.rem into1, 5, 0, 5, 0x20), (.remu into1, 5, 0, 0xFFFFFFFF, 0x20), (.neg into1, 0x80000000, 0, 0x80000000, 0),
    (.neg { into1 with sat := true }, 0x80000000, 0, 0x7FFFFFFF, 4), (.shl into1, 1, 33, 2, 0), (.clz into1, 0, 0, 32, 0), (.clz into1, 0x10000, 0, 15, 0),
    (.bfx { into1 with imm := 0x88 }, 0xF00, 0, 0xF, 0), (.bfx { into1 with imm := 0x88, rnd := 1 }, 0xF00, 0, 0xFFFFFFFF, 0),
    (.bfi { into1 with imm := 0x64 }, 0xFFFFFFFF, 5, 0xFFFFFFDF, 0)] : List (Instr × Word × Word × Word × Word)).all
    (fun x => wordAfter x.1 [x.2.1] [x.2.2.1] [0] == some x.2.2.2) = true := by decide +kernel

/-- Samples and special operands of chapter 13 (R281 to R286), with NV = 0x01, DZ = 0x02 and NX = 0x10. -/
theorem float_results : ([
    (.frred into1, 0x447A1000, 0, 0x3E800000, 0), (.frred into1, 0x40400000, 0, 0xBF800000, 0), (.frred into1, 0xC0000000, 0, 0x80000000, 0),
    (.frint into1, 0xBE99999A, 0, 0x80000000, 0x10), (.cvtfu { into1 with rnd := 1 }, 0xBE99999A, 0, 0, 0x10),
    (.cvtfu { into1 with rnd := 3 }, 0xBE99999A, 0, 0, 1), (.fdiv into1, 0x3F800000, 0x80000000, 0xFF800000, 2), (.fmin into1, 0, 0x80000000, 0x80000000, 0),
    (.fmul into1, 0, 0x7F800000, 0x7FC00000, 1), (.fcmpeq into1, 0x80000000, 0, 0xFFFFFFFF, 0), (.fcmplt into1, 0x7FC00000, 0, 0, 1),
    (.fexpn into1, 1, 0, 0xFFFFFF6B, 0), (.fclass into1, 0xFF800000, 0, 1, 0), (.frcp into1, 0xFF800000, 0, 0x80000000, 0),
    (.fadd into1, 0x3F800000, 0x33800000, 0x3F800000, 0x10), (.fadd { into1 with rnd := 2 }, 0x3F800000, 0x33800000, 0x3F800001, 0x10),
    (.fsqrt into1, 0x40800000, 0, 0x40000000, 0), (.fsqrt into1, 0xBF800000, 0, 0x7FC00000, 1)] : List (Instr × Word × Word × Word × Word)).all
    (fun x => wordAfter x.1 [x.2.1] [x.2.2.1] [0] == some x.2.2.2) = true := by decide +kernel

/-- Lane moves by R288 to R290: A lane 1, A lane 15, A lane 2, the sum, the mask and the count of three lanes. -/
theorem lane_results : ([
    (.lswap into1, [1, 2, 3], [0], 2), (.lbcast into1, [1, 2, 3], [2], 3), (.lxor into1, [1, 2, 3], [2], 3), (.vradd into1, [1, 2, 3], [0], 6),
    (.vvalid into1, [1, 2, 3], [0], 7), (.vvalid { into1 with rnd := 1 }, [1, 2, 3], [0], 3), (.lperm into1, [1, 2, 3], [0x12], 3)] :
    List (Instr × List Word × List Word × Word)).all (fun x => wordAfter x.1 x.2.1 x.2.2.1 [0] == some (x.2.2.2, 0)) = true := by decide +kernel

/-- The example of R292: the exclusive scan of 3, 1, 2 after a carry of 10 begins with 10 and leaves 16 in a2. -/
theorem scan_result : (match exec (.vscan { slot0 with da := .v 1, db := .a 2, sc := .a 2, x := true })
      (inFocus st pe { firing0 with a := plain [3, 1, 2], b := plain [], c := plain [10] }) with
    | .next t => (((t.elem pe).v.getD 1 (lanesOfList [])).toList.take 4, (t.elem pe).a.getD 2 0) == ([some 10, some 13, some 14, none], 16)
    | _ => false) = true := by decide +kernel

end Sys2Proof.Tests
end

/-! # Rules of events -/

section
namespace Sys2Proof.Claims
open Sys2Proof.Machine

/-- One rule: where its condition holds the event answers a next state that the rule describes. -/
def EventRule.Holds (r : EventRule) : Prop := ∀ s, r.pre s → ∃ t, exec r.event s = .next t ∧ r.post s t

theorem Happen.nil : Happen [] := fun _ h => nomatch h

theorem Happen.cons {r : EventRule} {l : List EventRule} (h : r.Holds) (k : Happen l) : Happen (r :: l) :=
  List.forall_mem_cons.2 ⟨h, k⟩

theorem becomes_holds {i : Instr} {pre : State → Prop} {f : State → State} (h : ∀ s, pre s → exec i s = .next (f s)) :
    (becomes i pre f).Holds := fun s hs => ⟨f s, h s hs, rfl⟩

end Sys2Proof.Claims
end

/-! # Accesses of the host (R28) -/

section
namespace Sys2Proof.Claims
open Sys2Proof.Machine

/-! ## Homes of the granules -/

theorem homePa_spec {s : State} {v va : Nat} {k : AccessWant} (h : (homePa s v va k).isSome = true) :
    s.hostHome v va k = some (.hbm ((homePa s v va k).getD 0)) := by
  unfold homePa at h ⊢
  split at h
  · simp [*]
  · simp at h

/-- Where every granule has a home, the homes are those of the granules in their order. -/
theorem hostHomes_eq_some {s : State} {v va n : Nat} {k : AccessWant} (f : Nat × Nat → Home)
    (h : ∀ g ∈ granulesOf va n, s.hostHome v g.1 k = some (f g)) :
    s.hostHomes v va n k = some ((granulesOf va n).map (fun g => (g.1, g.2, f g))) := by
  unfold State.hostHomes
  generalize granulesOf va n = l at h ⊢
  induction l with
  | nil => rfl
  | cons g l ih =>
    obtain ⟨hg, hl⟩ := List.forall_mem_cons.1 h
    simp only [List.foldr_cons, ih hl, hg, List.map_cons]

theorem hostHomes_eq_none {s : State} {v va n : Nat} {k : AccessWant}
    (h : ∃ g ∈ granulesOf va n, s.hostHome v g.1 k = none) : s.hostHomes v va n k = none := by
  unfold State.hostHomes
  generalize granulesOf va n = l at h ⊢
  induction l with
  | nil => simp at h
  | cons g l ih =>
    rw [List.foldr_cons]
    obtain ⟨x, hx, hn⟩ := h
    rcases List.mem_cons.1 hx with rfl | hx
    · rw [hn]; split <;> simp_all
    · rw [ih ⟨x, hx, hn⟩]

theorem no_granule_waits {s : State} {v va n : Nat} {k : AccessWant} :
    (granulesOf va n).any (fun g => s.hostWaits v g.1 k) = false ↔ ∀ g ∈ granulesOf va n, s.hostWaits v g.1 k = false := by
  simp

theorem some_granule_waits {s : State} {v va n : Nat} {k : AccessWant} :
    (granulesOf va n).any (fun g => s.hostWaits v g.1 k) = true ↔ ∃ g ∈ granulesOf va n, s.hostWaits v g.1 k = true := by
  simp

/-- The homes in HBM of an access that reaches them all. -/
theorem hostHomes_of_reaches {s : State} {v va n : Nat} {k : AccessWant} (h : Reaches s v va n k) :
    s.hostHomes v va n k = some ((granulesOf va n).map (fun g => (g.1, g.2, .hbm ((homePa s v g.1 k).getD 0)))) :=
  hostHomes_eq_some _ fun g hg => homePa_spec (h g hg).2

/-! ## Requests of an access of the host on the link -/

theorem dropLinks_unasked {s : State} {i : Instr} (h : Unasked s i) : s.dropLinks (.host i) = s := by
  have : s.links.filter (fun r => r.owner ≠ .host i) = s.links := List.filter_eq_self.2 fun r hr => by simpa using h r hr
  rw [State.dropLinks, this]

theorem not_any_unasked {s : State} {i : Instr} (h : Unasked s i) : s.links.any (fun r => r.owner = .host i) = false :=
  List.any_eq_false.2 fun r hr => by simpa using h r hr

theorem all_unasked {s : State} {i : Instr} (h : Unasked s i) (p : LinkReq → Bool) :
    s.links.all (fun r => r.owner ≠ .host i || p r) = true :=
  List.all_eq_true.2 fun r hr => by simp [h r hr]

theorem hostTaken_unasked {s : State} {i : Instr} (h : Unasked s i) : s.hostTaken i = true := all_unasked h _

/-- Nothing is asked for where every part lies in HBM. -/
theorem hostAsk_hbm {s : State} {i : Instr} (h : Unasked s i) (w : Bool) (l : List (Nat × Nat)) (pa : Nat × Nat → Nat) :
    s.hostAsk i w (l.map (fun g => (g.1, g.2, Home.hbm (pa g)))) = (true, s) := by
  simp only [State.hostAsk, not_any_unasked h, List.foldl_map, Bool.false_eq_true, if_false]
  rw [List.foldl_fixed' (fun _ => rfl)]
  simp only [all_unasked h]

/-- The requests of an access that has one: whether they are answered, and taken, is whether that one is. -/
theorem all_mine {l : List LinkReq} {i : Instr} {r : LinkReq} (h : l.filter (fun x => x.owner = .host i) = [r]) (p : LinkReq → Bool) :
    l.all (fun x => x.owner ≠ .host i || p x) = p r := by
  have : l.all (fun x => x.owner ≠ .host i || p x) = (l.filter (fun x => x.owner = .host i)).all p := by
    rw [List.all_filter]; congr 1; funext x; by_cases hx : x.owner = .host i <;> simp [hx]
  rw [this, h]
  simp

theorem any_mine {s : State} {i : Instr} {r : LinkReq} (h : s.links.filter (fun x => x.owner = .host i) = [r]) :
    s.links.any (fun x => x.owner = .host i) = true := by
  have hr : r ∈ s.links.filter (fun x => x.owner = .host i) := by simp [h]
  rw [List.mem_filter] at hr
  exact List.any_eq_true.2 ⟨r, hr⟩

theorem find_mine {s : State} {i : Instr} {r : LinkReq} {pkg pa : Nat} (h : s.links.filter (fun x => x.owner = .host i) = [r])
    (hp : r.pkg = pkg) (ha : r.pa = pa) : s.links.find? (fun x => x.owner = .host i && x.pkg = pkg && x.pa = pa) = some r := by
  have : s.links.find? (fun x => x.owner = .host i && x.pkg = pkg && x.pa = pa) =
      (s.links.filter (fun x => x.owner = .host i)).find? (fun x => x.pkg = pkg && x.pa = pa) := by
    rw [List.find?_filter]; congr 1; funext x; simp [Bool.and_assoc]
  rw [this, h]
  simp [hp, ha]

/-- A part that another package holds: an access that has its request asks no more. -/
theorem hostAsk_mine {s : State} {i : Instr} {r : LinkReq} (h : s.links.filter (fun x => x.owner = .host i) = [r]) (w : Bool)
    (l : List (Nat × Nat × Home)) : s.hostAsk i w l = (r.answer.isSome, s) := by
  simp only [State.hostAsk, any_mine h, if_true, all_mine h (fun r => r.answer.isSome)]

/-- One that has none asks over the port of its granule. -/
theorem hostAsk_posts {s : State} {i : Instr} (h : Unasked s i) (w : Bool) (va n pkg ptag pa port : Nat) :
    s.hostAsk i w [(va, n, .remote pkg ptag pa port)] =
      ((s.postLink (.host i) pkg pa n w).links.all (fun r => r.owner ≠ .host i || r.answer.isSome), s.postLink (.host i) pkg pa n w) := by
  simp only [State.hostAsk, not_any_unasked h]
  rfl

end Sys2Proof.Claims
end

section
namespace Sys2Proof.Claims
open Sys2Proof.Machine

/-! ## HOST_READ and HOST_WRITE in HBM -/

section
variable {s : State} {vf : BitVec 9} {va : DWord} {len : Nat} {bytes : List Byte}

theorem hostRead_reaches (h : Reaches s vf.toNat va.toNat len .load) (hu : Unasked s (.hostRead vf va len)) :
    exec (.hostRead vf va len) s = .next { s with hostLog := s.hostLog ++
      [.data vf.toNat va.toNat (readsAs s vf.toNat va.toNat len).1 (readsAs s vf.toNat va.toNat len).2] } := by
  have free := no_granule_waits.2 fun g hg => (h g hg).1
  simp [exec, execHostRead, free, hostHomes_of_reaches h, hostAsk_hbm hu, dropLinks_unasked hu, hostTaken_unasked hu, State.hostGet,
    State.tellHost, readsAs, Function.comp_def]

theorem hostWrite_reaches (h : Reaches s vf.toNat va.toNat bytes.length .store) (hu : Unasked s (.hostWrite vf va bytes)) :
    exec (.hostWrite vf va bytes) s = .next { wroteFor s vf.toNat va.toNat bytes with
      hostLog := s.hostLog ++ [.done vf.toNat va.toNat] } := by
  have free := no_granule_waits.2 fun g hg => (h g hg).1
  have log : (wroteFor s vf.toNat va.toNat bytes).hostLog = s.hostLog :=
    List.foldlRecOn (motive := fun (t : State) => t.hostLog = s.hostLog) _ _ rfl fun _ ht _ _ => ht
  rw [← log]
  simp [exec, execHostWrite, free, hostHomes_of_reaches h, hostAsk_hbm hu, dropLinks_unasked hu, hostTaken_unasked hu, State.hostPut,
    State.tellHost, wroteFor, List.foldl_map]

theorem hostRead_fails (hw : ∀ g ∈ granulesOf va.toNat len, s.hostWaits vf.toNat g.1 .load = false)
    (hn : ∃ g ∈ granulesOf va.toNat len, s.hostHome vf.toNat g.1 .load = none) :
    exec (.hostRead vf va len) s = .next { s with hostLog := s.hostLog ++ [.error vf.toNat va.toNat] } := by
  simp only [exec, execHostRead, no_granule_waits.2 hw, hostHomes_eq_none hn]
  rfl

theorem hostWrite_fails (hw : ∀ g ∈ granulesOf va.toNat bytes.length, s.hostWaits vf.toNat g.1 .store = false)
    (hn : ∃ g ∈ granulesOf va.toNat bytes.length, s.hostHome vf.toNat g.1 .store = none) :
    exec (.hostWrite vf va bytes) s = .next { s with hostLog := s.hostLog ++ [.error vf.toNat va.toNat] } := by
  simp only [exec, execHostWrite, no_granule_waits.2 hw, hostHomes_eq_none hn]
  rfl

theorem hostRead_waits (hw : ∃ g ∈ granulesOf va.toNat len, s.hostWaits vf.toNat g.1 .load = true) :
    exec (.hostRead vf va len) s = .next { s with held := s.held ++ [.hostRead vf va len] } := by
  simp only [exec, execHostRead, some_granule_waits.2 hw]
  rfl

theorem hostWrite_waits (hw : ∃ g ∈ granulesOf va.toNat bytes.length, s.hostWaits vf.toNat g.1 .store = true) :
    exec (.hostWrite vf va bytes) s = .next { s with held := s.held ++ [.hostWrite vf va bytes] } := by
  simp only [exec, execHostWrite, some_granule_waits.2 hw]
  rfl

/-- What the link is asked for changes names and requests alone. -/
theorem hostAsk_rest (s : State) (i : Instr) (w : Bool) (l : List (Nat × Nat × Home)) :
    (s.hostAsk i w l).2 = { s with nextId := (s.hostAsk i w l).2.nextId, links := (s.hostAsk i w l).2.links } := by
  unfold State.hostAsk
  dsimp only
  split
  · rfl
  · refine List.foldlRecOn (motive := fun (t : State) => t = { s with nextId := t.nextId, links := t.links }) _ _ rfl fun t ht x _ => ?_
    split
    · simp only [State.postLink, State.newId]
      rw [ht]
    · exact ht

/-- A write that ends in an error has stored nothing: of the ends of a write only those without a store tell the host of one. -/
theorem hostWrite_error (hw : ∀ g ∈ granulesOf va.toNat bytes.length, s.hostWaits vf.toNat g.1 .store = false) :
    ∃ t, exec (.hostWrite vf va bytes) s = .next t ∧
      (t.hostLog = s.hostLog ++ [.error vf.toNat va.toNat] → t = { s with nextId := t.nextId, links := t.links, hostLog := t.hostLog }) := by
  simp only [exec, execHostWrite, no_granule_waits.2 hw]
  simp only [Bool.false_eq_true, if_false]
  split
  · exact ⟨_, rfl, fun _ => rfl⟩
  · rename_i l _
    have rest := hostAsk_rest s (.hostWrite vf va bytes) true l
    split
    · rename_i u hu
      rw [hu] at rest
      dsimp only at rest
      refine ⟨_, rfl, fun h => ?_⟩
      rw [State.hold, rest] at h
      simp at h
    · rename_i u hu
      rw [hu] at rest
      dsimp only at rest
      split
      · refine ⟨_, rfl, fun h => ?_⟩
        have last := congrArg List.getLast? h
        simp [State.tellHost] at last
      · refine ⟨_, rfl, fun _ => ?_⟩
        simp only [State.tellHost, State.dropLinks]
        rw [rest]

end

theorem hostRules_happen (vf : BitVec 9) (va : DWord) (len : Nat) (bytes : List Byte) : Happen (hostRules vf va len bytes) :=
  .cons (becomes_holds fun _ h => hostRead_reaches h.1 h.2) <|
  .cons (becomes_holds fun _ h => hostRead_fails h.1 h.2) <|
  .cons (becomes_holds fun _ h => hostWrite_reaches h.1 h.2) <|
  .cons (becomes_holds fun _ h => hostWrite_fails h.1 h.2) <|
  .cons (fun _ h => hostWrite_error h) <|
  .cons (becomes_holds fun _ h => hostRead_waits h) <|
  .cons (becomes_holds fun _ h => hostWrite_waits h) .nil

end Sys2Proof.Claims
end

section
namespace Sys2Proof.Machine

/-! ## Requests to other packages (R15, R16) -/

theorem linkOf_down {s : State} (h : s.aqric.all (fun q => !q.up) = true) (pick : Nat → Nat) : s.linkOf pick = .down := by
  rw [State.linkOf, if_pos h]

theorem postLink_port {s : State} {pkg pa p : Nat} (h : s.aqricPort pkg (pa / 64) = .port p) (o : LinkOwner) (n : Nat) (w : Bool) :
    s.postLink o pkg pa n w =
      { s with nextId := s.nextId + 1, links := s.links ++ [⟨s.nextId, o, pkg, pa, n, w, some p, none⟩] } := by
  have h' : ({ s with nextId := s.nextId + 1 } : State).aqricPort pkg (pa / 64) = .port p := h
  simp only [State.postLink, State.newId, h']

theorem postLink_down {s : State} (h : s.aqric.all (fun q => !q.up) = true) (o : LinkOwner) (pkg pa n : Nat) (w : Bool) :
    s.postLink o pkg pa n w =
      { s with nextId := s.nextId + 1, links := s.links ++ [⟨s.nextId, o, pkg, pa, n, w, none, some .failed⟩] } := by
  have h' : ({ s with nextId := s.nextId + 1 } : State).aqricPort pkg (pa / 64) = .down := linkOf_down h _
  simp only [State.postLink, State.newId, h']

end Sys2Proof.Machine

namespace Sys2Proof.Claims
open Sys2Proof.Machine

/-! ## HOST_READ and HOST_WRITE in another package (R15, R16, R28) -/

section
variable {s : State} {v va n pkg pa : Nat} {k : AccessWant}

theorem LiesAway.free (h : LiesAway s v va n k pkg pa) : (granulesOf va n).any (fun g => s.hostWaits v g.1 k) = false := by
  rw [h.1]
  simp [h.2.1]

theorem LiesAway.homes (h : LiesAway s v va n k pkg pa) :
    ∃ ptag port, s.hostHomes v va n k = some [(va, n, .remote pkg ptag pa port)] := by
  obtain ⟨one, -, ptag, port, home⟩ := h
  refine ⟨ptag, port, ?_⟩
  rw [hostHomes_eq_some (fun _ => .remote pkg ptag pa port), one]
  · rfl
  · simpa [one] using home

end

/-- A request that has just been posted is the only one of its access. -/
theorem mine_append {s : State} {i : Instr} (h : Unasked s i) {id pkg pa n : Nat} {w : Bool} {port : Option Nat}
    {answer : Option LinkAnswer} :
    (s.links ++ [LinkReq.mk id (.host i) pkg pa n w port answer]).filter (fun x => x.owner = .host i) =
      [LinkReq.mk id (.host i) pkg pa n w port answer] := by
  have none_ : s.links.filter (fun x => x.owner = .host i) = [] := List.filter_eq_nil_iff.2 fun x hx => by simpa using h x hx
  rw [List.filter_append, none_]
  simp

theorem mine_postLink_down {s : State} {i : Instr} (h : Unasked s i) (hd : s.aqric.all (fun q => !q.up) = true) {pkg pa n : Nat}
    {w : Bool} : (s.postLink (.host i) pkg pa n w).links.filter (fun x => x.owner = .host i) =
      [LinkReq.mk s.nextId (.host i) pkg pa n w none (some .failed)] := by
  rw [postLink_down hd]
  exact mine_append h

/-- With no port up it is lost at once, and nothing of it stays. -/
theorem dropLinks_postLink_down {s : State} {i : Instr} (h : Unasked s i) (hd : s.aqric.all (fun q => !q.up) = true) (pkg pa n : Nat)
    (w : Bool) : (s.postLink (.host i) pkg pa n w).dropLinks (.host i) = { s with nextId := s.nextId + 1 } := by
  have kept : s.links.filter (fun r => r.owner ≠ .host i) = s.links := congrArg State.links (dropLinks_unasked h)
  rw [postLink_down hd, State.dropLinks, List.filter_append, kept]
  simp

/-- Whether an access is taken is whether its one request was. -/
theorem hostTaken_done {s : State} {i : Instr} {r : LinkReq} {x : Nat} (h : s.links.filter (fun x => x.owner = .host i) = [r])
    (ha : r.answer = some (.done x)) : s.hostTaken i = true := by
  rw [State.hostTaken, all_mine h, ha]

theorem hostTaken_lost {s : State} {i : Instr} {r : LinkReq} (h : s.links.filter (fun x => x.owner = .host i) = [r])
    (ha : r.answer = some .refused ∨ r.answer = some .failed) : s.hostTaken i = false := by
  rw [State.hostTaken, all_mine h]
  rcases ha with ha | ha <;> rw [ha]

section
variable {s : State} {vf : BitVec 9} {va : DWord} {len : Nat} {bytes : List Byte} {pkg pa p : Nat} {r : LinkReq}

theorem hostRead_asks (h : LiesAway s vf.toNat va.toNat len .load pkg pa) (hu : Unasked s (.hostRead vf va len))
    (hp : s.aqricPort pkg (pa / 64) = .port p) :
    exec (.hostRead vf va len) s = .next { s with
      nextId := s.nextId + 1, links := s.links ++ [⟨s.nextId, .host (.hostRead vf va len), pkg, pa, len, false, some p, none⟩],
      held := s.held ++ [.hostRead vf va len] } := by
  obtain ⟨ptag, port, homes⟩ := h.homes
  simp only [exec, execHostRead, h.free, homes, hostAsk_posts hu, postLink_port hp, all_mine (mine_append hu)]
  rfl

theorem hostWrite_asks (h : LiesAway s vf.toNat va.toNat bytes.length .store pkg pa) (hu : Unasked s (.hostWrite vf va bytes))
    (hp : s.aqricPort pkg (pa / 64) = .port p) :
    exec (.hostWrite vf va bytes) s = .next { s with
      nextId := s.nextId + 1, links := s.links ++ [⟨s.nextId, .host (.hostWrite vf va bytes), pkg, pa, bytes.length, true, some p, none⟩],
      held := s.held ++ [.hostWrite vf va bytes] } := by
  obtain ⟨ptag, port, homes⟩ := h.homes
  simp only [exec, execHostWrite, h.free, homes, hostAsk_posts hu, postLink_port hp, all_mine (mine_append hu)]
  rfl

theorem hostRead_unlinked (h : LiesAway s vf.toNat va.toNat len .load pkg pa) (hu : Unasked s (.hostRead vf va len))
    (hd : s.aqric.all (fun q => !q.up) = true) :
    exec (.hostRead vf va len) s = .next { s with
      nextId := s.nextId + 1, hostLog := s.hostLog ++ [.error vf.toNat va.toNat] } := by
  obtain ⟨ptag, port, homes⟩ := h.homes
  simp only [exec, execHostRead, h.free, homes, hostAsk_posts hu, all_mine (mine_postLink_down hu hd),
    hostTaken_lost (mine_postLink_down hu hd) (.inr rfl),
    dropLinks_postLink_down hu hd, Option.isSome_some, Bool.false_eq_true, if_false]
  rfl

theorem hostWrite_unlinked (h : LiesAway s vf.toNat va.toNat bytes.length .store pkg pa) (hu : Unasked s (.hostWrite vf va bytes))
    (hd : s.aqric.all (fun q => !q.up) = true) :
    exec (.hostWrite vf va bytes) s = .next { s with
      nextId := s.nextId + 1, hostLog := s.hostLog ++ [.error vf.toNat va.toNat] } := by
  obtain ⟨ptag, port, homes⟩ := h.homes
  simp only [exec, execHostWrite, h.free, homes, hostAsk_posts hu, all_mine (mine_postLink_down hu hd),
    hostTaken_lost (mine_postLink_down hu hd) (.inr rfl),
    dropLinks_postLink_down hu hd, Option.isSome_some, Bool.false_eq_true, if_false]
  rfl

/-- Both kinds of access wait for the answer of their request. -/
theorem hostRead_unanswered (h : LiesAway s vf.toNat va.toNat len .load pkg pa)
    (hr : s.links.filter (fun x => x.owner = .host (.hostRead vf va len)) = [r]) (ha : r.answer = none) :
    exec (.hostRead vf va len) s = .next { s with held := s.held ++ [.hostRead vf va len] } := by
  obtain ⟨ptag, port, homes⟩ := h.homes
  simp only [exec, execHostRead, h.free, homes, hostAsk_mine hr, ha]
  rfl

theorem hostWrite_unanswered (h : LiesAway s vf.toNat va.toNat bytes.length .store pkg pa)
    (hr : s.links.filter (fun x => x.owner = .host (.hostWrite vf va bytes)) = [r]) (ha : r.answer = none) :
    exec (.hostWrite vf va bytes) s = .next { s with held := s.held ++ [.hostWrite vf va bytes] } := by
  obtain ⟨ptag, port, homes⟩ := h.homes
  simp only [exec, execHostWrite, h.free, homes, hostAsk_mine hr, ha]
  rfl

theorem hostRead_done (h : LiesAway s vf.toNat va.toNat len .load pkg pa)
    (hr : s.links.filter (fun x => x.owner = .host (.hostRead vf va len)) = [r]) (hk : r.pkg = pkg) (hp : r.pa = pa) {x : Nat}
    (ha : r.answer = some (.done x)) :
    exec (.hostRead vf va len) s = .next { s with
      links := s.links.filter (fun y => y.owner ≠ .host (.hostRead vf va len)),
      hostLog := s.hostLog ++ [.data vf.toNat va.toNat (remoteBytes x pa len).1 (remoteBytes x pa len).2] } := by
  obtain ⟨ptag, port, homes⟩ := h.homes
  simp [exec, execHostRead, h.free, homes, hostAsk_mine hr, hostTaken_done hr ha, State.hostGet, find_mine hr hk hp, ha,
    State.dropLinks, State.tellHost]

theorem hostWrite_done (h : LiesAway s vf.toNat va.toNat bytes.length .store pkg pa)
    (hr : s.links.filter (fun x => x.owner = .host (.hostWrite vf va bytes)) = [r]) {x : Nat} (ha : r.answer = some (.done x)) :
    exec (.hostWrite vf va bytes) s = .next { s with
      links := s.links.filter (fun y => y.owner ≠ .host (.hostWrite vf va bytes)),
      hostLog := s.hostLog ++ [.done vf.toNat va.toNat] } := by
  obtain ⟨ptag, port, homes⟩ := h.homes
  simp [exec, execHostWrite, h.free, homes, hostAsk_mine hr, hostTaken_done hr ha, State.hostPut, ha, State.dropLinks,
    State.tellHost]

theorem hostRead_refused (h : LiesAway s vf.toNat va.toNat len .load pkg pa)
    (hr : s.links.filter (fun x => x.owner = .host (.hostRead vf va len)) = [r])
    (ha : r.answer = some .refused ∨ r.answer = some .failed) :
    exec (.hostRead vf va len) s = .next { s with
      links := s.links.filter (fun y => y.owner ≠ .host (.hostRead vf va len)),
      hostLog := s.hostLog ++ [.error vf.toNat va.toNat] } := by
  obtain ⟨ptag, port, homes⟩ := h.homes
  have answered : r.answer.isSome = true := by rcases ha with ha | ha <;> rw [ha] <;> rfl
  simp [exec, execHostRead, h.free, homes, hostAsk_mine hr, answered, hostTaken_lost hr ha, State.dropLinks, State.tellHost]

theorem hostWrite_refused (h : LiesAway s vf.toNat va.toNat bytes.length .store pkg pa)
    (hr : s.links.filter (fun x => x.owner = .host (.hostWrite vf va bytes)) = [r])
    (ha : r.answer = some .refused ∨ r.answer = some .failed) :
    exec (.hostWrite vf va bytes) s = .next { s with
      links := s.links.filter (fun y => y.owner ≠ .host (.hostWrite vf va bytes)),
      hostLog := s.hostLog ++ [.error vf.toNat va.toNat] } := by
  obtain ⟨ptag, port, homes⟩ := h.homes
  have answered : r.answer.isSome = true := by rcases ha with ha | ha <;> rw [ha] <;> rfl
  simp [exec, execHostWrite, h.free, homes, hostAsk_mine hr, answered, hostTaken_lost hr ha, State.dropLinks, State.tellHost]

end

/-- The one port of an access that finds one names the state that the rule of the request gives. -/
theorem asks_holds {i : Instr} {away : State → Prop} {pkg pa : Nat} {f : State → Nat → State}
    (h : ∀ s p, away s → Unasked s i → s.aqricPort pkg (pa / 64) = .port p → exec i s = .next (f s p)) :
    EventRule.Holds ⟨i, fun s => away s ∧ Unasked s i ∧ ∃ p, s.aqricPort pkg (pa / 64) = .port p,
      fun s t => ∀ p, s.aqricPort pkg (pa / 64) = .port p → t = f s p⟩ := by
  rintro s ⟨ha, hu, p, hp⟩
  refine ⟨_, h s p ha hu hp, fun q hq => ?_⟩
  obtain rfl : p = q := by simpa [hp] using hq
  rfl

/-- As does the one answer of an access that has one. -/
theorem done_holds {i : Instr} {mine : State → Prop} {r : LinkReq} {f : State → Nat → State}
    (h : ∀ s x, mine s → r.answer = some (.done x) → exec i s = .next (f s x)) :
    EventRule.Holds ⟨i, fun s => mine s ∧ ∃ x, r.answer = some (.done x),
      fun s t => ∀ x, r.answer = some (.done x) → t = f s x⟩ := by
  rintro s ⟨hm, x, hx⟩
  refine ⟨_, h s x hm hx, fun y hy => ?_⟩
  obtain rfl : x = y := by simpa [hx] using hy
  rfl

theorem hostRead_away (vf : BitVec 9) (va : DWord) (len pkg pa : Nat) (r : LinkReq) :
    Happen (awayRules (.hostRead vf va len) vf.toNat va.toNat len .load false
      (fun x => .data vf.toNat va.toNat (remoteBytes x pa len).1 (remoteBytes x pa len).2) pkg pa r) :=
  .cons (asks_holds fun _ _ ha hu hp => hostRead_asks ha hu hp) <|
  .cons (becomes_holds fun _ h => hostRead_unlinked h.1 h.2.1 h.2.2) <|
  .cons (becomes_holds fun _ ⟨⟨ha, hr, _⟩, hn⟩ => hostRead_unanswered ha hr hn) <|
  .cons (done_holds fun _ _ ⟨ha, hr, hk, hp⟩ hx => hostRead_done ha hr hk hp hx) <|
  .cons (becomes_holds fun _ ⟨⟨ha, hr, _⟩, hf⟩ => hostRead_refused ha hr hf) .nil

theorem hostWrite_away (vf : BitVec 9) (va : DWord) (bytes : List Byte) (pkg pa : Nat) (r : LinkReq) :
    Happen (awayRules (.hostWrite vf va bytes) vf.toNat va.toNat bytes.length .store true
      (fun _ => .done vf.toNat va.toNat) pkg pa r) :=
  .cons (asks_holds fun _ _ ha hu hp => hostWrite_asks ha hu hp) <|
  .cons (becomes_holds fun _ h => hostWrite_unlinked h.1 h.2.1 h.2.2) <|
  .cons (becomes_holds fun _ ⟨⟨ha, hr, _⟩, hn⟩ => hostWrite_unanswered ha hr hn) <|
  .cons (done_holds fun _ _ ⟨ha, hr, _⟩ hx => hostWrite_done ha hr hx) <|
  .cons (becomes_holds fun _ ⟨⟨ha, hr, _⟩, hf⟩ => hostWrite_refused ha hr hf) .nil

end Sys2Proof.Claims
end

/-! # Accesses of other packages (R14, R162, R163) -/

section
namespace Sys2Proof.Machine

theorem map_mapIdx {α β γ : Type} (l : List α) (f : Nat → α → β) (g : β → γ) :
    (l.mapIdx f).map g = l.mapIdx (fun i a => g (f i a)) :=
  List.ext_getElem (by simp) fun _ _ _ => by simp

theorem spreadBytes_snd (a : Nat) (bs : List Byte) : (spreadBytes a bs).map (·.2) = bs := by
  rw [spreadBytes, map_mapIdx]
  exact List.ext_getElem (by simp) fun _ _ _ => by simp

/-- Bytes at their offsets from an address. -/
theorem spread_offsets (a : Nat) (bs : List Byte) :
    (bs.mapIdx (fun i b => (i, b))).map (fun x => (a + x.1, x.2)) = spreadBytes a bs :=
  map_mapIdx ..

theorem spread_places (a : Nat) (bs : List Byte) :
    (bs.mapIdx (fun i b => (i, b))).map (fun x => a + x.1) = (spreadBytes a bs).map (·.1) := by
  rw [spreadBytes, map_mapIdx, map_mapIdx]

/-- A read-modify-write of one word that no marker covers. -/
theorem rmwLanes_clean {s : State} {pa lane : Nat} (h : (s.readHbm pa 4).2 = false) (new : Nat → Word → Option Word) :
    s.rmwLanes [(lane, pa)] new false = ([(lane, wordOfBytes (s.readHbm pa 4).1)], false,
      (new lane (wordOfBytes (s.readHbm pa 4).1)).elim s fun v => s.writeHbm (spreadBytes pa (leBytes 4 v.toNat))) := by
  have hr : s.readHbm pa 4 = ((s.readHbm pa 4).1, false) := by rw [← h]
  simp only [State.rmwLanes, List.foldl_cons, List.foldl_nil, State.rmwHbm]
  rw [hr]
  cases new lane (wordOfBytes (s.readHbm pa 4).1) <;> rfl

end Sys2Proof.Machine

namespace Sys2Proof.Claims
open Sys2Proof.Machine

section
variable {s : State} {pkg : BitVec 8} {ptag : BitVec 5} {pa : BitVec 44} {kind : RemoteKind}

/-- Whether the owner check lets an access of another package in, with the tag that it carries. -/
def Owned (s : State) (ptag : BitVec 5) (pa : BitVec 44) (n : Nat) : Prop :=
  pa.toNat % 64 + n ≤ 64 ∧ s.scrubbing pa.toNat = false ∧ pa.toNat < 2 ^ 42 ∧ ptag.toNat ≤ 16 ∧ s.ownerOf pa.toNat = ptag.toNat

/-- An access with the tag of the owner performs and is answered. -/
theorem remoteAccess_owned (h : Owned s ptag pa (remoteSize kind)) :
    exec (.remoteAccessRx ⟨pkg, ptag, pa, kind⟩) s = .next { (s.performHbm pa.toNat (remoteAcc kind)).2 with
      remoteOut := (s.performHbm pa.toNat (remoteAcc kind)).2.remoteOut ++
        [remoteAnswerOf kind (s.performHbm pa.toNat (remoteAcc kind)).1] } := by
  obtain ⟨fits, free, inHbm, tag, owner⟩ := h
  have pass : (decide (2 ^ 42 ≤ pa.toNat) || decide (16 < ptag.toNat) || decide (s.ownerOf pa.toNat ≠ ptag.toNat)) = false := by
    simp [owner]; omega
  simp only [exec, execRemoteAccessRx, free, pass, if_neg (Nat.not_lt.2 fits)]
  rfl

theorem remoteAccess_refused (fits : pa.toNat % 64 + remoteSize kind ≤ 64) (free : s.scrubbing pa.toNat = false)
    (h : 2 ^ 42 ≤ pa.toNat ∨ 16 < ptag.toNat ∨ s.ownerOf pa.toNat ≠ ptag.toNat) :
    exec (.remoteAccessRx ⟨pkg, ptag, pa, kind⟩) s = .next { s with remoteOut := s.remoteOut ++ [.refused 0x0C] } := by
  have stop : (decide (2 ^ 42 ≤ pa.toNat) || decide (16 < ptag.toNat) || decide (s.ownerOf pa.toNat ≠ ptag.toNat)) = true := by
    simpa [or_assoc] using h
  simp only [exec, execRemoteAccessRx, free, stop, if_neg (Nat.not_lt.2 fits)]
  rfl

theorem remoteAccess_waits (fits : pa.toNat % 64 + remoteSize kind ≤ 64) (scrub : s.scrubbing pa.toNat = true) :
    exec (.remoteAccessRx ⟨pkg, ptag, pa, kind⟩) s = .next { s with held := s.held ++ [.remoteAccessRx ⟨pkg, ptag, pa, kind⟩] } := by
  simp only [exec, execRemoteAccessRx, scrub, if_neg (Nat.not_lt.2 fits)]
  rfl

end

theorem packageRules_happen (pkg : BitVec 8) (ptag : BitVec 5) (pa : BitVec 44) (len : Nat) (bs : List Byte) (op : BitVec 4) (b new : Word)
    (kind : RemoteKind) : Happen (packageRules pkg ptag pa len bs op b new kind) := by
  refine .cons (becomes_holds fun s h => ?load) <| .cons (becomes_holds fun s h => ?store) <|
    .cons (becomes_holds fun s h => ?poison) <| .cons (becomes_holds fun s h => ?atomic) <|
    .cons (becomes_holds fun s h => ?cas) <| .cons (becomes_holds fun s h => remoteAccess_refused h.1 h.2.1 h.2.2) <|
    .cons (becomes_holds fun s h => remoteAccess_waits h.1 h.2) .nil
  case load =>
    refine (remoteAccess_owned (kind := .load len) h).trans ?_
    simp only [remoteAcc, State.performHbm, remoteAnswerOf, spreadBytes_snd]
  case store =>
    refine (remoteAccess_owned (kind := .store bs false) h).trans ?_
    simp only [remoteAcc, State.performHbm, remoteAnswerOf, spread_offsets]
    rfl
  case poison =>
    refine (remoteAccess_owned (kind := .store bs true) h).trans ?_
    simp only [remoteAcc, State.performHbm, remoteAnswerOf, spread_places]
    rfl
  case atomic =>
    refine (remoteAccess_owned (kind := .atomic op b) h.1).trans ?_
    simp only [remoteAcc, State.performHbm, remoteAnswerOf, List.map_cons, List.map_nil, Nat.add_zero, rmwLanes_clean h.2]
    rfl
  case cas =>
    refine (remoteAccess_owned (kind := .cas b new) h.1).trans ?_
    have operand : laneOp [(0, b, new)] (0, 0) 0 = (b, new) := rfl
    simp only [remoteAcc, State.performHbm, remoteAnswerOf, List.map_cons, List.map_nil, Nat.add_zero, rmwLanes_clean h.2, operand, casOp]
    by_cases same : wordOfBytes (s.readHbm pa.toNat 4).1 = b
    · simp only [if_pos same]
      rfl
    · simp only [if_neg same]
      rfl

end Sys2Proof.Claims
end

/-! # Deliveries of messages (R36, R42, R343) -/

section
namespace Sys2Proof.Machine

theorem arrive_plain {t : Token} (h : t.pacer = none) (eid now : Nat) : t.arrive eid now = t := by
  rw [Token.arrive, h]

/-- An element that runs accepts a token without a log at the tail of the queue. -/
theorem acceptToken_run {s : State} {eid : Nat} (h : (s.elem eid).state = .run) (q : Nat) {t : Token} (ht : t.pacer = none) :
    s.acceptToken eid q t = s.modElem eid (fun e => { e with iq := upd e.iq q (fun l => l ++ [t]) }) := by
  have run : ((s.modElem eid (fun e => { e with iq := upd e.iq q (fun l => l ++ [t]) })).elem eid).state = .run := by
    simpa [State.modElem] using h
  simp only [State.acceptToken, arrive_plain ht, State.checkLive, run]
  rfl

/-- Without a message ORDER that is due no VF is answered. -/
theorem settleOrders_none {s : State} {v : Nat} (h : (s.vf v).orders = []) : s.settleOrders v = s := by
  simp [State.settleOrders, h]

/-- The one message ORDER of a VF, from the host, is answered once nothing waits before it. -/
theorem settleOrders_one {s : State} {v : Nat} {w : Queued} (h : (s.vf v).orders = [w]) (host : w.am.sender = .host)
    (due : s.amWaits v w.name = false) :
    s.settleOrders v = (s.modVf v (fun x => { x with orders := [] })).sendAm v amCOMPLETE 0 w.am.cont none := by
  have cleared : s.modVf v (fun x => { x with orders := x.orders.drop 1 }) = s.modVf v (fun x => { x with orders := [] }) := by
    simp only [State.modVf, h, List.drop_one, List.tail_cons]
  simp only [State.settleOrders, h, List.takeWhile_cons, List.takeWhile_nil, due, Bool.not_false, if_true, List.isEmpty_cons,
    Bool.false_eq_true, if_false, List.length_cons, List.length_nil, cleared, List.foldl_cons, List.foldl_nil, State.accept, host]

/-- An answer comes to the entry of an element that has it. -/
theorem mem_answer {e : Element} {n : Nat} {tok : Tag → Token} {a : Answer} (ha : a ∈ e.ans) (hn : a.id = n) (ht : a.token = none) :
    { a with token := some (tok a.otag) } ∈ (e.answer n tok).ans :=
  List.mem_map.2 ⟨a, ha, by simp [hn, ht]⟩

theorem giveAnswer_has {s : State} {eid n : Nat} {a : Answer} (ha : a ∈ (s.elem eid).ans) (hn : a.id = n) (tok : Tag → Token) :
    s.giveAnswer eid n tok = s.modElem eid (·.answer n tok) := by
  have has : (s.elem eid).ans.any (fun b => b.id = n) = true := List.any_eq_true.2 ⟨a, ha, by simpa using hn⟩
  rw [State.giveAnswer, if_pos has]

/-- An answer changes elements and contexts alone. -/
theorem giveAnswer_rest (s : State) (eid n : Nat) (tok : Tag → Token) :
    s.giveAnswer eid n tok =
      { s with elems := (s.giveAnswer eid n tok).elems, contexts := (s.giveAnswer eid n tok).contexts } := by
  unfold State.giveAnswer
  dsimp only
  split <;> rfl

end Sys2Proof.Machine

namespace Sys2Proof.Claims
open Sys2Proof.Machine

theorem handlerToken_eq (m : Am) : handlerToken m = userToken m := by
  have low : BitVec.ofNat 32 m.cont.toNat = m.cont.setWidth 32 := BitVec.ofNat_toNat 32 _
  have high : BitVec.ofNat 32 (m.cont.toNat / 2 ^ 32) = m.cont.extractLsb' 32 32 :=
    BitVec.eq_of_toNat_eq (by simp [Nat.shiftRight_eq_div_pow])
  rw [handlerToken, userToken, low, high]

/-- What may wait before a message of a VF is none of the elements' business. -/
theorem amWaits_modElem (s : State) (eid : Nat) (f : Element → Element) (v n : Nat) :
    (s.modElem eid f).amWaits v n = s.amWaits v n := rfl

section
variable {p k : Nat} {s : State} {y : Queued} {rest : List Queued}

/-- The entry of a partition's handler table, and the state once the head of its queue is taken. -/
def handlerOf (s : State) (p k : Nat) : Handler := nth (s.part p).handlers k { }
def popped (s : State) (p k : Nat) (rest : List Queued) : State :=
  s.modPart p (fun x => { x with handlers := upd x.handlers k (fun h => { h with queue := rest }) })

/-- Where the handler's port has room, the head of the queue enters it, and the messages ORDER behind it are looked at. -/
theorem userAmDelivery_enters {eid : Nat} {q : Fin 4} {x : Inst} (hq : (handlerOf s p k).queue = y :: rest)
    (hx : s.served? p (handlerOf s p k).task.toNat = some x) (hb : x.baton = some (eid, q)) (hr : x.phase = .run)
    (hf : x.finInjected = false) (room : (s.elem eid).inRoom (handlerOf s p k).port.toNat = true) (run : (s.elem eid).state = .run)
    (hops : (s.tile (tileOf eid)).hopsStopped = false) :
    exec (.userAmDelivery p k) s = .next (((popped s p k rest).modElem eid (fun e =>
      { e with iq := upd e.iq (handlerOf s p k).port.toNat (fun l => l ++ [userToken y.am]) })).settleOrders y.am.vf.toNat) := by
  have enter := acceptToken_run (s := popped s p k rest) run (handlerOf s p k).port.toNat (t := userToken y.am) rfl
  have go : (x.phase != .run || x.finInjected || !(s.elem eid).inRoom (handlerOf s p k).port.toNat ||
      (s.tile (tileOf eid)).hopsStopped) = false := by
    rw [hr, hf, room, hops]; rfl
  simp only [handlerOf] at hq hx hb go enter ⊢
  simp only [exec, execUserAmDelivery, hq, hx, hb, go, handlerToken_eq]
  rw [← enter]
  rfl

/-- Where no live launch has the handler's task any more, a message of the host is refused. -/
theorem userAmDelivery_refused (hq : (handlerOf s p k).queue = y :: rest) (host : y.am.sender = .host)
    (hx : s.served? p (handlerOf s p k).task.toNat = none) (ht : s.hasTask p (handlerOf s p k).task.toNat = false)
    (ho : (s.vf (vfOfAm y.am)).orders = []) :
    exec (.userAmDelivery p k) s = .next (nakOf y.am 0x09 y.am.cont (popped s p k rest)) := by
  have refused : (popped s p k rest).nak y.am nakNOHANDLER = nakOf y.am 0x09 y.am.cont (popped s p k rest) := by
    simp only [State.nak, State.refuse, host]
    rfl
  have orders : ((nakOf y.am 0x09 y.am.cont (popped s p k rest)).vf y.am.vf.toNat).orders = [] := by
    rw [nakOf, State.vf_modVf_self]
    exact ho
  simp only [handlerOf] at hq hx ht
  simp only [exec, execUserAmDelivery, hq, hx, ht]
  rw [← settleOrders_none orders, ← refused]
  rfl

end

/-- What the card is handed of an outgoing message. -/
def handedOver (s : State) (v : Nat) (o : OutAm) (later : List OutAm) : State :=
  { s.modVf v (fun x => { x with out := later }) with
    handed := s.handed ++ [(v, o.amop ++ BitVec.ofNat 9 v ++ (if v = 511 then 0 else (s.vf v).part) ++ o.seq ++ o.operand ++ o.cont)] }

theorem deviceAmDelivery_plain {s : State} {v : Nat} {o : OutAm} {later : List OutAm} (h : (s.vf v).out = o :: later)
    (hs : o.sender = none) : exec (.deviceAmDelivery v) s = .next (handedOver s v o later) := by
  simp only [exec, execDeviceAmDelivery, h, hs]
  rfl

theorem deviceAmDelivery_sent {s : State} {v eid : Nat} {n : Nat} {o : OutAm} {later : List OutAm} (h : (s.vf v).out = o :: later)
    (hs : o.sender = some (eid, some n)) :
    exec (.deviceAmDelivery v) s = .next ((handedOver s v o later).giveAnswer eid n
      (fun t => ⟨lanesOfList [0, BitVec.ofNat 32 o.seq.toNat], t, none⟩)) := by
  simp only [exec, execDeviceAmDelivery, h, hs]
  rfl

theorem deliveryRules_happen (p k v eid : Nat) (q : Fin 4) (y : Queued) (rest : List Queued) (w : Queued) (o : OutAm)
    (later : List OutAm) : Happen (deliveryRules p k v eid q y rest w o later) := by
  refine .cons (becomes_holds fun s h => ?enters) <| .cons (becomes_holds fun s h => ?orders) <|
    .cons (becomes_holds fun s h => ?refused) <| .cons (becomes_holds fun s h => deviceAmDelivery_plain h.1 h.2) <|
    .cons (fun s h => ?sent) .nil
  case enters =>
    obtain ⟨⟨hq, ⟨x, hx, hb, hr, hf⟩, room, run, hops⟩, ho⟩ := h
    exact (userAmDelivery_enters hq hx hb hr hf room run hops).trans (congrArg Host.Outcome.next (settleOrders_none ho))
  case orders =>
    obtain ⟨⟨hq, ⟨x, hx, hb, hr, hf⟩, room, run, hops⟩, ho, host, due⟩ := h
    exact (userAmDelivery_enters hq hx hb hr hf room run hops).trans
      (congrArg Host.Outcome.next (settleOrders_one ho host ((amWaits_modElem ..).trans due)))
  case refused =>
    obtain ⟨hq, host, hx, ht, ho⟩ := h
    exact userAmDelivery_refused hq host hx ht ho
  case sent =>
    obtain ⟨hout, n, hs⟩ := h
    refine ⟨_, deviceAmDelivery_sent hout hs, ?_⟩
    have rest := giveAnswer_rest (handedOver s v o later) eid n (fun t => ⟨lanesOfList [0, BitVec.ofNat 32 o.seq.toNat], t, none⟩)
    have out := (State.vf_congr (congrArg State.vfs rest) v).trans (State.vf_modVf_self s v (fun x => { x with out := later }))
    refine ⟨congrArg Vf.out out, (congrArg (fun u => u.handed.length) rest).trans List.length_append, (congrArg State.hbm rest).trans rfl,
      fun m a hm ha hn ht => ?_⟩
    obtain rfl : n = m := by simpa [hs] using hm
    rw [giveAnswer_has (s := handedOver s v o later) ha hn, State.modElem, State.elem_setElem_self]
    exact mem_answer (tok := fun t => ⟨lanesOfList [0, BitVec.ofNat 32 o.seq.toNat], t, none⟩) ha hn ht

/-! # The obligation -/

/-- Settles O37, one family of events at a time: accesses of the host here and in another package, accesses of another package, and
deliveries. -/
theorem outsideAccesses : Obligations.OutsideAccesses :=
  ⟨hostRules_happen, hostRead_away, hostWrite_away, packageRules_happen, deliveryRules_happen⟩

end Sys2Proof.Claims
end

/-! # What faults, lost accesses and answers leave alone -/

section
namespace Sys2Proof.Machine

/-! ## Elements -/

@[simp] theorem State.elem_modElem_self (s : State) (n : Nat) (f : Element → Element) : (s.modElem n f).elem n = f (s.elem n) :=
  State.elem_setElem_self ..

theorem State.elem_modElem_ne (s : State) {n k : Nat} (f : Element → Element) (h : k ≠ n) : (s.modElem n f).elem k = s.elem k :=
  State.elem_setElem_ne s _ h

theorem State.elem_modElem (s : State) (n k : Nat) (f : Element → Element) :
    (s.modElem n f).elem k = if k = n then f (s.elem k) else s.elem k := by
  split
  · subst k
    exact s.elem_modElem_self n f
  · exact s.elem_modElem_ne f ‹_›

theorem freeEntry_kept (e : Element) (n : Option Nat) : e.freeEntry n = { e with ans := (e.freeEntry n).ans } := by
  cases n <;> rfl

theorem answer_kept (e : Element) (n : Nat) (tok : Tag → Token) : e.answer n tok = { e with ans := (e.answer n tok).ans } := rfl

/-! ## Records of faults (R222, R223) -/

section
variable (s : State) (i : Nat) (src : Nat × Nat) (family code : Nat) (slot : Option Nat) (word : BitVec 128) (heads : Word)
  (tokens : List TokEntry) (addr : Nat)

theorem produce_rest : s.produce i src family code slot word heads tokens addr =
    { s with
      insts := (s.produce i src family code slot word heads tokens addr).insts
      recSeq := (s.produce i src family code slot word heads tokens addr).recSeq } := by
  unfold State.produce
  split
  · rfl
  · unfold State.modInst
    dsimp only
    split <;> rfl

theorem produce_insts_ne {j : Nat} (h : j ≠ i) :
    (s.produce i src family code slot word heads tokens addr).insts.find j = s.insts.find j := by
  unfold State.produce
  split
  · rfl
  · unfold State.modInst
    dsimp only
    split
    · exact NMap.find_put_ne _ _ h
    · rfl

/-- The record stands behind those that are there already. -/
theorem produce_insts_self {x : Inst} (h : s.insts.find i = some x) :
    ∃ ev, (s.produce i src family code slot word heads tokens addr).insts.find i = some { x with faults := x.faults ++ [ev] } ∧
      (ev.kind, ev.src) = src ∧ (ev.family, ev.code) = (family, code) ∧ ev.slot = slot ∧ ev.word = word ∧ ev.addr = addr := by
  have h' : (s.takeSeq src.1 src.2 x.part).2.insts.find i = some x := h
  simp only [State.produce, h, State.modInst, h', NMap.find_put_self]
  exact ⟨_, rfl, rfl, rfl, rfl, rfl, rfl⟩

end

section
variable (s : State) (eid port code : Nat) (toks : List TokEntry)

theorem takePortFault_rest : s.takePortFault eid port code toks =
    { s with
      elems := (s.takePortFault eid port code toks).elems
      insts := (s.takePortFault eid port code toks).insts
      recSeq := (s.takePortFault eid port code toks).recSeq } := by
  unfold State.takePortFault
  dsimp only
  split
  · rw [produce_rest]
    rfl
  · rfl

theorem takePortFault_podAms : (s.takePortFault eid port code toks).podAms = s.podAms := by rw [takePortFault_rest]
theorem takePortFault_tiles : (s.takePortFault eid port code toks).tiles = s.tiles := by rw [takePortFault_rest]

theorem takePortFault_elems : (s.takePortFault eid port code toks).elems = (s.setElem eid { s.elem eid with state := .faulted }).elems := by
  unfold State.takePortFault
  dsimp only
  split
  · rw [produce_rest]
  · rfl

theorem takePortFault_others {e : Nat} (h : e ≠ eid) : (s.takePortFault eid port code toks).elem e = s.elem e :=
  (State.elem_congr (takePortFault_elems s eid port code toks) e).trans (State.elem_setElem_ne s _ h)

theorem takePortFault_faulted : ((s.takePortFault eid port code toks).elem eid).state = .faulted :=
  congrArg Element.state ((State.elem_congr (takePortFault_elems s eid port code toks) eid).trans (State.elem_setElem_self s eid _))

theorem takePortFault_insts {i : Nat} (h : (s.elem eid).inst = some i) : (s.takePortFault eid port code toks).insts =
    ((s.setElem eid { s.elem eid with state := .faulted }).produce i (4, port) 7 code none 0 0 toks 0).insts := by
  simp only [State.takePortFault, h]

end

/-! ## Operations that end: accesses, the track, tiles, operations and answers -/

/-- An operation ends or goes a stage further: of elements only the answer buffers and fences change, and of the rest only what
belongs to accesses. -/
structure Ending (s t : State) : Prop where
  rest : t = { s with accs := t.accs, track := t.track, tiles := t.tiles, ops := t.ops, elems := t.elems }
  elem : ∀ e, t.elem e = { s.elem e with ans := (t.elem e).ans, fences := (t.elem e).fences }

theorem Ending.refl (s : State) : Ending s s := ⟨rfl, fun _ => rfl⟩

theorem Ending.trans {s t u : State} (h : Ending s t) (k : Ending t u) : Ending s u := by
  refine ⟨?_, fun e => ?_⟩
  · rw [k.rest, h.rest]
  · rw [k.elem, h.elem]

theorem Ending.insts {s t : State} (h : Ending s t) : t.insts = s.insts := by rw [h.rest]
theorem Ending.inst {s t : State} (h : Ending s t) (e : Nat) : (t.elem e).inst = (s.elem e).inst := by rw [h.elem]
theorem Ending.state {s t : State} (h : Ending s t) (e : Nat) : (t.elem e).state = (s.elem e).state := by rw [h.elem]

/-- A change of one element's answers and fences. -/
theorem modElem_ending (s : State) (eid : Nat) (f : Element → Element)
    (h : f (s.elem eid) = { s.elem eid with ans := (f (s.elem eid)).ans, fences := (f (s.elem eid)).fences }) :
    Ending s (s.modElem eid f) := by
  refine ⟨rfl, fun e => ?_⟩
  rw [State.elem_modElem]
  split
  · subst e
    exact h
  · rfl

theorem muteOp_ending (s : State) (id : Nat) : Ending s (s.muteOp id) := by
  unfold State.muteOp
  split
  · exact .refl s
  · rename_i op _
    refine (modElem_ending s op.eid (·.freeEntry op.entry) ?_).trans ⟨rfl, fun _ => rfl⟩
    rw [freeEntry_kept]

theorem dropAccess_ending (s : State) (a : Access) : Ending s (s.dropAccess a) := ⟨rfl, fun _ => rfl⟩

theorem dropAll_ending (l : List Access) (s : State) : Ending s (l.foldl State.dropAccess s) :=
  List.foldlRecOn (motive := Ending s) l _ (.refl s) fun t ht a _ => ht.trans (dropAccess_ending t a)

theorem settleOp_ending (s : State) (id : Nat) : Ending s (s.settleOp id) := by
  unfold State.settleOp
  split
  · exact .refl s
  · extract_lets left ready u
    have answered : Ending s u := by
      unfold u
      split
      · exact modElem_ending s _ _ (answer_kept _ _ _)
      · exact .refl s
    split
    · exact answered.trans ⟨rfl, fun _ => rfl⟩
    · exact answered

/-- Answers, one behind the other. -/
theorem answers_kept {α : Type} (l : List α) (n : α → Nat) (tok : α → Tag → Token) (e : Element) :
    l.foldl (fun (e : Element) f => e.answer (n f) (tok f)) e =
      { e with ans := (l.foldl (fun (e : Element) f => e.answer (n f) (tok f)) e).ans } := by
  induction l generalizing e with
  | nil => rfl
  | cons f l ih => exact (ih _).trans rfl

theorem settleFences_ending (s : State) (eid : Nat) : Ending s (s.settleFences eid) := by
  unfold State.settleFences
  dsimp only
  split
  · exact .refl s
  · exact modElem_ending s eid (fun _ => _) (by rw [answers_kept])

theorem settle_ending (s : State) (op eid : Nat) : Ending s (s.settle op eid) :=
  (settleOp_ending s op).trans (settleFences_ending _ eid)

/-! ## The accesses that are left -/

theorem settleOp_accs (s : State) (id : Nat) : (s.settleOp id).accs = s.accs := by
  unfold State.settleOp
  split
  · rfl
  · extract_lets left ready u
    have kept : u.accs = s.accs := by unfold u; split <;> rfl
    split <;> exact kept

theorem settle_accs (s : State) (op eid : Nat) : (s.settle op eid).accs = s.accs := by
  have fences : ∀ u : State, (u.settleFences eid).accs = u.accs := fun u => by
    unfold State.settleFences
    dsimp only
    split <;> rfl
  exact (fences _).trans (settleOp_accs s op)

/-- An access that is among those dropped is gone. -/
theorem dropAll_find {a : Access} {l : List Access} (h : a ∈ l) (s : State) : (l.foldl State.dropAccess s).accs.find a.id = none := by
  have gone : ∀ (l : List Access) (s : State), s.accs.find a.id = none → (l.foldl State.dropAccess s).accs.find a.id = none :=
    fun l s hs => List.foldlRecOn (motive := fun (t : State) => t.accs.find a.id = none) l _ hs fun t ht b _ => by
      show (NMap.drop t.accs b.id).find a.id = none
      by_cases same : a.id = b.id
      · rw [same]
        exact NMap.find_drop_self ..
      · rw [NMap.find_drop_ne _ same]
        exact ht
  induction l generalizing s with
  | nil => cases h
  | cons b l ih =>
    rcases List.mem_cons.1 h with rfl | h
    · exact gone l _ (NMap.find_drop_self ..)
    · exact ih h _

end Sys2Proof.Machine
end

/-! # The Aqric ports (R15, R16, R221) -/

section
namespace Sys2Proof.Claims
open Sys2Proof.Machine

/-! ## Link faults -/

/-- An element takes the fault of a port, and what it runs has the record. -/
theorem takePortFault_portFault {s : State} {eid i : Nat} (h : (s.elem eid).inst = some i) (port code : Nat) (toks : List TokEntry) :
    PortFault s (s.takePortFault eid port code toks) eid i port code := by
  refine ⟨takePortFault_faulted .., fun j hj => ?_, fun x hx => ?_⟩
  · rw [takePortFault_insts s eid port code toks h]
    exact produce_insts_ne _ _ _ _ _ _ _ _ _ _ hj
  · rw [takePortFault_insts s eid port code toks h]
    obtain ⟨ev, hev, hsrc, hcode, hslot, hword, haddr⟩ :=
      produce_insts_self (s.setElem eid { s.elem eid with state := .faulted }) i (4, port) 7 code none 0 0 toks 0 hx
    exact ⟨ev, hev, hsrc, hcode, hslot, hword, haddr⟩

/-- What comes before a fault without a change of the instances, and after it without a change of them and of the element's state. -/
theorem PortFault.between {s t u v : State} {eid i port code : Nat} (h : PortFault t u eid i port code) (before : t.insts = s.insts)
    (after : v.insts = u.insts) (state : (v.elem eid).state = (u.elem eid).state) : PortFault s v eid i port code := by
  obtain ⟨faulted, others, record⟩ := h
  refine ⟨state.trans faulted, fun j hj => ?_, fun x hx => ?_⟩
  · rw [after, others j hj, before]
  · rw [after]
    exact record x (by rw [before]; exact hx)

/-- As does one whose other parts have changed before. -/
theorem portFault_of_same {s u : State} {eid i : Nat} (h : (u.elem eid).inst = some i) (same : u.insts = s.insts) (port code : Nat)
    (toks : List TokEntry) : PortFault s (u.takePortFault eid port code toks) eid i port code :=
  (takePortFault_portFault h port code toks).between same rfl rfl

theorem mem_opAccs {s : State} {port : Nat} {a : Access} (h : s.onPort port = [a]) : a ∈ s.opAccs a.op := by
  have ha : a ∈ s.onPort port := by simp [h]
  obtain ⟨x, hx, rfl⟩ := List.mem_map.1 ha
  exact List.mem_map.2 ⟨x, List.mem_filter.2 ⟨(List.mem_filter.1 hx).1, by simp⟩, rfl⟩

/-- An access lost with its port: it is gone, its element takes the fault of the port, and only what belongs to accesses changes else. -/
theorem failOp_port {s : State} {a : Access} {o : MemOp} {i port family code addr : Nat} (ho : s.ops.find a.op = some o)
    (ha : a ∈ s.opAccs a.op) (hi : (s.elem a.eid).inst = some i) (hoi : o.inst = i) :
    ∃ t, s.failOp a (family, code, addr) (some port) = t ∧
      t = { s with accs := t.accs, track := t.track, tiles := t.tiles, ops := t.ops, elems := t.elems, insts := t.insts, recSeq := t.recSeq } ∧
      t.accs.find a.id = none ∧ PortFault s t a.eid i port code := by
  let later := (s.opAccs a.op).filter (fun x => a.id ≤ x.id && (x.stage == .walk || x.id = a.id))
  let u := later.foldl State.dropAccess (s.muteOp a.op)
  have ending : Ending s u := (muteOp_ending s a.op).trans (dropAll_ending _ _)
  have inst : (u.elem a.eid).inst = some i := (ending.inst a.eid).trans hi
  have gone : u.accs.find a.id = none := dropAll_find (List.mem_filter.2 ⟨ha, by simp⟩) _
  let toks := o.firing.entries a.eid (if elemType a.eid == .ag && withheld family code then 6 else 5)
  have fault := takePortFault_portFault inst port code toks
  have rest := takePortFault_rest u a.eid port code toks
  have settled := settle_ending (u.takePortFault a.eid port code toks) a.op a.eid
  refine ⟨(u.takePortFault a.eid port code toks).settle a.op a.eid, ?_, ?_, ?_, ?_⟩
  · simp only [State.failOp, ho]
    rw [if_neg (show ¬(u.elem a.eid).inst ≠ some o.inst by rw [inst, hoi]; simp)]
  · rw [settled.rest, rest, ending.rest]
  · rw [settle_accs, rest]
    exact gone
  · exact fault.between ending.insts settled.insts (settled.state a.eid)

/-! ## AQRIC_PORT_FAIL -/

/-- A port, and the state with it down. -/
def portOf (s : State) (port : Nat) : AqricPort := nth s.aqric port { up := false }
def portDown (s : State) (port : Nat) : State :=
  { s with aqric := s.aqric.set port { portOf s port with up := false, draining := true } }

theorem upd_eq_set {α : Type} {l : List α} {n : Nat} (h : n < l.length) (f : α → α) (d : α) : upd l n f = l.set n (f (nth l n d)) := by
  rw [upd, List.modify_eq_set_getElem? , nth]
  simp [h]

theorem modAqric_eq {s : State} {port : Nat} (h : port < s.aqric.length) (f : AqricPort → AqricPort) :
    s.modAqric port f = { s with aqric := s.aqric.set port (f (portOf s port)) } := by
  rw [State.modAqric, upd_eq_set h _ { up := false }, portOf]

/-- What is outstanding on a port that is up. -/
structure Outstanding (s : State) (port : Nat) (accs : List Access) (links : List LinkReq) (ams : List PodAm) : Prop where
  known : port < s.aqric.length
  up : (portOf s port).up = true
  accs : s.onPort port = accs
  links : s.links.filter (fun x => x.port = some port ∧ x.answer = none) = links
  ams : s.podAms.filter (fun x => x.port = some port) = ams

section
variable {s : State} {port : Nat} {accs : List Access} {links : List LinkReq} {ams : List PodAm}

theorem Outstanding.linksOn (h : Outstanding s port accs links ams) : s.linksOn port = links := by
  rw [← h.links, State.linksOn]
  congr 1
  funext r
  cases r.answer <;> simp

/-- The accesses, then the requests, then the messages of a port that fails are lost. -/
theorem aqricPortFail_eq (h : Outstanding s port accs links ams) : exec (.aqricPortFail port) s = .next
    (let t := accs.foldl (fun (s : State) a => s.failOp a (fLINK, cAQRIC, 0) (some port)) (portDown s port)
     let u := (t.linksOn port).foldl (fun (s : State) r => s.failLink port r) t
     (u.podAms.filter (·.port = some port)).foldl (fun (s : State) x => s.failPodAm x (some port)) u) := by
  have up := h.up
  have down : s.modAqric port (fun a => { a with up := false, draining := true }) = portDown s port :=
    modAqric_eq h.known _
  unfold portOf at up
  simp only [exec, execAqricPortFail, up, down, ← h.accs]
  rfl

/-- Where no access is outstanding, the requests of the port are lost in the state with the port down. -/
theorem aqricPortFail_links (h : Outstanding s port [] links ams) {u : State}
    (hu : links.foldl (fun (s : State) r => s.failLink port r) (portDown s port) = u) (kept : u.podAms = s.podAms) :
    exec (.aqricPortFail port) s = .next (ams.foldl (fun (s : State) x => s.failPodAm x (some port)) u) := by
  have down : (portDown s port).linksOn port = links := h.linksOn
  rw [aqricPortFail_eq h, List.foldl_nil]
  simp only [down, hu, kept, h.ams]

theorem aqricPortFail_link {r : LinkReq} (h : Outstanding s port [] [r] []) {u : State} (hu : (portDown s port).failLink port r = u)
    (kept : u.podAms = s.podAms) : exec (.aqricPortFail port) s = .next u := aqricPortFail_links h hu kept

/-- Where only one access is outstanding, it is lost. -/
theorem aqricPortFail_access {a : Access} (h : Outstanding s port [a] [] []) {t : State}
    (ht : (portDown s port).failOp a (fLINK, cAQRIC, 0) (some port) = t) (links : t.links = s.links) (kept : t.podAms = s.podAms) :
    exec (.aqricPortFail port) s = .next t := by
  have none_ : t.linksOn port = [] := by
    rw [State.linksOn, links]
    exact h.linksOn
  rw [aqricPortFail_eq h, List.foldl_cons, List.foldl_nil, ht]
  simp only [none_, List.foldl_nil, kept, h.ams]

end

/-! ## Requests and messages that are lost with a port -/

section
variable {s : State} {port : Nat}

/-- A state without a request of the link. -/
def linkLost (s : State) (r : LinkReq) : State := { s with links := s.links.filter (fun x => x.id ≠ r.id) }

/-- A stream's read that is lost: its element takes the fault. -/
theorem failLink_stream {r : LinkReq} {i eid k mark : Nat} (hr : r.owner = .stream i eid k mark) (hi : (s.elem eid).inst = some i)
    (run : (s.elem eid).state ≠ .faulted) : s.failLink port r =
      (linkLost s r).takePortFault eid port cAQRIC [] := by
  have takes : (decide ((s.elem eid).inst = some i) && (s.elem eid).state != .faulted) = true := by simp [hi, run]
  simp only [State.failLink, hr, takes]
  rfl

theorem failLink_write {r : LinkReq} (hr : r.owner = .write) :
    s.failLink port r = linkLost s r := by
  simp only [State.failLink, hr]
  rfl

/-- Another asker finds its access lost. -/
theorem failLink_other {r : LinkReq} (hr : ∃ v, r.owner = .host v ∨ (∃ n, r.owner = .graph n ∨ r.owner = .image n ∨
      r.owner = .report n ∨ r.owner = .bind n) ∨ ∃ am, r.owner = .message am) :
    s.failLink port r = { s with links := s.links.map (fun x => if x.id = r.id then { x with answer := some .failed } else x) } := by
  obtain ⟨v, h | ⟨n, h | h | h | h⟩ | ⟨am, h⟩⟩ := hr <;> simp only [State.failLink, h]

/-- What is left where a copy loses its granule. -/
def copyFault (s : State) (port : Nat) (r : LinkReq) (tile : Nat) (c : Copy) : State :=
  ((linkLost s r).dropCopy tile c).takePortFault c.eid port cAQRIC (c.firing.entries c.eid 5)

/-- A copy whose granule is lost leaves its tile, and its element takes the fault. -/
theorem failLink_copy {r : LinkReq} {acc tile : Nat} {c : Copy} (hr : r.owner = .copy acc) (hc : s.copyOf acc = some (tile, c)) :
    s.failLink port r = copyFault s port r tile c := by
  simp only [State.failLink, hr, hc]
  rfl

theorem copyFault_rest (s : State) (port : Nat) (r : LinkReq) (tile : Nat) (c : Copy) : copyFault s port r tile c =
    { linkLost s r with
      tiles := (copyFault s port r tile c).tiles, elems := (copyFault s port r tile c).elems,
      insts := (copyFault s port r tile c).insts, recSeq := (copyFault s port r tile c).recSeq } := by
  unfold copyFault
  rw [takePortFault_rest]
  rfl

section
variable (s : State) {port : Nat} (r : LinkReq) {tile : Nat} {c : Copy}

theorem copyFault_others {e : Nat} (he : e ≠ c.eid) : (copyFault s port r tile c).elem e = s.elem e :=
  (takePortFault_others _ _ _ _ _ he).trans (State.elem_modElem_ne _ _ he)

theorem copyFault_tile_ne {k : Nat} (hk : k ≠ tile) : (copyFault s port r tile c).tile k = s.tile k :=
  (State.tile_congr (takePortFault_tiles ..) k).trans (State.tile_setTile_ne (linkLost s r) _ hk)

end

theorem copyFault_tile_self (s : State) (port : Nat) (r : LinkReq) (tile : Nat) (c : Copy) :
    (copyFault s port r tile c).tile tile = { s.tile tile with copies := (s.tile tile).copies.filter (fun d => d.id ≠ c.id) } :=
  (State.tile_congr (takePortFault_tiles ..) tile).trans (State.tile_setTile_self (linkLost s r) ..)

theorem copyFault_portFault {s₀ : State} {r : LinkReq} {tile i : Nat} {c : Copy} (hi : (s.elem c.eid).inst = some i)
    (same : s.insts = s₀.insts) : PortFault s₀ (copyFault s port r tile c) c.eid i port cAQRIC := by
  refine portFault_of_same (u := (linkLost s r).dropCopy tile c) ?_ same port cAQRIC _
  rw [State.dropCopy, State.elem_modElem_self, freeEntry_kept]
  exact hi

theorem failPodAm_port {m : PodAm} (h : (s.elem m.eid).inst = some m.inst) : s.failPodAm m (some port) =
    ({ s with podAms := s.podAms.filter (fun x => x.id ≠ m.id) }.modElem m.eid (·.freeEntry m.firing.entry)).takePortFault m.eid port
      cAQRIC (m.firing.entries m.eid 5) := by
  have inst : (({ s with podAms := s.podAms.filter (fun x => x.id ≠ m.id) }.modElem m.eid (·.freeEntry m.firing.entry)).elem m.eid).inst =
      some m.inst := by
    rw [State.elem_modElem_self, freeEntry_kept]
    exact h
  simp only [State.failPodAm]
  rw [if_neg (not_not.2 inst)]

end

/-! ## AQRIC_REMAP and AQRIC_REPLAY -/

theorem linksOn_eq_nil {s : State} {port : Nat} :
    s.linksOn port = [] ↔ ∀ x ∈ s.links, x.port = some port → x.answer ≠ none := by
  simp [State.linksOn, List.filter_eq_nil_iff]

/-- The port leaves the hash once nothing is outstanding on it. -/
theorem aqricRemap_idle {s : State} {port : Nat} (known : port < s.aqric.length) (draining : (portOf s port).draining = true)
    (none_ : s.onPort port = []) (answered : ∀ x ∈ s.links, x.port = some port → x.answer ≠ none) :
    exec (.aqricRemap port) s = .next { s with
      aqric := s.aqric.set port { portOf s port with draining := false }, remapped := s.remapped ++ [port] } := by
  have same : nth s.aqric port { } = portOf s port := by simp [portOf, nth, known]
  simp only [exec, execAqricRemap, same, draining, none_, linksOn_eq_nil.2 answered, modAqric_eq known]
  rfl

theorem aqricRemap_busy {s : State} {port : Nat} (h : s.onPort port ≠ [] ∨ ∃ x ∈ s.links, x.port = some port ∧ x.answer = none) :
    exec (.aqricRemap port) s = .next s := by
  have busy : ((nth s.aqric port { }).draining && (s.onPort port).isEmpty && (s.linksOn port).isEmpty) = false := by
    rcases h with h | ⟨x, hx, hp, ha⟩
    · rw [List.isEmpty_eq_false_iff.2 h, Bool.and_false, Bool.false_and]
    · have on : s.linksOn port ≠ [] := fun k => linksOn_eq_nil.1 k x hx hp ha
      rw [List.isEmpty_eq_false_iff.2 on, Bool.and_false]
  simp only [exec, execAqricRemap, busy]
  rfl

theorem aqricRules_happen (port : Nat) (a : Access) (o : MemOp) (m : PodAm) (i : Nat) (r : LinkReq) (tile : Nat) (c : Copy) :
    Happen (aqricRules port a o m i r tile c) := by
  have out : ∀ {s accs links ams}, (port < s.aqric.length ∧ (portOf s port).up = true ∧ s.onPort port = accs ∧
      s.links.filter (fun x => x.port = some port ∧ x.answer = none) = links ∧ s.podAms.filter (fun x => x.port = some port) = ams) →
      Outstanding s port accs links ams := fun ⟨known, up, accs, links, ams⟩ =>
        ⟨known, up, accs, links, ams⟩
  refine .cons (becomes_holds fun s h => ?idle) <| .cons (fun s h => ?access) <| .cons (fun s h => ?message) <|
    .cons (fun s h => ?stream) <| .cons (fun s h => ?copy) <| .cons (becomes_holds fun s h => ?write) <|
    .cons (becomes_holds fun s h => ?others) <| .cons (becomes_holds fun s h => ?remap) <|
    .cons (becomes_holds fun s h => ?busy) <| .cons (becomes_holds fun s h => ?replay) .nil
  case idle => exact aqricPortFail_links (out h) rfl rfl
  case access =>
    obtain ⟨h, ho, hi, hoi⟩ := h
    have h := out h
    obtain ⟨t, ht, rest, gone, fault⟩ := failOp_port (s := portDown s port) (family := fLINK) (code := cAQRIC) (addr := 0) (port := port)
      ho (mem_opAccs (s := portDown s port) h.accs) hi hoi
    have links : t.links = s.links := by rw [rest]; rfl
    have ams : t.podAms = s.podAms := by rw [rest]; rfl
    exact ⟨t, aqricPortFail_access h ht links ams, by rw [rest]; rfl, gone, by rw [rest]; rfl, links, ams, fault⟩
  case message =>
    obtain ⟨h, hi, hm⟩ := h
    have lost := failPodAm_port (s := portDown s port) (port := port) (hi.trans (congrArg some hm.symm))
    refine ⟨_, (aqricPortFail_links (out h) rfl rfl).trans (congrArg Host.Outcome.next lost), takePortFault_rest .., fun e he => ?_, ?_⟩
    · exact (takePortFault_others _ _ _ _ _ he).trans (State.elem_modElem_ne _ _ he)
    · refine portFault_of_same ?_ rfl port cAQRIC _
      rw [State.elem_modElem_self, freeEntry_kept]
      exact hi
  case stream =>
    obtain ⟨h, ⟨k, mark, hr⟩, hi, run⟩ := h
    have lost := failLink_stream (s := portDown s port) (port := port) hr hi run
    exact ⟨_, aqricPortFail_link (out h) lost (takePortFault_podAms ..), takePortFault_rest .., fun e he => takePortFault_others _ _ _ _ _ he,
      portFault_of_same (u := linkLost (portDown s port) r) hi rfl port cAQRIC _⟩
  case copy =>
    obtain ⟨h, ⟨acc, hr, hc⟩, hi⟩ := h
    have lost := failLink_copy (s := portDown s port) (port := port) hr hc
    exact ⟨_, aqricPortFail_link (out h) lost (takePortFault_podAms ..), copyFault_rest .., fun e he => copyFault_others (portDown s port) r he,
      fun k hk => copyFault_tile_ne (portDown s port) r hk, copyFault_tile_self .., copyFault_portFault hi rfl⟩
  case write =>
    obtain ⟨h, hr⟩ := h
    exact aqricPortFail_link (out h) (failLink_write hr) rfl
  case others =>
    obtain ⟨h, hr⟩ := h
    exact aqricPortFail_link (out h) (failLink_other hr) rfl
  case remap =>
    obtain ⟨known, draining, none_, answered⟩ := h
    exact aqricRemap_idle known draining none_ answered
  case busy => exact aqricRemap_busy h
  case replay => exact congrArg Host.Outcome.next (modAqric_eq h _)

end Sys2Proof.Claims
end

/-! # The Ethernet ports: what flows, counts and answers keep (R17 to R20, R52) -/

section
namespace Sys2Proof.Machine

/-! ## Flows -/

/-- An entry of another key is found as before where the entries of a key leave a list. -/
theorem find?_filter_key {α β : Type} [DecidableEq β] (l : List α) (key : α → β) {j k : β} (h : j ≠ k) :
    (l.filter (fun a => key a ≠ k)).find? (fun a => key a = j) = l.find? (fun a => key a = j) := by
  rw [List.find?_filter]
  congr 1
  funext a
  by_cases same : key a = j
  · simp [same, h]
  · simp [same]

theorem rxNext_setRxNext (s : State) (k : FlowKey) (n : Word) (y : FlowKey) :
    (s.setRxNext k n).rxNext y = if y = k then n else s.rxNext y := by
  unfold State.rxNext State.setRxNext
  split
  · subst y
    simp
  · have other : k ≠ y := Ne.symm ‹_›
    rw [List.find?_cons_of_neg (by simpa using other), find?_filter_key _ _ (Ne.symm other)]

theorem txFlow_setTxFlow (s : State) (x : TxFlow) (y : FlowKey) : (s.setTxFlow x).txFlow y = if y = x.key then x else s.txFlow y := by
  unfold State.txFlow State.setTxFlow
  split
  · subst y
    simp
  · have other : x.key ≠ y := Ne.symm ‹_›
    rw [List.find?_cons_of_neg (by simpa using other), find?_filter_key _ _ (Ne.symm other)]

theorem EthPort.owe_flows (p : EthPort) (f : EthFrame) (now : Nat) : p.owe f now = { p with flows := (p.owe f now).flows } := by
  unfold EthPort.owe
  dsimp only
  split <;> rfl

/-- A frame adds one to what its flow owes. -/
theorem EthPort.owe_lt {p : EthPort} {n : Nat} (h : ∀ y ∈ p.flows, y.owed < n) (pos : 0 < n) (f : EthFrame) (now : Nat) :
    ∀ y ∈ (p.owe f now).flows, y.owed < n + 1 := by
  intro y hy
  unfold EthPort.owe at hy
  dsimp only at hy
  split at hy
  · obtain ⟨z, hz, rfl⟩ := List.mem_map.1 hy
    have := h z hz
    split
    · exact Nat.succ_lt_succ this
    · omega
  · rcases List.mem_append.1 hy with hy | hy
    · have := h y hy
      omega
    · rw [List.mem_singleton.1 hy]
      dsimp only
      omega

/-- The flow of the frame owes an ACK, whose addresses come from the frame. -/
theorem EthPort.owe_owes (p : EthPort) (f : EthFrame) (now : Nat) :
    ∃ y ∈ (p.owe f now).flows, y.same f = true ∧ 0 < y.owed ∧ y.sample = f := by
  unfold EthPort.owe
  dsimp only
  split
  · obtain ⟨z, hz, same⟩ := List.any_eq_true.1 ‹_›
    refine ⟨_, List.mem_map_of_mem hz, ?_⟩
    rw [if_pos same]
    exact ⟨same, Nat.succ_pos _, rfl⟩
  · exact ⟨_, List.mem_append_right _ (List.mem_singleton_self _), by simp [Flow.same], Nat.one_pos, rfl⟩

theorem EthPort.owe_only {p : EthPort} {y : Flow} {f : EthFrame} (h : p.flows = [y]) (same : y.same f = true) (owed : y.owed ≠ 0)
    (now : Nat) : (p.owe f now).flows = [{ y with owed := y.owed + 1, sample := f }] := by
  simp [EthPort.owe, h, same, owed]

/-! ## Counts of a stream's flow -/

/-- The counts of a partition once one stream's have changed. -/
def grownCounts (eid k : Nat) (f : FlowCount → FlowCount) (l : List FlowCount) : List FlowCount :=
  if l.any (fun c => c.eid = eid && c.strm = k) then l.map (fun c => if c.eid = eid && c.strm = k then f c else c)
  else l ++ [f { eid, strm := k }]

theorem find_grownCounts {eid k : Nat} {f : FlowCount → FlowCount} (hf : ∀ c, (f c).eid = c.eid ∧ (f c).strm = c.strm)
    (l : List FlowCount) :
    ((grownCounts eid k f l).find? (fun c => c.eid = eid ∧ c.strm = k)).getD { eid, strm := k } =
      f ((l.find? (fun c => c.eid = eid ∧ c.strm = k)).getD { eid, strm := k }) := by
  have named : ∀ c, decide ((if c.eid = eid && c.strm = k then f c else c).eid = eid ∧
      (if c.eid = eid && c.strm = k then f c else c).strm = k) = decide (c.eid = eid ∧ c.strm = k) := fun c => by
    split
    · rw [(hf c).1, (hf c).2]
    · rfl
  unfold grownCounts
  split <;> rename_i any
  · have found : (l.find? (fun c => c.eid = eid ∧ c.strm = k)).isSome = true := by
      rw [List.find?_isSome]
      simpa using any
    obtain ⟨c, hc⟩ := Option.isSome_iff_exists.1 found
    have at_ : c.eid = eid ∧ c.strm = k := by simpa using List.find?_some hc
    rw [List.find?_map, Function.comp_def, funext named, hc]
    simp [at_]
  · have absent : l.find? (fun c => c.eid = eid ∧ c.strm = k) = none := by
      rw [List.find?_eq_none]
      simpa using any
    rw [List.find?_append, absent]
    simp [(hf { eid, strm := k }).1, (hf { eid, strm := k }).2]

theorem countFlow_some {s : State} {eid : Nat} {x : Inst} (h : s.instOf eid = some x) (k : Nat) (f : FlowCount → FlowCount) :
    s.countFlow eid k f = s.modPart x.part (fun p => { p with flowCounts := grownCounts eid k f p.flowCounts }) := by
  simp only [State.countFlow, h]
  rfl

theorem countFlow_none {s : State} {eid : Nat} (h : s.instOf eid = none) (k : Nat) (f : FlowCount → FlowCount) :
    s.countFlow eid k f = s := by
  simp only [State.countFlow, h]

theorem countFlow_rest (s : State) (eid k : Nat) (f : FlowCount → FlowCount) :
    s.countFlow eid k f = { s with parts := (s.countFlow eid k f).parts } := by
  cases h : s.instOf eid with
  | none => rw [countFlow_none h]
  | some x => rw [countFlow_some h]; rfl

/-! ## Answers -/

/-- Entries of answer buffers come to their tokens, and nothing else changes but the numbers of free values. -/
structure AnswersOnly (s t : State) : Prop where
  rest : t = { s with elems := t.elems, contexts := t.contexts, fresh := t.fresh }
  elem : ∀ e, t.elem e = { s.elem e with ans := (t.elem e).ans }
  kept : ∀ e, ∀ b ∈ (t.elem e).ans, ∃ a ∈ (s.elem e).ans, a.id = b.id ∧ (a.token.isSome = true → b.token.isSome = true)

theorem AnswersOnly.refl (s : State) : AnswersOnly s s := ⟨rfl, fun _ => rfl, fun _ b hb => ⟨b, hb, rfl, id⟩⟩

theorem AnswersOnly.trans {s t u : State} (h : AnswersOnly s t) (k : AnswersOnly t u) : AnswersOnly s u := by
  refine ⟨?_, fun e => ?_, fun e c hc => ?_⟩
  · rw [k.rest, h.rest]
  · rw [k.elem, h.elem]
  · obtain ⟨b, hb, same, some⟩ := k.kept e c hc
    obtain ⟨a, ha, same', some'⟩ := h.kept e b hb
    exact ⟨a, ha, same'.trans same, some ∘ some'⟩

/-- What an element has of an entry is answered. -/
def Answered (eid n : Nat) (s : State) : Prop := ∀ b ∈ (s.elem eid).ans, b.id = n → b.token.isSome = true

theorem Answered.keep {eid n : Nat} {s t : State} (h : Answered eid n s) (k : AnswersOnly s t) : Answered eid n t := by
  intro b hb hn
  obtain ⟨a, ha, same, some⟩ := k.kept eid b hb
  exact some (h a ha (same.trans hn))

theorem NMap.find_map {α : Type} (g : α → α) (m : NMap α) (n : Nat) : NMap.find (m.map (fun x => (x.1, g x.2))) n = (m.find n).map g := by
  induction m with
  | nil => rfl
  | cons x m ih =>
    simp only [List.map_cons, NMap.find, ih]
    split <;> rfl

/-- An element answers an entry where it has it. -/
def giveEntry (n : Nat) (tok : Tag → Token) (e : Element) : Element := if e.ans.any (fun a => a.id = n) then e.answer n tok else e

/-- An answer whose element lacks the entry goes to whichever has it (the element's saved state moved). -/
theorem giveAnswer_elsewhere {s : State} {eid n : Nat} (h : ¬(s.elem eid).ans.any (fun a => a.id = n) = true) (tok : Tag → Token) :
    (s.giveAnswer eid n tok).elems = s.elems.map (fun x => (x.1, giveEntry n tok x.2)) := by
  rw [State.giveAnswer, if_neg h]
  rfl

theorem giveEntry_cases (n : Nat) (tok : Tag → Token) (e : Element) : giveEntry n tok e = e ∨ giveEntry n tok e = e.answer n tok := by
  unfold giveEntry
  split
  · exact .inr rfl
  · exact .inl rfl

theorem giveAnswer_elem (s : State) (eid n : Nat) (tok : Tag → Token) (e : Nat) :
    (s.giveAnswer eid n tok).elem e = s.elem e ∨ (s.giveAnswer eid n tok).elem e = (s.elem e).answer n tok := by
  by_cases has : (s.elem eid).ans.any (fun a => a.id = n) = true
  · rw [State.giveAnswer, if_pos has, State.elem_modElem]
    split
    · exact .inr rfl
    · exact .inl rfl
  · simp only [State.elem, giveAnswer_elsewhere has tok, NMap.find_map]
    cases s.elems.find e with
    | none => exact .inl rfl
    | some x => exact giveEntry_cases n tok x

theorem mem_answer_kept {e : Element} {n : Nat} {tok : Tag → Token} {b : Answer} (hb : b ∈ (e.answer n tok).ans) :
    ∃ a ∈ e.ans, a.id = b.id ∧ (a.token.isSome = true → b.token.isSome = true) ∧ (b.id = n → b.token.isSome = true) := by
  obtain ⟨a, ha, rfl⟩ := List.mem_map.1 hb
  refine ⟨a, ha, ?_⟩
  split
  · exact ⟨rfl, fun _ => rfl, fun _ => rfl⟩
  · rename_i unmet
    exact ⟨rfl, id, fun same => by simpa [same, Option.isSome_iff_ne_none] using unmet⟩

theorem giveAnswer_only (s : State) (eid n : Nat) (tok : Tag → Token) : AnswersOnly s (s.giveAnswer eid n tok) := by
  have rest := giveAnswer_rest s eid n tok
  refine ⟨by rw [congrArg State.fresh rest]; exact rest, fun e => ?_, fun e b hb => ?_⟩
  · rcases giveAnswer_elem s eid n tok e with h | h <;> rw [h]
    rfl
  · rcases giveAnswer_elem s eid n tok e with h | h <;> rw [h] at hb
    · exact ⟨b, hb, rfl, id⟩
    · obtain ⟨a, ha, same, some, -⟩ := mem_answer_kept hb
      exact ⟨a, ha, same, some⟩

theorem giveAnswer_answered (s : State) (eid n : Nat) (tok : Tag → Token) : Answered eid n (s.giveAnswer eid n tok) := by
  intro b hb hn
  by_cases has : ∃ a ∈ (s.elem eid).ans, a.id = n
  · obtain ⟨a, ha, same⟩ := has
    rw [giveAnswer_has ha same, State.elem_modElem_self] at hb
    obtain ⟨_, _, _, _, given⟩ := mem_answer_kept hb
    exact given hn
  · obtain ⟨a, ha, same, _⟩ := (giveAnswer_only s eid n tok).kept eid b hb
    exact absurd ⟨a, ha, same.trans hn⟩ has

/-- Steps that answer one thing each answer all of them. -/
theorem foldl_answers {α : Type} {step : State → α → State} {done : α → State → Prop}
    (one : ∀ s a, AnswersOnly s (step s a) ∧ done a (step s a)) (keep : ∀ a s t, done a s → AnswersOnly s t → done a t)
    (l : List α) (s : State) : AnswersOnly s (l.foldl step s) ∧ ∀ a ∈ l, done a (l.foldl step s) := by
  induction l generalizing s with
  | nil => exact ⟨.refl s, fun _ h => nomatch h⟩
  | cons a l ih =>
    obtain ⟨only, all⟩ := ih (step s a)
    exact ⟨(one s a).1.trans only, List.forall_mem_cons.2 ⟨keep a _ _ (one s a).2 only, all⟩⟩

theorem ackEntries_answers (s : State) (eid : Nat) (entries : List Nat) :
    AnswersOnly s (s.ackEntries eid entries) ∧ ∀ n ∈ entries, Answered eid n (s.ackEntries eid entries) :=
  foldl_answers (done := Answered eid)
    (fun s _ => ⟨(show AnswersOnly s s.takeFresh.2 from ⟨rfl, fun _ => rfl, fun _ b hb => ⟨b, hb, rfl, id⟩⟩).trans (giveAnswer_only ..),
      giveAnswer_answered _ eid _ _⟩)
    (fun _ _ _ h k => h.keep k) entries s

/-- Frames that are acknowledged answer what they hold. -/
theorem ackFrames_answers (l : List SentFrame) (s : State) :
    AnswersOnly s (l.foldl (fun s v => s.ackEntries v.eid v.entries) s) ∧
    ∀ v ∈ l, ∀ n ∈ v.entries, Answered v.eid n (l.foldl (fun s v => s.ackEntries v.eid v.entries) s) :=
  foldl_answers (done := fun (v : SentFrame) s => ∀ n ∈ v.entries, Answered v.eid n s) (fun s v => ackEntries_answers s v.eid v.entries)
    (fun _ _ _ h k n hn => (h n hn).keep k) l s

end Sys2Proof.Machine
end

/-! # The rules of the Ethernet ports -/

section
namespace Sys2Proof.Claims
open Sys2Proof.Machine

/-! ## Counts (R52) -/

theorem instOf_congr {s t : State} {eid : Nat} (h : (t.elem eid).inst = (s.elem eid).inst) (same : t.insts = s.insts) :
    t.instOf eid = s.instOf eid := by
  rw [State.instOf, State.instOf, h, same]

theorem countFlow_counts {eid k : Nat} {f : FlowCount → FlowCount} (hf : ∀ c, (f c).eid = c.eid ∧ (f c).strm = c.strm) (s : State) :
    Counts s (s.countFlow eid k f) eid k f := by
  cases h : s.instOf eid with
  | none =>
    rw [countFlow_none h]
    exact ⟨fun _ => rfl, fun x hx => nomatch h.symm.trans hx⟩
  | some x =>
    rw [countFlow_some h]
    refine ⟨fun p => ?_, fun y hy at_ => ?_⟩
    · by_cases same : p = x.part
      · by_cases at_ : p < s.parts.length
        · rw [← same, State.part_modPart_self s p _ at_]
        · subst p
          simp [State.part, State.modPart, nth, at_]
      · rw [State.part_modPart_ne s _ same]
    · obtain rfl : x = y := Option.some.inj (h.symm.trans hy)
      refine ⟨?_, fun p other => State.part_modPart_ne s _ other⟩
      rw [flowCount, flowCount, State.part_modPart_self s _ _ at_]
      exact find_grownCounts hf _

/-- Counts are about partitions alone, and about which of them owns the element. -/
theorem Counts.congr {s s' t t' : State} {eid k : Nat} {f : FlowCount → FlowCount} (h : Counts s t eid k f) (before : s'.parts = s.parts)
    (after : t'.parts = t.parts) (inst : s'.instOf eid = s.instOf eid) : Counts s' t' eid k f := by
  have was := State.part_congr before
  have is_ := State.part_congr after
  unfold Counts flowCount at h ⊢
  simpa only [was, is_, before, inst] using h

/-! ## ETH_FRAME_RX: frames that are not taken -/

/-- Whether the stream takes the frame: started, in order, of whole words. -/
def Takes (s : State) (eid k : Nat) (f : EthFrame) : Prop :=
  hdrLen f.header % 4 = 0 ∧ ((s.elem eid).state = .run ∨ (s.elem eid).state = .held) ∧
    ((s.elem eid).stream k).mode = .prefetching ∧ hdrSeq f.header = s.rxNext (frameKey f)

theorem takes_iff {s : State} {eid k : Nat} {f : EthFrame} : Takes s eid k f ↔
    (hdrLen f.header % 4 ≠ 0 || !s.takesFrames eid k || hdrSeq f.header ≠ s.rxNext (frameKey f)) = false := by
  simp [Takes, State.takesFrames, and_assoc, or_iff_not_imp_left]

/-- The frame is of the flow of an INGRESS stream. -/
structure Named (s : State) (port eid k : Nat) (f : EthFrame) : Prop where
  valid : frameOk port f 0 = true
  stream : s.streamOfFlow 6 f.srcIp f.dstIp (hdrFlow f.header) = some (eid, k)
  known : k < (s.elem eid).streams.length
  port : port < s.eth.length

section
variable {s : State} {port eid k : Nat} {f : EthFrame}

theorem ethFrameRx_invalid (h : frameOk port f 0 = false) : exec (.ethFrameRx port f) s = .next (s.dropFrame port) := by
  simp only [exec, execEthFrameRx, h]
  rfl

theorem ethFrameRx_unnamed (h : frameOk port f 0 = true) (none_ : s.streamOfFlow 6 f.srcIp f.dstIp (hdrFlow f.header) = none) :
    exec (.ethFrameRx port f) s = .next (s.dropFrame port) := by
  simp only [exec, execEthFrameRx, h, none_]
  rfl

theorem ethFrameRx_discards (h : Named s port eid k f) (not : ¬Takes s eid k f) :
    exec (.ethFrameRx port f) s = .next (s.countFlow eid k (fun c => { c with discarded := c.discarded + 1 })) := by
  have discards := Bool.eq_true_of_not_eq_false (mt takes_iff.2 not)
  simp only [exec, execEthFrameRx, h.valid, h.stream]
  exact if_pos discards

end

/-! ## ETH_FRAME_RX: frames that are taken -/

/-- What a frame adds to its stream, and to the counts of its flow. -/
def tookFrame (f : EthFrame) (t : Stream) : Stream := { t with ingress := t.ingress ++ [(f.payload.take (hdrLen f.header), hdrLast f.header)] }
def countRx (f : EthFrame) (c : FlowCount) : FlowCount := { c with rxFrames := c.rxFrames + 1, rxBytes := c.rxBytes + hdrLen f.header }

/-- The state once a frame in order has entered its stream, and then once it is counted. -/
def entered (s : State) (eid k : Nat) (f : EthFrame) : State :=
  (s.setRxNext (frameKey f) (hdrSeq f.header + 1)).modElem eid (·.modStream k (tookFrame f))
def taken (s : State) (eid k : Nat) (f : EthFrame) : State := (entered s eid k f).countFlow eid k (countRx f)

/-- What taking a frame changes, at the port flows alone. -/
def Took (s t : State) (port eid k : Nat) (f : EthFrame) : Prop :=
  (t.elem eid).stream k = tookFrame f ((s.elem eid).stream k) ∧ Counts s t eid k (countRx f) ∧
    (∀ y, t.rxNext y = if y = frameKey f then hdrSeq f.header + 1 else s.rxNext y) ∧
    t = { s with elems := t.elems, parts := t.parts, rxFlows := t.rxFlows, eth := t.eth, ethOut := t.ethOut } ∧
    (∀ e, e ≠ eid → t.elem e = s.elem e) ∧ t.elem eid = { s.elem eid with streams := (t.elem eid).streams } ∧
    (∀ j, j ≠ k → (t.elem eid).stream j = (s.elem eid).stream j) ∧
    nth t.eth port { } = { nth s.eth port { } with flows := (nth t.eth port { }).flows } ∧
    ∀ q, q ≠ port → nth t.eth q { } = nth s.eth q { }

section
variable {s t : State} {port eid k : Nat} {f : EthFrame}

theorem ethFrameRx_takes (h : Named s port eid k f) (takes : Takes s eid k f) : exec (.ethFrameRx port f) s =
    .next (((taken s eid k f).modEth port (·.owe f (taken s eid k f).now)).ackAtSixteen port) := by
  obtain ⟨-, -, -, next⟩ := id takes
  simp only [exec, execEthFrameRx, h.valid, h.stream]
  refine (if_neg (ne_true_of_eq_false (takes_iff.1 takes))).trans ?_
  simp only [← next]
  rfl

theorem taken_rest (s : State) (eid k : Nat) (f : EthFrame) :
    taken s eid k f = { entered s eid k f with parts := (taken s eid k f).parts } := countFlow_rest ..

/-- Beside the port, a frame that is taken changes its stream, the counts and the SEQ that the flow takes next. -/
theorem took_of_taken (known : k < (s.elem eid).streams.length)
    (rest : t = { taken s eid k f with eth := t.eth, ethOut := t.ethOut })
    (at_ : nth t.eth port { } = { nth s.eth port { } with flows := (nth t.eth port { }).flows })
    (others : ∀ q, q ≠ port → nth t.eth q { } = nth s.eth q { }) : Took s t port eid k f := by
  rw [taken_rest] at rest
  have elems : t.elems = (entered s eid k f).elems := by rw [rest]
  have self : t.elem eid = (s.elem eid).modStream k (tookFrame f) := (State.elem_congr elems eid).trans (State.elem_modElem_self ..)
  have inst : (entered s eid k f).instOf eid = s.instOf eid := instOf_congr (by rw [entered, State.elem_modElem_self]; rfl) rfl
  have parts : t.parts = (taken s eid k f).parts := by rw [rest]
  have rx : t.rxFlows = (entered s eid k f).rxFlows := by rw [rest]
  refine ⟨?_, ?_, fun y => ?_, ?_, fun e he => ?_, by rw [self]; rfl, fun j hj => ?_, at_, others⟩
  · rw [self]
    exact nth_upd_self _ _ _ _ known
  · exact (countFlow_counts (f := countRx f) (fun _ => ⟨rfl, rfl⟩) (entered s eid k f)).congr rfl parts inst.symm
  · rw [State.rxNext, rx]
    exact rxNext_setRxNext s (frameKey f) (hdrSeq f.header + 1) y
  · rw [rest]
    rfl
  · exact (State.elem_congr elems e).trans (State.elem_modElem_ne _ _ he)
  · rw [self]
    exact nth_upd_ne _ _ _ hj

/-- Flows of the port where the frame owes its ACK. -/
theorem owes_eth (port_ : port < s.eth.length) :
    nth ((taken s eid k f).modEth port (·.owe f (taken s eid k f).now)).eth port { } = (nth s.eth port { }).owe f (taken s eid k f).now := by
  have eth : (taken s eid k f).eth = s.eth := by rw [taken_rest]; rfl
  rw [State.modEth, eth]
  exact nth_upd_self _ _ _ _ port_

theorem owes_eth_ne {q : Nat} (h : q ≠ port) :
    nth ((taken s eid k f).modEth port (·.owe f (taken s eid k f).now)).eth q { } = nth s.eth q { } := by
  have eth : (taken s eid k f).eth = s.eth := by rw [taken_rest]; rfl
  rw [State.modEth, eth]
  exact nth_upd_ne _ _ _ h

end

/-! ## ETH_ACK_SEND -/

/-- The state once the ACK of a port's flow is sent. -/
def acked (s : State) (port n : Nat) (y : Flow) : State :=
  { s with
    ethOut := s.ethOut ++ [(port, ackFrame port y (s.rxNext ⟨y.srcIp, y.dstIp, y.flow⟩))],
    eth := upd s.eth port (fun p => { p with flows := upd p.flows n (fun y => { y with owed := 0 }) }) }

theorem sendAck_owing {s : State} {port n : Nat} {y : Flow} (h : (nth s.eth port { }).flows[n]? = some y) (owed : 0 < y.owed) :
    s.sendAck port n = acked s port n y := by
  simp only [State.sendAck, h]
  rw [if_neg (Nat.ne_of_gt owed)]
  rfl

theorem ackAtSixteen_below {s : State} {port : Nat} (h : ∀ y ∈ (nth s.eth port { }).flows, y.owed < 16) : s.ackAtSixteen port = s := by
  have none_ : (nth s.eth port { }).flows.findIdx? (fun x => 16 ≤ x.owed) = none := by
    rw [List.findIdx?_eq_none_iff]
    intro y hy
    simpa using h y hy
  simp only [State.ackAtSixteen, none_]

theorem ackAtSixteen_only {s : State} {port : Nat} {y : Flow} (h : (nth s.eth port { }).flows = [y]) (owed : y.owed = 16) :
    s.ackAtSixteen port = acked s port 0 y := by
  have first : (nth s.eth port { }).flows.findIdx? (fun x => 16 ≤ x.owed) = some 0 := by simp [h, owed]
  simp only [State.ackAtSixteen, first]
  exact sendAck_owing (by rw [h]; rfl) (by omega)

section
variable {s : State} {port eid k : Nat} {f : EthFrame}

/-- Below the sixteenth frame of a flow the port owes an ACK of the frame. -/
theorem ethFrameRx_owes (h : Named s port eid k f) (takes : Takes s eid k f) (few : ∀ y ∈ (nth s.eth port { }).flows, y.owed < 15) :
    ∃ t, exec (.ethFrameRx port f) s = .next t ∧ Took s t port eid k f ∧ t.ethOut = s.ethOut ∧
      ∃ y ∈ (nth t.eth port { }).flows, y.same f = true ∧ 0 < y.owed ∧ y.sample = f := by
  let t := (taken s eid k f).modEth port (·.owe f (taken s eid k f).now)
  have at_ : nth t.eth port { } = _ := owes_eth h.port
  have waits : t.ackAtSixteen port = t := ackAtSixteen_below (by rw [at_]; exact EthPort.owe_lt few (by decide) _ _)
  refine ⟨t, (ethFrameRx_takes h takes).trans (congrArg _ waits), took_of_taken h.known rfl ?_ (fun q hq => owes_eth_ne hq), ?_, ?_⟩
  · rw [at_]
    exact EthPort.owe_flows ..
  · show (taken s eid k f).ethOut = s.ethOut
    rw [taken_rest]
    rfl
  · rw [at_]
    exact EthPort.owe_owes ..

/-- The sixteenth sends the ACK at once. -/
theorem ethFrameRx_acks {y : Flow} (h : Named s port eid k f) (takes : Takes s eid k f) (only : (nth s.eth port { }).flows = [y])
    (same : y.same f = true) (owed : y.owed = 15) :
    ∃ t, exec (.ethFrameRx port f) s = .next t ∧ Took s t port eid k f ∧
      t.ethOut = s.ethOut ++ [(port, ackFrame port { y with owed := 16, sample := f } (hdrSeq f.header + 1))] ∧
      (nth t.eth port { }).flows = [{ y with owed := 0, sample := f }] := by
  let u := (taken s eid k f).modEth port (·.owe f (taken s eid k f).now)
  let z : Flow := { y with owed := 16, sample := f }
  have owes : nth u.eth port { } = _ := owes_eth h.port
  have flows : (nth u.eth port { }).flows = [z] := by
    rw [owes, EthPort.owe_only only same (by omega), owed]
  have there : port < u.eth.length := by
    show port < (upd _ _ _).length
    rw [upd_length, taken_rest]
    exact h.port
  have at_ : nth (acked u port 0 z).eth port { } = { nth u.eth port { } with flows := [{ y with owed := 0, sample := f }] } := by
    rw [acked, nth_upd_self _ _ _ _ there, flows]
    rfl
  have took : Took s (acked u port 0 z) port eid k f := by
    refine took_of_taken h.known rfl ?_ (fun q hq => ?_)
    · rw [at_, owes, EthPort.owe_flows]
    · exact (nth_upd_ne _ _ _ hq).trans (owes_eth_ne hq)
  refine ⟨acked u port 0 z, ?_, took, ?_, by rw [at_]⟩
  · exact (ethFrameRx_takes h takes).trans (congrArg _ (ackAtSixteen_only flows rfl))
  · have key : (⟨z.srcIp, z.dstIp, z.flow⟩ : FlowKey) = frameKey f := by
      simpa [Flow.same, frameKey, and_assoc] using same
    obtain ⟨-, -, next, -⟩ := took
    have next : u.rxNext (frameKey f) = hdrSeq f.header + 1 := (next (frameKey f)).trans (if_pos rfl)
    have out : u.ethOut = s.ethOut := by
      show (taken s eid k f).ethOut = s.ethOut
      rw [taken_rest]
      rfl
    rw [acked, key, next, out]

end

/-! ## ETH_ACK_RX -/

section
variable {s : State} {port eid k : Nat} {f : EthFrame}

theorem ethAckRx_invalid (h : frameOk port f 1 = false) : exec (.ethAckRx port f) s = .next (s.dropFrame port) := by
  simp only [exec, execEthAckRx, h]
  rfl

theorem ethAckRx_unnamed (h : frameOk port f 1 = true) (none_ : s.streamOfFlow 5 f.dstIp f.srcIp (hdrFlow f.header) = none) :
    exec (.ethAckRx port f) s = .next (s.dropFrame port) := by
  simp only [exec, execEthAckRx, h, none_]
  rfl

/-- The frames up to the one that an ACK names are acknowledged. -/
theorem ethAckRx_frees {x : TxFlow} {u : SentFrame} {n : Nat} (h : frameOk port f 1 = true)
    (named : s.streamOfFlow 5 f.dstIp f.srcIp (hdrFlow f.header) = some (eid, k))
    (flow : s.txFlow ⟨f.dstIp, f.srcIp, hdrFlow f.header⟩ = x) (hu : x.unacked[n]? = some u) (seq : u.seq = hdrAckSeq f.header)
    (first : ∀ j < n, ∀ v, x.unacked[j]? = some v → v.seq ≠ hdrAckSeq f.header) :
    exec (.ethAckRx port f) s = .next ((x.unacked.take (n + 1)).foldl (fun (s : State) v => s.ackEntries v.eid v.entries)
      (s.setTxFlow { x with unacked := x.unacked.drop (n + 1), lastAck := s.now, resends := 0 })) := by
  have found : x.unacked.findIdx? (fun u => u.seq = hdrAckSeq f.header) = some n := by
    obtain ⟨lt, rfl⟩ := List.getElem?_eq_some_iff.1 hu
    rw [List.findIdx?_eq_some_iff_getElem]
    exact ⟨lt, by simpa using seq, fun j hj => by simpa using first j hj _ (List.getElem?_eq_getElem (hj.trans lt))⟩
  simp only [exec, execEthAckRx, h, named, flow, found]
  rfl

end

/-! ## ETH_RESEND -/

/-- A flow that has had no ACK for 100 us, named by a bound stream. -/
structure FlowDue (s : State) (eid k : Nat) (x : TxFlow) (tmpl : List Byte) : Prop where
  template : s.template eid k = some tmpl
  flow : s.txFlow (templateKey tmpl) = x
  bound : (s.elem eid).inst.isSome = true
  waits : x.unacked ≠ []
  late : x.lastAck + 100000 ≤ s.now

section
variable {s : State} {eid k : Nat} {x : TxFlow} {tmpl : List Byte}

theorem FlowDue.goes (h : FlowDue s eid k x tmpl) :
    ((s.elem eid).inst.isNone || x.unacked.isEmpty || s.now < x.lastAck + 100000) = false := by
  have bound : (s.elem eid).inst.isNone = false := by simpa using h.bound
  simp [bound, h.waits, h.late]

theorem ethResend_again (h : FlowDue s eid k x tmpl) (few : x.resends < 8) : exec (.ethResend eid k) s =
    .next ({ s with ethOut := s.ethOut ++ x.unacked.map (fun (v : SentFrame) => (v.port, v.frame)) }.setTxFlow
      { x with lastAck := s.now, resends := x.resends + 1 }) := by
  simp only [exec, execEthResend, h.template, h.flow]
  exact (if_neg (ne_true_of_eq_false h.goes)).trans (if_neg (Nat.not_le.2 few))

/-- The ninth time the sender of the first frame takes the fault of its port. -/
theorem ethResend_fails {u : SentFrame} {i : Nat} (h : FlowDue s eid k x tmpl) (many : 8 ≤ x.resends) (head : x.unacked.head? = some u)
    (hi : u.inst = some i) (at_ : (s.elem u.eid).inst = some i) (run : (s.elem u.eid).state ≠ .faulted) :
    exec (.ethResend eid k) s =
      .next ((s.setTxFlow { x with lastAck := s.now, resends := 0 }).takePortFault u.eid (36 + u.port) cETHERNET []) := by
  have sender : s.flowSender eid x = u.eid := by simp [State.flowSender, head, hi, at_]
  have runs : (((s.setTxFlow { x with lastAck := s.now, resends := 0 }).elem u.eid).state == .faulted) = false :=
    beq_eq_false_iff_ne.2 run
  simp only [exec, execEthResend, h.template, h.flow, sender, head]
  refine (if_neg (ne_true_of_eq_false h.goes)).trans ((if_pos many).trans ?_)
  exact congrArg _ (if_neg (ne_true_of_eq_false runs))

end

/-! ## The rules -/

theorem ethRules_happen (port flow eid k : Nat) (f : EthFrame) (y : Flow) (x : TxFlow) (n i : Nat) (u : SentFrame) (tmpl : List Byte) :
    Happen (ethRules port flow eid k f y x n i u tmpl) := by
  have named : ∀ {s : State}, (frameOk port f 0 = true ∧ s.streamOfFlow 6 f.srcIp f.dstIp (hdrFlow f.header) = some (eid, k) ∧
      k < (s.elem eid).streams.length ∧ port < s.eth.length) → Named s port eid k f :=
    fun ⟨valid, stream, known, port⟩ => ⟨valid, stream, known, port⟩
  have due : ∀ {s : State}, (s.template eid k = some tmpl ∧ s.txFlow (templateKey tmpl) = x ∧ (s.elem eid).inst.isSome = true ∧
      x.unacked ≠ [] ∧ x.lastAck + 100000 ≤ s.now) → FlowDue s eid k x tmpl :=
    fun ⟨template, flow, bound, waits, late⟩ => ⟨template, flow, bound, waits, late⟩
  refine .cons (becomes_holds fun s h => ethFrameRx_invalid h) <| .cons (becomes_holds fun s h => ethFrameRx_unnamed h.1 h.2) <|
    .cons (fun s h => ?owes) <| .cons (fun s h => ?acks) <| .cons (fun s h => ?discards) <| .cons (becomes_holds fun s h => ?ackSend) <|
    .cons (becomes_holds fun s h => ethAckRx_invalid h) <| .cons (becomes_holds fun s h => ethAckRx_unnamed h.1 h.2) <|
    .cons (fun s h => ?ackRx) <| .cons (fun s h => ?again) <| .cons (fun s h => ?fails) .nil
  case owes =>
    obtain ⟨hn, takes, few⟩ := h
    exact ethFrameRx_owes (named hn) takes few
  case acks =>
    obtain ⟨hn, takes, only, same, owed⟩ := h
    exact ethFrameRx_acks (named hn) takes only same owed
  case discards =>
    obtain ⟨hn, not⟩ := h
    exact ⟨_, ethFrameRx_discards (named hn) not, countFlow_rest s eid k _,
      countFlow_counts (f := fun c => { c with discarded := c.discarded + 1 }) (fun _ => ⟨rfl, rfl⟩) s⟩
  case ackSend =>
    obtain ⟨hy, owed⟩ := h
    exact congrArg Host.Outcome.next (sendAck_owing hy owed)
  case ackRx =>
    obtain ⟨hf, hs, hx, hu, seq, first⟩ := h
    obtain ⟨only, all⟩ := ackFrames_answers (x.unacked.take (n + 1))
      (s.setTxFlow { x with unacked := x.unacked.drop (n + 1), lastAck := s.now, resends := 0 })
    refine ⟨_, ethAckRx_frees hf hs hx hu seq first, fun key => ?_, ?_, only.elem, all⟩
    · rw [State.txFlow, congrArg State.txFlows only.rest]
      exact txFlow_setTxFlow s { x with unacked := x.unacked.drop (n + 1), lastAck := s.now, resends := 0 } key
    · rw [only.rest]
      rfl
  case again =>
    obtain ⟨hd, few⟩ := h
    exact ⟨_, ethResend_again (due hd) few, txFlow_setTxFlow _ _, rfl⟩
  case fails =>
    obtain ⟨hd, many, head, hi, at_, run⟩ := h
    refine ⟨_, ethResend_fails (due hd) many head hi at_ run, ?_, fun e he => takePortFault_others _ _ _ _ _ he, ?_⟩
    · rw [takePortFault_rest]
      rfl
    · exact portFault_of_same (u := s.setTxFlow { x with lastAck := s.now, resends := 0 }) at_ rfl (36 + u.port) cETHERNET []

/-! # The obligation -/

/-- Settles O44: the events of the Aqric ports, then those of the Ethernet ports. -/
theorem linkEvents : Obligations.LinkEvents := ⟨aqricRules_happen, ethRules_happen⟩

end Sys2Proof.Claims
end

section
namespace Sys2Proof.Claims
open Sys2Proof.Machine

/-! # A refused access to the bank of another tile (R302) -/

namespace RefusedAtomic

/-- The firing of an SE that waits for the answer of its remote atomic. -/
def firing : Firing :=
  { seq := 7, slot := 0, word := 0, a := ⟨Lanes.empty, none⟩, b := ⟨Lanes.empty, none⟩, c := ⟨Lanes.empty, none⟩, deqd := [],
    oldPd := .no, entry := some 5, extra := [], moved := none, fault := none, remaining := 0 }

/-- Its operation asks for old values, at scope 0. -/
def op : MemOp :=
  { id := 7, firing, inst := 0, eid := 16, port := 4, entry := some 5, scope := 0, result := .old, data := [], lanes := Lanes.empty,
    poison := false, refused := false, all := [], mmio := false }

/-- One access of the operation stands before the SRAM of tile 0, the other before its home in HBM, so that it has performed at scope 0. -/
def atTile : Access := ⟨1, 7, 16, 4, 0, .atomic 0 [] false, .sram 0 0, .track⟩
def atHbm : Access := ⟨2, 7, 16, 4, 0, .atomic 0 [] false, .hbm 0, .track⟩

/-- The entry that waits. -/
def entry : Answer := ⟨5, 0, 0, false, none⟩

/-- The tile is gated, so that it refuses the access. -/
def start : State :=
  { State.reset with
    accs := [(1, atTile), (2, atHbm)], ops := [(7, op)], elems := [(16, { Element.reset with ans := [entry] })],
    tiles := [(0, { Tile.reset with gate := .gated })], track := [⟨9, 0, 0, .access 1⟩] }

/-- The answer buffer of the element after an event. -/
def answersAfter : Res → List Answer
  | .next t => (t.elem 16).ans
  | _ => []

/-- The operation has an access left, so the refused one gives no answer. -/
theorem no_answer : answersAfter (exec (.homeEvent 1) start) = [entry] := rfl

theorem here : Waiting start 1 atTile op (.sram 0 0) := ⟨rfl, rfl, rfl, rfl, rfl, rfl⟩

theorem closed : (start.tile 0).gate ≠ .powered := by decide

/-- Every other access of the operation has performed at its scope. -/
theorem last : LastOf start 1 atTile op true := by
  intro x hx _
  simp only [start, List.mem_cons, List.not_mem_nil, or_false] at hx
  obtain rfl | rfl := hx
  · exact .inl rfl
  · exact .inr ⟨rfl, rfl⟩

end RefusedAtomic

open RefusedAtomic in
/-- Refutes O43: the third of the rules of accesses at another tile's bank wants a NULL answer for a refused access whose operation has
else only accesses that have performed at its scope. An operation that asks for old values answers with its last access (R301), so while
another one is on its way, though performed at scope 0, the refused one gives no answer. -/
theorem not_memoryEvents : ¬ Obligations.MemoryEvents := by
  unfold Obligations.MemoryEvents
  rintro ⟨-, -, -, -, -, remote, -⟩
  have refused := remote 1 atTile op 0 0 0 [] 0 [] false _ (List.mem_of_getElem? (i := 2) rfl) start
    ⟨here, fun h => closed h.1, rfl, rfl⟩
  obtain ⟨t, ht, -, answered⟩ := refused
  have ans : (t.elem 16).ans = [entry] := by
    have := no_answer
    rwa [show exec (.homeEvent 1) start = .next t from ht] at this
  have mem := answered 5 last rfl entry (List.mem_singleton_self _) rfl rfl
  rw [show op.eid = 16 from rfl, ans] at mem
  simp [entry] at mem

end Sys2Proof.Claims
end

section
namespace Sys2Proof.Claims
open Sys2Proof.Machine

/-! # A resume whose context is shorter than its region (R102) -/

namespace ShortContext

/-- A task with indices to issue, and its launch. -/
def task : Task := { va := 0, gw := { ttCount := 4 } }

def launch : Launch :=
  { vf := 0, part := 0, root := 0, override := none, urgentOk := false, autorelease := false, seq := 0, since := 0, order := 0,
    walked := true, stopped := false, tasks := [task] }

/-- What the context was saved from, in a region of one tile, and what commits there again. -/
def before : Inst := freshInst 5 0 0 launch task (0, 0, 0)

def inst : Inst := { before with phase := .commit, ctx := some 3 }

/-- A context that holds no element of the region. -/
def context : Context :=
  { inst := before, elements := [], tiles := [], length := 64, time := 0, unit0 := 0, units := 1, bad := false, farOut := false }

/-- The firing that issued a load before the cut. -/
def firing : Firing :=
  { seq := 9, slot := 0, word := 0, a := ⟨Lanes.empty, none⟩, b := ⟨Lanes.empty, none⟩, c := ⟨Lanes.empty, none⟩, deqd := [],
    oldPd := .no, entry := none, extra := [], moved := none, fault := none, remaining := 0 }

/-- The load, which the cut kept for re-issue: its address is beyond the address space (R157). -/
def load : MemOp :=
  { id := 9, firing, inst := 7, eid := 0, port := 0, entry := none, scope := 0, result := .data 0 [(0, 0)], data := [], lanes := Lanes.empty,
    poison := false, refused := false, all := [(2 ^ 49, .load 0 4)], mmio := false }

/-- The commit of 7 is due, and element 0 of its tile keeps the load. -/
def start : State :=
  { State.reset with
    subject := (7, 0), launches := [(5, launch)], insts := [(7, inst)], contexts := [(3, context)],
    elems := [(0, { Element.reset with inst := some 7, reissue := [load] })] }

/-- How many faults one of the instances has left for the Starter after an event. -/
def faultsAfter (i : Nat) : Res → Option Nat
  | .next t => (t.insts.find i).map (fun x => x.faults.length)
  | _ => none

/-- The event issues the load again; its address faults, and the fault is left for the Starter. -/
theorem one_fault : faultsAfter 7 (exec .commitDone start) = some 1 := by decide +kernel

theorem concerns : Concerns start 7 inst task := ⟨rfl, rfl, rfl⟩

theorem distinct : inst.elems.Nodup ∧ inst.tiles.Nodup := by decide +kernel

end ShortContext

open ShortContext in
/-- Refutes O48: the second of the rules of COMMIT_DONE asks only of the elements that the context holds that none keeps a load, and wants
no fault more than before. Where the context holds fewer elements than the region, the commit issues the load of another element of the
region again (R102), and a load beyond the address space leaves a fault for the Starter (R157). -/
theorem not_instanceEvents : ¬ Obligations.InstanceEvents := by
  unfold Obligations.InstanceEvents
  rintro ⟨-, -, commits, -⟩
  obtain ⟨elems, tiles⟩ := distinct
  obtain ⟨t, ht, found, -⟩ := commits 7 inst task 3 context _ (List.mem_of_getElem? (i := 1) rfl) start
    ⟨concerns, rfl, rfl, rfl, rfl, rfl, rfl, elems, tiles, by decide, rfl, .inr (by decide), fun _ h => nomatch h⟩
  have counted := one_fault
  rw [show exec .commitDone start = .next t from ht, faultsAfter, found] at counted
  exact absurd counted (by decide)

end Sys2Proof.Claims
end

section
namespace Sys2Proof.Machine

/-! # What the end of one of the instances leaves as it is -/

/-- HBM, the instances, and of each element its state and where it belongs stay. -/
structure Quiet (s t : State) : Prop where
  hbm : t.hbm = s.hbm
  insts : t.insts = s.insts
  state : ∀ e, (t.elem e).state = (s.elem e).state
  inst : ∀ e, (t.elem e).inst = (s.elem e).inst

theorem Quiet.of_elems {s t : State} (hbm : t.hbm = s.hbm) (insts : t.insts = s.insts) (elems : t.elems = s.elems) : Quiet s t :=
  ⟨hbm, insts, fun e => by rw [State.elem_congr elems], fun e => by rw [State.elem_congr elems]⟩

theorem Quiet.refl (s : State) : Quiet s s := .of_elems rfl rfl rfl

theorem Quiet.trans {s t u : State} (h : Quiet s t) (k : Quiet t u) : Quiet s u :=
  ⟨k.hbm.trans h.hbm, k.insts.trans h.insts, fun e => (k.state e).trans (h.state e), fun e => (k.inst e).trans (h.inst e)⟩

theorem AnswersOnly.quiet {s t : State} (h : AnswersOnly s t) : Quiet s t :=
  ⟨by rw [h.rest], by rw [h.rest], fun e => by rw [h.elem], fun e => by rw [h.elem]⟩

/-- Steps that each leave all that as it is leave it together. -/
theorem Quiet.foldl {α : Type} {step : State → α → State} {s t : State} (h : Quiet s t) (l : List α)
    (one : ∀ s a, Quiet s (step s a)) : Quiet s (l.foldl step t) :=
  List.foldlRecOn (motive := fun u => Quiet s u) l step h fun u hu a _ => hu.trans (one u a)

theorem modElem_quiet {s : State} {n : Nat} {f : Element → Element} (state : (f (s.elem n)).state = (s.elem n).state)
    (inst : (f (s.elem n)).inst = (s.elem n).inst) : Quiet s (s.modElem n f) := by
  refine ⟨rfl, rfl, fun e => ?_, fun e => ?_⟩ <;> rw [State.elem_modElem] <;> split
  · subst e; exact state
  · rfl
  · subst e; exact inst
  · rfl

/-! ## Messages and answers (R41 to R43, R60) -/

theorem accept_quiet (s : State) (m : Am) : Quiet s (s.accept m) := by
  unfold State.accept
  split
  · unfold State.answerSend
    split
    · exact .refl s
    · exact (giveAnswer_only ..).quiet
  · exact .of_elems rfl rfl rfl
  · exact .refl s

theorem sendAm_quiet (s : State) (v : Nat) (amop : BitVec 8) (operand : Word) (cont : DWord) (sender : Option (Nat × Option Nat)) :
    Quiet s (s.sendAm v amop operand cont sender) := .of_elems rfl rfl rfl

theorem settleOrders_quiet (s : State) (v : Nat) : Quiet s (s.settleOrders v) := by
  unfold State.settleOrders
  dsimp only
  split
  · exact .refl s
  · refine .foldl ?_ _ fun s q => ?_
    · exact .of_elems rfl rfl rfl
    · exact (accept_quiet s q.am).trans (sendAm_quiet ..)

theorem policySettle_quiet (s : State) (p : Nat) : Quiet s (s.policySettle p) := by
  unfold State.policySettle
  dsimp only
  split
  · refine .foldl ?_ _ fun s q => ?_
    · exact .of_elems rfl rfl rfl
    · exact (sendAm_quiet ..).trans (settleOrders_quiet ..)
  · exact .refl s

/-! ## Records for the operator (R53 to R55) -/

theorem rateCap_quiet (s : State) (p cls : Nat) (e : ClassEntry) : Quiet s (s.rateCap p cls e).2 := by
  unfold State.rateCap
  dsimp only
  split <;> exact .of_elems rfl rfl rfl

theorem handOver_quiet (s : State) (r : OperRecord) : Quiet s (s.handOver r) := .of_elems rfl rfl rfl

theorem produceFor_quiet (s : State) (p cls : Nat) (b : List Byte) (type time : Nat) (q : Option Nat) (fields : List Field) :
    Quiet s (s.produceFor p cls b type time q fields) := by
  have cap := rateCap_quiet s p cls (policyEntry b cls)
  have floor (u : State) : Quiet u (match q with
      | some k => u.floorRecord p cls type (clearLow time k) (fields.filterMap (·.floor))
      | none => u) := by
    cases q
    · exact .refl u
    · exact handOver_quiet ..
  unfold State.produceFor
  dsimp only
  split
  · exact floor s
  · split
    · rename_i u hu
      rw [hu] at cap
      exact cap.trans (floor u)
    · rename_i u hu
      rw [hu] at cap
      exact cap.trans (handOver_quiet ..)

theorem schedInst_quiet (s : State) (k : SchedEvent) (x : Inst) : Quiet s (s.schedInst k x) := by
  unfold State.schedInst State.sched State.operate
  exact produceFor_quiet ..

/-! ## A cluster that joins its partition (R104, R106) -/

theorem decide_quiet (s : State) (p : Nat) : Quiet s (s.decide p) := .of_elems rfl rfl rfl

theorem forgetTile_quiet (s : State) (n : Nat) : Quiet s (s.forgetTile n) := by
  unfold State.forgetTile
  refine .foldl ?_ _ fun s e => ?_
  · exact .of_elems rfl rfl rfl
  · split
    · exact modElem_quiet rfl rfl
    · exact .refl s

theorem joinPartition_quiet (s : State) (g : Nat) : Quiet s (s.joinPartition g) := by
  unfold State.joinPartition
  split
  · exact .refl s
  · have forgot : Quiet s ((clusterTiles g).foldl State.forgetTile (s.modCluster g (fun c => { c with old := none }))) := by
      refine .foldl ?_ _ forgetTile_quiet
      exact .of_elems rfl rfl rfl
    generalize (clusterTiles g).foldl State.forgetTile (s.modCluster g (fun c => { c with old := none })) = u at forgot ⊢
    dsimp only
    split
    · exact forgot.trans (decide_quiet ..)
    · exact forgot

/-- What is no more bound leaves the table of instances; the rest stays. -/
theorem dropInst_quiet (s : State) (i : Nat) (x : Inst) : Quiet { s with insts := s.insts.drop i } (s.dropInst i x) :=
  (decide_quiet { s with insts := s.insts.drop i } x.part).trans ((policySettle_quiet ..).trans (joinPartition_quiet ..))

/-! # Tiles that their last element leaves (R79, R81, R84) -/

/-- No token is left in the endpoint buffers of a tile. -/
def Tile.drained (x : Tile) : Prop := ∀ b ∈ x.epBuf, b = []

/-- A tile without tokens in its endpoint buffers is left alone. -/
theorem leaveTile_drained {s : State} {n : Nat} (h : (s.tile n).drained) (r : Option Retained) :
    ∃ y, s.leaveTile n r = s.setTile n y ∧ y.drained := by
  have left : (((s.tile n).epBuf.mapIdx (fun ch l => l.map (fun f => (ch, f)))).flatten) = [] := by
    rw [List.flatten_eq_nil_iff]
    intro l hl
    obtain ⟨k, hk, rfl⟩ := List.mem_mapIdx.1 hl
    rw [h _ (List.getElem_mem hk), List.map_nil]
  simp only [State.leaveTile, left, List.foldl_nil, State.modTile]
  exact ⟨_, rfl, fun b hb => List.eq_of_mem_replicate (n := 16) hb⟩

theorem setTile_drained {s : State} {n k : Nat} {y : Tile} (hy : y.drained) (h : (s.tile k).drained) :
    ((s.setTile n y).tile k).drained := by
  by_cases hk : k = n
  · subst k; rwa [State.tile_setTile_self]
  · rwa [State.tile_setTile_ne _ _ hk]

theorem modInst_of_find {s : State} {i : Nat} {x : Inst} (h : s.insts.find i = some x) (f : Inst → Inst) :
    s.modInst i f = { s with insts := s.insts.put i (f x) } := by
  rw [State.modInst, h]

/-- Tiles left one by one: they are noted as gone, and nothing but tiles and that changes. -/
theorem leaveTiles_drained {i : Nat} (tileNo : Nat → Nat) (r : Nat → Option Retained) (l : List Nat) {s : State} {x : Inst}
    (found : s.insts.find i = some x) (empty : ∀ k ∈ l, (s.tile (tileNo k)).drained) :
    ∃ t, l.foldl (fun (s : State) k => (s.leaveTile (tileNo k) (r (tileNo k))).modInst i (fun y => { y with gone := y.gone ++ [k] })) s = t ∧
      t = { s with tiles := t.tiles, insts := t.insts } ∧ t.insts.find i = some { x with gone := x.gone ++ l } := by
  induction l generalizing s x with
  | nil => exact ⟨s, rfl, rfl, by rw [found, List.append_nil]⟩
  | cons k l ih =>
    obtain ⟨here, later⟩ := List.forall_mem_cons.1 empty
    obtain ⟨y, left, hy⟩ := leaveTile_drained here (r (tileNo k))
    have found' : (s.setTile (tileNo k) y).insts.find i = some x := found
    rw [List.foldl_cons, left, modInst_of_find found']
    obtain ⟨t, ht, rest, gone⟩ := ih (s := { s.setTile (tileNo k) y with insts := s.insts.put i { x with gone := x.gone ++ [k] } })
      (NMap.find_put_self ..) (fun j hj => setTile_drained hy (later j hj))
    refine ⟨t, ht, rest, ?_⟩
    rw [gone, List.append_assoc]
    rfl

/-- No tile is left while each holds an element that still belongs. -/
theorem freeTiles_held {s : State} {i : Nat} {x : Inst} (found : s.insts.find i = some x)
    (held : ∀ n ∈ x.tiles, ∃ e ∈ tileElems n, (s.elem e).inst = some i) : s.freeTiles i = s := by
  have none_ : (List.range (x.w * x.h)).filter (fun k =>
      !x.gone.contains k && (tileElems (x.tileNo k)).all (fun e => (s.elem e).inst != some i)) = [] := by
    rw [List.filter_eq_nil_iff]
    intro k hk both
    obtain ⟨stays, free⟩ := Bool.and_eq_true_iff.1 both
    obtain ⟨e, he, mine⟩ := held _ (List.mem_map_of_mem (List.mem_filter.2 ⟨hk, stays⟩))
    simpa [mine] using List.all_eq_true.1 free e he
  simp only [State.freeTiles, found, none_, List.foldl_nil]

/-- Once no element belongs any more, every tile is left. -/
theorem freeTiles_all {s : State} {i : Nat} {x : Inst} (found : s.insts.find i = some x)
    (free : ∀ e ∈ x.elems, (s.elem e).inst ≠ some i) (empty : ∀ n ∈ x.tiles, (s.tile n).drained) :
    ∃ t y, s.freeTiles i = t ∧ t = { s with tiles := t.tiles, insts := t.insts } ∧ t.insts.find i = some y ∧ y.tiles = [] ∧
      y.boundary = x.boundary := by
  have all : (List.range (x.w * x.h)).filter (fun k =>
      !x.gone.contains k && (tileElems (x.tileNo k)).all (fun e => (s.elem e).inst != some i)) =
      (List.range (x.w * x.h)).filter (fun k => !x.gone.contains k) := by
    refine List.filter_congr fun k hk => ?_
    by_cases stays : (!x.gone.contains k) = true
    · have : (tileElems (x.tileNo k)).all (fun e => (s.elem e).inst != some i) = true := List.all_eq_true.2 fun e he => by
        have mem : e ∈ x.elems := List.mem_flatMap.2 ⟨_, List.mem_map_of_mem (List.mem_filter.2 ⟨hk, stays⟩), he⟩
        simpa using free e mem
      rw [this, Bool.and_true]
    · rw [Bool.eq_false_of_not_eq_true stays, Bool.false_and]
  obtain ⟨t, ht, rest, gone⟩ := leaveTiles_drained x.tileNo x.retain _ found
    (fun k hk => empty _ (List.mem_map_of_mem (l := (List.range (x.w * x.h)).filter (fun k => !x.gone.contains k)) hk))
  refine ⟨t, _, ?_, rest, gone, ?_, rfl⟩
  · simp only [State.freeTiles, found, all]
    exact ht
  · have none_ : (List.range (x.w * x.h)).filter (fun k => !(x.gone ++ (List.range (x.w * x.h)).filter
        (fun k => !x.gone.contains k)).contains k) = [] := by
      rw [List.filter_eq_nil_iff]
      intro k hk
      by_cases stays : k ∈ x.gone <;> simp [stays, List.mem_range.1 hk]
    simp only [Inst.tiles, none_, List.map_nil]

/-- Once the last tile is left, the entry is gone from the instances, and the rest stays. -/
theorem endTeardown_last {s : State} {i : Nat} {x : Inst} (found : s.insts.find i = some x) (tiles : x.tiles = [])
    (boundary : x.boundary = false) : Quiet { s with insts := s.insts.drop i } (s.endTeardown i) := by
  have last : s.endTeardown i = (s.dropInst i x).schedInst .retire x := by
    simp only [State.endTeardown, found, tiles, boundary]
    rfl
  rw [last]
  exact (dropInst_quiet ..).trans (schedInst_quiet ..)

theorem endTeardown_held {s : State} {i : Nat} {x : Inst} (found : s.insts.find i = some x) (tiles : x.tiles ≠ []) :
    s.endTeardown i = s := by
  simp [State.endTeardown, found, tiles]

/-! # A fault of a live token (R84, R218, R223) -/

theorem freed_kept (e : Element) (srd q : Nat) : e.freed srd q = { e with iqHold := (e.freed srd q).iqHold } := by
  unfold Element.freed
  split <;> rfl

end Sys2Proof.Machine

namespace Sys2Proof.Claims
open Sys2Proof.Machine

/-- An element that takes a fault enters FAULTED and keeps the rest; the record is left for the Starter. -/
theorem takeFault_faulted {s : State} {eid i : Nat} (h : (s.elem eid).inst = some i) (family code : Nat) (tokens : List TokEntry) :
    let t := s.takeFault eid family code 0 none 0 tokens
    t.elem eid = { s.elem eid with state := .faulted } ∧ Faulted s t eid i family code tokens := by
  have fault : s.takeFault eid family code 0 none 0 tokens = (s.setElem eid { s.elem eid with state := .faulted }).produce i (0, eid)
      family code none 0 (s.elem eid).headsWord tokens 0 := by
    simp only [State.takeFault, h]
  have elem : (s.takeFault eid family code 0 none 0 tokens).elem eid = { s.elem eid with state := .faulted } := by
    rw [fault, produce_rest]
    exact State.elem_setElem_self ..
  refine ⟨elem, congrArg Element.state elem, fun x hx => ?_⟩
  rw [fault]
  have hx' : ((s.setElem eid { s.elem eid with state := .faulted }).takeSeq 0 eid x.part).2.insts.find i = some x := hx
  simp only [State.produce, State.setElem_insts, hx, State.modInst, hx', NMap.find_put_self]
  exact ⟨_, rfl, rfl, rfl, rfl, rfl, rfl, rfl, rfl⟩

/-! # FINISH_ARRIVAL (R83, R84, R121) -/

/-- The element once FINISH at the head of an input is dequeued. -/
def stopped (s : State) (eid q : Nat) : Element :=
  { s.elem eid with
    state := .stopping, iq := upd (s.elem eid).iq q (·.drop 1), finDeq := (s.elem eid).finDeq ||| BitVec.ofNat 4 (2 ^ q) }.freed
    (s.cluster (clusterOf (tileOf eid))).srdNow q

/-- FINISH at the head of an input of an element that takes it. -/
structure FinishHeads (s : State) (eid q : Nat) (tok : Token) (l : List Token) : Prop where
  queue : nth (s.elem eid).iq q [] = tok :: l
  tag : tok.tag = 0xF
  takes : (s.elem eid).state = .run ∨ (s.elem eid).state = .stopping

section
variable {s : State} {eid q : Nat} {tok : Token} {l : List Token}

/-- It is dequeued, and what is alive in the queues then faults. -/
theorem finishArrival_eq (h : FinishHeads s eid q tok l) :
    exec (.finishArrival eid q) s = .next ((s.setElem eid (stopped s eid q)).checkLive eid) := by
  have head : (s.elem eid).head? q = some tok := by rw [Element.head?, h.queue, List.head?_cons]
  have takes : (!((s.elem eid).state == .run || (s.elem eid).state == .stopping)) = false := by
    rcases h.takes with h | h <;> rw [h] <;> rfl
  have tag : ¬tok.tag ≠ tagFinish := not_not_intro h.tag
  simp only [exec, execFinishArrival, head, if_neg tag, takes]
  rfl

theorem stopped_state : (stopped s eid q).state = .stopping := by rw [stopped, freed_kept]
theorem stopped_iq : (stopped s eid q).iq = upd (s.elem eid).iq q (·.drop 1) := by rw [stopped, freed_kept]
theorem stopped_inst : (stopped s eid q).inst = (s.elem eid).inst := by rw [stopped, freed_kept]

theorem finishArrival_stops (h : FinishHeads s eid q tok l) (none_ : (stopped s eid q).liveTokens eid = []) :
    exec (.finishArrival eid q) s = .next (s.setElem eid (stopped s eid q)) := by
  rw [finishArrival_eq h, State.checkLive]
  simp only [State.elem_setElem_self, none_, List.isEmpty_nil, Bool.not_true, Bool.and_false, Bool.false_eq_true, if_false]

theorem finishArrival_live {i : Nat} (h : FinishHeads s eid q tok l) (live : (stopped s eid q).liveTokens eid ≠ [])
    (inst : (s.elem eid).inst = some i) : ∃ t, exec (.finishArrival eid q) s = .next t ∧
      Faulted s t eid i 4 2 ((stopped s eid q).liveTokens eid) ∧ (t.elem eid).iq = upd (s.elem eid).iq q (·.drop 1) := by
  have bound : ((s.setElem eid (stopped s eid q)).elem eid).inst = some i := by rw [State.elem_setElem_self, stopped_inst, inst]
  obtain ⟨elem, faulted⟩ := takeFault_faulted bound fSTREAM cFINISHLIVE ((stopped s eid q).liveTokens eid)
  refine ⟨_, ?_, faulted, ?_⟩
  · rw [finishArrival_eq h, State.checkLive]
    simp [stopped_state, live]
  · rw [elem, State.elem_setElem_self]
    exact stopped_iq

end

/-! # FINISH_FORWARD (R83) -/

/-- The bits of a mask of queues are the queues in it. -/
theorem queueMask_getLsbD (l : List Nat) {n : Nat} (h : n < 4) : (queueMask l).getLsbD n = l.contains n := by
  have bits : ∀ a b c d : Bool, ∀ k < 4, (BitVec.ofNat 4 (total ((List.range 4).map
      (fun q => if (fun q => [a, b, c, d].getD q false) q then 2 ^ q else 0)))).getLsbD k = [a, b, c, d].getD k false := by decide
  have := bits (l.contains 0) (l.contains 1) (l.contains 2) (l.contains 3) n h
  have cases_ : n = 0 ∨ n = 1 ∨ n = 2 ∨ n = 3 := by omega
  rcases cases_ with rfl | rfl | rfl | rfl <;> exact this

/-- The output queues that FINISH enters now, and those that it need not enter. -/
def entering (s : State) (eid : Nat) : List Nat :=
  (List.range 4).filter (fun n => finishDue s eid n && finishInside s eid n && decide ((nth (s.elem eid).oq n []).length < 2))
def skipped (s : State) (eid : Nat) : List Nat := (List.range 4).filter (fun n => finishDue s eid n && !finishInside s eid n)

/-- The element once FINISH has entered them. -/
def forwarded (s : State) (eid : Nat) : Element :=
  { s.elem eid with
    oq := (s.elem eid).oq.mapIdx (fun q l => if (entering s eid).contains q then l ++ [finishToken] else l),
    finSent := (s.elem eid).finSent ||| queueMask (entering s eid ++ skipped s eid) }

section
variable {s : State} {eid : Nat}

theorem finishForward_eq (state : (s.elem eid).state = .stopping) (inflight : (s.elem eid).inflight = []) (ans : (s.elem eid).ans = []) :
    exec (.finishForward eid) s = .next (s.setElem eid (forwarded s eid)) := by
  have enters : (((List.range 4).filter (finishDue s eid)).filter (finishInside s eid)).filter
      (fun q => (nth (s.elem eid).oq q []).length < 2) = entering s eid := by
    rw [List.filter_filter, List.filter_filter, entering]
    exact List.filter_congr fun q _ => by rw [Bool.and_comm, Bool.and_comm (decide _), Bool.and_assoc]
  have skips : ((List.range 4).filter (finishDue s eid)).filter (not ∘ finishInside s eid) = skipped s eid := by
    rw [List.filter_filter, skipped]
    exact List.filter_congr fun q _ => Bool.and_comm ..
  have out : s.finishOut eid (s.elem eid) = (((List.range 4).filter (finishDue s eid)).filter (finishInside s eid),
      ((List.range 4).filter (finishDue s eid)).filter (not ∘ finishInside s eid)) := List.partition_eq_filter_filter ..
  have goes : ((s.elem eid).state != .stopping || !(s.elem eid).inflight.isEmpty || !(s.elem eid).ans.isEmpty) = false := by
    simp [state, inflight, ans]
  simp only [exec, execFinishForward, goes, out, enters, skips]
  rfl

theorem entering_contains {n : Nat} (h : n < 4) : (entering s eid).contains n =
    (finishDue s eid n && finishInside s eid n && decide ((nth (s.elem eid).oq n []).length < 2)) := by
  rw [Bool.eq_iff_iff, List.contains_iff_mem, entering, List.mem_filter, List.mem_range]
  exact and_iff_right h

theorem skipped_contains {n : Nat} (h : n < 4) :
    (skipped s eid).contains n = (finishDue s eid n && !finishInside s eid n) := by
  rw [Bool.eq_iff_iff, List.contains_iff_mem, skipped, List.mem_filter, List.mem_range]
  exact and_iff_right h

theorem forwarded_oq {n : Nat} (h : n < (s.elem eid).oq.length) : nth (forwarded s eid).oq n [] =
    nth (s.elem eid).oq n [] ++ (if (entering s eid).contains n then [finishToken] else []) := by
  simp only [forwarded, nth, List.getElem?_mapIdx, List.getElem?_eq_getElem h, Option.map_some, Option.getD_some]
  split
  · rfl
  · rw [List.append_nil]

theorem forwarded_finSent {n : Nat} (h : n < 4) : (forwarded s eid).finSent.getLsbD n =
    ((s.elem eid).finSent.getLsbD n || (entering s eid).contains n || (skipped s eid).contains n) := by
  rw [forwarded, BitVec.getLsbD_or, queueMask_getLsbD _ h, List.contains_append, Bool.or_assoc]

end

/-! # ELEMENT_FREED (R79, R83) -/

/-- FINISH has gone through an element that belongs to `i`, and nothing is under way in it. -/
structure Finished (s : State) (eid i : Nat) : Prop where
  inst : (s.elem eid).inst = some i
  state : (s.elem eid).state = .stopping
  dequeued : ∀ n < 4, (s.elem eid).finNeed.getLsbD n = true → (s.elem eid).finDeq.getLsbD n = true
  sent : ∀ n < 4, (s.elem eid).bank.routesOf n ≠ [] → (s.elem eid).finSent.getLsbD n = true
  inflight : (s.elem eid).inflight = []
  ans : (s.elem eid).ans = []
  inputs : ∀ n ∈ (s.elem eid).iq, n = []
  outputs : ∀ n ∈ (s.elem eid).oq, n = []
  buffers : ∀ n ∈ (s.elem eid).rb, n = none
  idle : s.elemBusy eid = false

/-- The element is unoccupied and retains its bank. -/
def unoccupied (s : State) (eid i : Nat) : State :=
  s.setElem eid { Element.resetOf (elemType eid) with
    staged := .retained (((s.insts.find i).map (·.hash)).getD 0) (s.elem eid).bank }

section
variable {s : State} {eid i : Nat} {x : Inst}

theorem elementFreed_eq (h : Finished s eid i) :
    exec (.elementFreed eid) s = .next (((unoccupied s eid i).freeTiles i).endTeardown i) := by
  have dequeued : (s.elem eid).finNeed &&& ~~~(s.elem eid).finDeq = 0 := by
    refine BitVec.eq_of_getLsbD_eq fun n hn => ?_
    have := h.dequeued n hn
    cases hd : (s.elem eid).finNeed.getLsbD n <;> simp_all
  have sent : (List.range 4).all (fun q => ((s.elem eid).bank.routesOf q).isEmpty || (s.elem eid).finSent.getLsbD q) = true := by
    refine List.all_eq_true.2 fun q hq => ?_
    by_cases none_ : (s.elem eid).bank.routesOf q = []
    · rw [none_]; rfl
    · rw [h.sent q (List.mem_range.1 hq) none_, Bool.or_true]
  have inputs : (s.elem eid).iq.any (!·.isEmpty) = false := List.any_eq_false.2 fun n hn => by simp [h.inputs n hn]
  have outputs : (s.elem eid).oq.any (!·.isEmpty) = false := List.any_eq_false.2 fun n hn => by simp [h.outputs n hn]
  have buffers : (s.elem eid).rb.any (·.isSome) = false := List.any_eq_false.2 fun n hn => by simp [h.buffers n hn]
  simp only [exec, execElementFreed, h.inst, h.state, dequeued, sent, h.inflight, h.ans, inputs, outputs, buffers, h.idle]
  rfl

theorem unoccupied_elem_ne {e : Nat} (h : e ≠ eid) : (unoccupied s eid i).elem e = s.elem e := State.elem_setElem_ne _ _ h

theorem unoccupied_free : ((unoccupied s eid i).elem eid).inst = none ∧ ((unoccupied s eid i).elem eid).state = .unoccupied := by
  rw [unoccupied, State.elem_setElem_self]
  exact ⟨rfl, rfl⟩

/-- While each tile holds another element that belongs, only the element changes. -/
theorem elementFreed_held (h : Finished s eid i) (found : s.insts.find i = some x) (tiles : x.tiles ≠ [])
    (held : ∀ n ∈ x.tiles, ∃ e ∈ tileElems n, e ≠ eid ∧ (s.elem e).inst = some i) :
    exec (.elementFreed eid) s = .next (unoccupied s eid i) := by
  have held' : ∀ n ∈ x.tiles, ∃ e ∈ tileElems n, ((unoccupied s eid i).elem e).inst = some i := fun n hn => by
    obtain ⟨e, he, ne, mine⟩ := held n hn
    exact ⟨e, he, by rw [unoccupied_elem_ne ne, mine]⟩
  have found' : (unoccupied s eid i).insts.find i = some x := found
  rw [elementFreed_eq h, freeTiles_held found' held', endTeardown_held found' tiles]

/-- With the last element the entry is gone from the instances. -/
theorem elementFreed_last (h : Finished s eid i) (found : s.insts.find i = some x) (boundary : x.boundary = false)
    (others : ∀ e ∈ x.elems, e ≠ eid → (s.elem e).inst ≠ some i) (empty : ∀ n ∈ x.tiles, ∀ b ∈ (s.tile n).epBuf, b = []) :
    ∃ t, exec (.elementFreed eid) s = .next t ∧
      t.insts.find i = none ∧ (t.elem eid).state = .unoccupied ∧ (t.elem eid).inst = none ∧ t.hbm = s.hbm := by
  obtain ⟨inst, state⟩ := unoccupied_free (s := s) (eid := eid) (i := i)
  have free : ∀ e ∈ x.elems, ((unoccupied s eid i).elem e).inst ≠ some i := fun e he => by
    by_cases same : e = eid
    · subst same; rw [inst]; exact Option.some_ne_none i |>.symm
    · rw [unoccupied_elem_ne same]; exact others e he same
  obtain ⟨u, y, hu, rest, found', tiles, kept⟩ := freeTiles_all (s := unoccupied s eid i) found free empty
  have elem : u.elem eid = (unoccupied s eid i).elem eid := State.elem_congr (by rw [rest]) eid
  have quiet := endTeardown_last found' tiles (kept.trans boundary)
  refine ⟨_, by rw [elementFreed_eq h, hu], ?_, ?_, ?_, ?_⟩
  · rw [quiet.insts]
    exact NMap.find_drop_self ..
  · rw [quiet.state]
    exact (congrArg Element.state elem).trans state
  · rw [quiet.inst]
    exact (congrArg Element.inst elem).trans inst
  · rw [quiet.hbm, rest]
    rfl

end

/-! # The obligation -/

theorem finishRules_happen (eid q i : Nat) (tok : Token) (l : List Token) : Happen (finishRules eid q i tok l) := by
  refine .cons (becomes_holds fun s h => ?stops) <| .cons (fun s h => ?live) <| .cons (fun s h => ?forward) <|
    .cons (becomes_holds fun s h => ?held) <| .cons (fun s h => ?last) .nil
  case stops =>
    obtain ⟨⟨queue, tag, takes⟩, none_⟩ := h
    exact finishArrival_stops ⟨queue, tag, takes⟩ none_
  case live =>
    obtain ⟨⟨queue, tag, takes⟩, live, inst⟩ := h
    exact finishArrival_live ⟨queue, tag, takes⟩ live inst
  case forward =>
    obtain ⟨state, inflight, ans, four⟩ := h
    refine ⟨_, finishForward_eq state inflight ans, ?_, fun n hn => ⟨?_, ?_⟩⟩
    · rw [State.elem_setElem_self]
      rfl
    · rw [State.elem_setElem_self, forwarded_oq (by omega), entering_contains hn]
      rfl
    · rw [State.elem_setElem_self, forwarded_finSent hn, entering_contains hn, skipped_contains hn]
  case held =>
    obtain ⟨⟨inst, state, dequeued, sent, inflight, ans, inputs, outputs, buffers, idle⟩, x, found, tiles, held⟩ := h
    exact elementFreed_held ⟨inst, state, dequeued, sent, inflight, ans, inputs, outputs, buffers, idle⟩ found tiles held
  case last =>
    obtain ⟨⟨inst, state, dequeued, sent, inflight, ans, inputs, outputs, buffers, idle⟩, x, found, boundary, others, empty⟩ := h
    exact elementFreed_last ⟨inst, state, dequeued, sent, inflight, ans, inputs, outputs, buffers, idle⟩ found boundary others empty

/-- Settles O41: FINISH at an input, FINISH to the outputs, and the element freed, the last of its region or not. -/
theorem finishFront : Obligations.FinishFront := finishRules_happen

end Sys2Proof.Claims
end

/-! # How leases end (R107, R115 to R117, R334) -/

section
namespace Sys2Proof.Machine

/-! ## Slots -/

theorem nth_set {α : Type} (l : List α) (k n : Nat) (x d : α) (h : k < l.length) : nth (l.set k x) n d = if n = k then x else nth l n d := by
  simp only [nth, List.getElem?_set]
  by_cases same : n = k
  · subst n
    simp [h]
  · simp [same, Ne.symm same]

theorem upd_const {α : Type} (l : List α) (k : Nat) (x : α) : upd l k (fun _ => x) = l.set k x := by
  refine List.ext_getElem? fun n => ?_
  rw [getElem?_upd, List.getElem?_set]
  by_cases same : n = k
  · subst n
    by_cases h : k < l.length <;> simp [h]
  · simp [same, Ne.symm same]

theorem upd_congr {α : Type} {l : List α} {k : Nat} {f f' : α → α} (h : ∀ x, l[k]? = some x → f x = f' x) : upd l k f = upd l k f' := by
  refine List.ext_getElem? fun n => ?_
  rw [getElem?_upd, getElem?_upd]
  split
  · subst n
    exact Option.map_congr h
  · rfl

theorem modCluster_congr {s : State} {g : Nat} {f f' : Cluster → Cluster}
    (h : g < s.clusters.length → f (s.cluster g) = f' (s.cluster g)) : s.modCluster g f = s.modCluster g f' := by
  rw [State.modCluster, State.modCluster, upd_congr]
  intro c hc
  obtain ⟨known, rfl⟩ := List.getElem?_eq_some_iff.1 hc
  have here : s.cluster g = s.clusters[g] := by simp [State.cluster, nth, known]
  rw [← here]
  exact h known

theorem modCluster_same {s : State} {g : Nat} {f : Cluster → Cluster} (h : g < s.clusters.length → f (s.cluster g) = s.cluster g) :
    s.modCluster g f = s :=
  (modCluster_congr (f' := id) h).trans (by rw [State.modCluster, upd, List.modify_id])

theorem getElem?_of_nth {α : Type} {l : List (Option α)} {n : Nat} {x : α} (h : nth l n none = some x) : l[n]? = some (some x) := by
  rw [nth] at h
  cases e : l[n]? with
  | none => cases e ▸ h
  | some y => rw [e] at h; exact congrArg some h

theorem nth_some_lt {α : Type} {l : List (Option α)} {n : Nat} {x : α} (h : nth l n none = some x) : n < l.length :=
  (List.getElem?_eq_some_iff.1 (getElem?_of_nth h)).1

/-- What one number alone of a range meets. -/
theorem range_filter_one {n k : Nat} {p : Nat → Bool} (hk : k < n) (h : ∀ m < n, p m = true ↔ m = k) : (List.range n).filter p = [k] := by
  have same : (List.range n).filter p = (List.range n).filter (· == k) :=
    List.filter_congr fun m hm => Bool.eq_iff_iff.2 ((h m (List.mem_range.1 hm)).trans beq_iff_eq.symm)
  rw [same, List.filter_beq, List.count_eq_one_of_mem List.nodup_range (List.mem_range.2 hk)]
  rfl

/-! ## The cluster (R107, R115) -/

/-- The point in force, once its rail follows it. -/
theorem setPoint_kept (c : Cluster) (now : Nat) : c.setPoint now =
    { c with opnow := (c.setPoint now).opnow, volt := (c.setPoint now).volt, rampEnd := (c.setPoint now).rampEnd } := by
  unfold Cluster.setPoint
  dsimp only
  split <;> rfl

theorem setPoint_opnow (c : Cluster) (now : Nat) : (c.setPoint now).opnow = c.point := by
  unfold Cluster.setPoint
  dsimp only
  split
  · exact Eq.symm ‹_›
  · rfl

/-- A cluster without the lease of a slot: the state of its heat store and its rail follow. -/
def Cluster.freed (c : Cluster) (k now : Nat) : Cluster :=
  let d := { c with slots := upd c.slots k (fun _ => none) }
  { d with melt := if d.melt == Melt.sprint && d.slots.all (·.isNone) then (if d.hyst && d.rearm.toNat ≤ d.melt16 then .refreeze else .cool)
      else d.melt }.setPoint now

theorem Cluster.freed_kept (c : Cluster) (k now : Nat) : c.freed k now =
    { c with
      slots := c.slots.set k none, melt := (c.freed k now).melt, opnow := (c.freed k now).opnow, volt := (c.freed k now).volt,
      rampEnd := (c.freed k now).rampEnd } := by
  rw [← upd_const, Cluster.freed, setPoint_kept]

theorem Cluster.freed_slots (c : Cluster) (k now : Nat) : (c.freed k now).slots = c.slots.set k none := by rw [Cluster.freed_kept]

theorem Cluster.freed_melt (c : Cluster) (k now : Nat) : (c.freed k now).melt =
    if c.melt = .sprint ∧ ∀ y ∈ c.slots.set k none, y = none then
      (if c.hyst = true ∧ c.rearm.toNat ≤ c.heat.toNat / 65536 then .refreeze else .cool)
    else c.melt := by
  rw [← upd_const, Cluster.freed, setPoint_kept]
  simp only [Bool.and_eq_true, decide_eq_true_eq, beq_iff_eq, List.all_eq_true, Option.isNone_iff_eq_none]
  rfl

theorem Cluster.freed_refreeze {c : Cluster} (h : c.melt = .refreeze) (k now : Nat) : (c.freed k now).melt = .refreeze := by
  rw [Cluster.freed_melt, h]
  simp

/-! ## The end of one lease -/

/-- One of the instances that a lease has ended for (R115, R116). -/
def Inst.without (l : Lease) (reason now melt state : Nat) (x : Inst) : Inst :=
  { x with
    ended := ((l.handle, reason) :: x.ended).take 8
    leaseBuf := if reason ≠ endTEARDOWN && x.leasePort.isSome then x.leaseBuf ++ [leaseEndToken l reason now melt state] else x.leaseBuf }

/-- The state with the slot free. -/
def State.freeSlot (s : State) (g k : Nat) : State := { s with clusters := upd s.clusters g (fun _ => (s.cluster g).freed k s.now) }

/-- A LEASE that waits for the rail of its grant is answered with the end. -/
def State.answerEnd (s : State) (l : Lease) : State := if l.begin_.isNone then s.answerLease l.eid l.entry 0 l.us l.handle else s

/-- The state with the slot free, the waiting LEASE answered and the end told to the instance. -/
def State.without (s : State) (g k : Nat) (l : Lease) (reason : Nat) : State :=
  let c := (s.cluster g).freed k s.now
  let u := (s.freeSlot g k).answerEnd l
  u.modInst l.inst (Inst.without l reason u.now c.melt16 c.melt.code)

/-- LEASENOTE of the end of a lease (R117). -/
def State.leaseNote (s : State) (g : Nat) (l : Lease) (reason : Nat) : State :=
  match s.task? l.launch l.task with
  | some t => s.sendAm l.vf amLEASENOTE (BitVec.ofNat 32 (reason + g * 2 ^ 8 + t.gw.taskId * 2 ^ 16)) (BitVec.ofNat 64 t.gw.completionVa) none
  | none => s

section
variable {s : State} {g k reason : Nat} {l : Lease}

theorem endLease_none (h : nth (s.cluster g).slots k none = none) : s.endLease g k reason = s := by
  simp only [State.endLease, h]

theorem endLease_some (h : nth (s.cluster g).slots k none = some l) : s.endLease g k reason =
    if reason = endCEILING || l.traps reason then (s.without g k l reason).leaseNote g l reason else s.without g k l reason := by
  simp only [State.endLease, h]
  rfl

end

/-! ## What it changes -/

theorem modInst_rest (s : State) (i : Nat) (f : Inst → Inst) : s.modInst i f = { s with insts := (s.modInst i f).insts } := by
  unfold State.modInst
  split <;> rfl

theorem modInst_insts_congr {s t : State} (h : t.insts = s.insts) (i : Nat) (f : Inst → Inst) : (t.modInst i f).insts = (s.modInst i f).insts := by
  simp only [State.modInst, h]
  split
  · rfl
  · exact h

theorem modInst_find_self {s : State} {i : Nat} {x : Inst} (h : s.insts.find i = some x) (f : Inst → Inst) :
    (s.modInst i f).insts.find i = some (f x) := by
  rw [modInst_of_find h]
  exact NMap.find_put_self ..

theorem modInst_find_ne (s : State) {i n : Nat} (f : Inst → Inst) (h : n ≠ i) : (s.modInst i f).insts.find n = s.insts.find n := by
  unfold State.modInst
  split
  · exact NMap.find_put_ne _ _ h
  · rfl

theorem answerLease_only (s : State) (eid : Nat) (entry : Option Nat) (status us : Nat) (handle : Word) :
    AnswersOnly s (s.answerLease eid entry status us handle) := by
  cases entry
  · exact .refl s
  · exact giveAnswer_only ..

theorem answerLease_rest (s : State) (eid : Nat) (entry : Option Nat) (status us : Nat) (handle : Word) :
    s.answerLease eid entry status us handle = { s with
      elems := (s.answerLease eid entry status us handle).elems
      contexts := (s.answerLease eid entry status us handle).contexts } := by
  cases entry
  · rfl
  · exact giveAnswer_rest ..

/-- Leases of a cluster end: what else changes are answers, the instances that held them and messages to the host. -/
structure LeasesEnd (s t : State) (g : Nat) : Prop where
  rest : t = { s with
    clusters := t.clusters, elems := t.elems, contexts := t.contexts, insts := t.insts, vfs := t.vfs }
  answers : ∀ e, t.elem e = { s.elem e with ans := (t.elem e).ans }
  others : ∀ n, n ≠ g → t.cluster n = s.cluster n
  cluster : t.cluster g = { s.cluster g with
    slots := (t.cluster g).slots, melt := (t.cluster g).melt, opnow := (t.cluster g).opnow, volt := (t.cluster g).volt,
    rampEnd := (t.cluster g).rampEnd }
  count : t.clusters.length = s.clusters.length

theorem LeasesEnd.refl (s : State) (g : Nat) : LeasesEnd s s g := ⟨rfl, fun _ => rfl, fun _ _ => rfl, rfl, rfl⟩

theorem LeasesEnd.trans {s t u : State} {g : Nat} (h : LeasesEnd s t g) (k : LeasesEnd t u g) : LeasesEnd s u g := by
  refine ⟨?_, fun e => ?_, fun n hn => ?_, ?_, k.count.trans h.count⟩
  · rw [k.rest, h.rest]
  · rw [k.answers, h.answers]
  · rw [k.others n hn, h.others n hn]
  · rw [k.cluster, h.cluster]

section
variable {s : State} {g k reason : Nat} {l : Lease}

theorem freeSlot_ends (known : g < s.clusters.length) : LeasesEnd s (s.freeSlot g k) g := by
  have self : (s.freeSlot g k).cluster g = (s.cluster g).freed k s.now := nth_upd_self _ _ _ _ known
  refine ⟨rfl, fun _ => rfl, fun n hn => nth_upd_ne _ _ _ hn, ?_, upd_length ..⟩
  rw [self, Cluster.freed_kept]

theorem answerEnd_only (s : State) (l : Lease) : AnswersOnly s (s.answerEnd l) := by
  unfold State.answerEnd
  split
  · exact answerLease_only ..
  · exact .refl s

theorem answerEnd_rest (s : State) (l : Lease) :
    s.answerEnd l = { s with elems := (s.answerEnd l).elems, contexts := (s.answerEnd l).contexts } := by
  unfold State.answerEnd
  split
  · exact answerLease_rest ..
  · rfl

theorem answerEnd_begun {l : Lease} (h : l.begin_.isSome = true) (s : State) : s.answerEnd l = s := by
  rw [State.answerEnd, if_neg (by simpa [Option.isSome_iff_ne_none] using h)]

theorem without_rest : s.without g k l reason = { s with
    clusters := (s.freeSlot g k).clusters, elems := ((s.freeSlot g k).answerEnd l).elems
    contexts := ((s.freeSlot g k).answerEnd l).contexts, insts := (s.without g k l reason).insts } := by
  rw [State.without, modInst_rest, answerEnd_rest]
  rfl

theorem without_ends (known : g < s.clusters.length) : LeasesEnd s (s.without g k l reason) g := by
  obtain ⟨-, -, others, cluster, count⟩ := freeSlot_ends (k := k) known
  have clusters : (s.without g k l reason).clusters = (s.freeSlot g k).clusters := by rw [without_rest]
  have elems : (s.without g k l reason).elems = ((s.freeSlot g k).answerEnd l).elems := by rw [without_rest]
  refine ⟨?_, fun e => ?_, fun n hn => ?_, ?_, ?_⟩
  · rw [without_rest]
  · rw [State.elem_congr elems]
    exact (answerEnd_only ..).elem e
  · rw [State.cluster_congr clusters, others n hn]
  · rw [State.cluster_congr clusters]
    exact cluster
  · rw [clusters, count]

theorem leaseNote_rest (s : State) (g : Nat) (l : Lease) (reason : Nat) :
    s.leaseNote g l reason = { s with vfs := (s.leaseNote g l reason).vfs } := by
  unfold State.leaseNote
  split <;> rfl

/-- Beside what is told to the instance, the end of a lease may be told to the host. -/
theorem endLease_rest (h : nth (s.cluster g).slots k none = some l) :
    s.endLease g k reason = { s.without g k l reason with vfs := (s.endLease g k reason).vfs } := by
  rw [endLease_some h]
  split
  · exact leaseNote_rest ..
  · rfl

theorem endLease_ends (known : g < s.clusters.length) : LeasesEnd s (s.endLease g k reason) g := by
  cases h : nth (s.cluster g).slots k none with
  | none =>
    rw [endLease_none h]
    exact .refl s g
  | some l =>
    obtain ⟨rest, answers, others, cluster, count⟩ := without_ends (s := s) (k := k) (l := l) (reason := reason) known
    have clusters : (s.endLease g k reason).clusters = (s.without g k l reason).clusters := by rw [endLease_rest h]
    have elems : (s.endLease g k reason).elems = (s.without g k l reason).elems := by rw [endLease_rest h]
    refine ⟨?_, fun e => ?_, fun n hn => ?_, ?_, ?_⟩
    · rw [endLease_rest h, rest]
    · rw [State.elem_congr elems]
      exact answers e
    · rw [State.cluster_congr clusters, others n hn]
    · rw [State.cluster_congr clusters]
      exact cluster
    · rw [clusters, count]

theorem endLease_cluster (known : g < s.clusters.length) (h : nth (s.cluster g).slots k none = some l) :
    (s.endLease g k reason).cluster g = (s.cluster g).freed k s.now := by
  have clusters : (s.endLease g k reason).clusters = (s.freeSlot g k).clusters := by rw [endLease_rest h, without_rest]
  rw [State.cluster_congr clusters]
  exact nth_upd_self _ _ _ _ known

theorem endLease_slot (known : g < s.clusters.length) (n : Nat) :
    nth ((s.endLease g k reason).cluster g).slots n none = if n = k then none else nth (s.cluster g).slots n none := by
  cases h : nth (s.cluster g).slots k none with
  | none =>
    rw [endLease_none h]
    split
    · subst n
      exact h
    · rfl
  | some l => rw [endLease_cluster known h, Cluster.freed_slots, nth_set _ _ _ _ _ (nth_some_lt h)]

theorem endLease_refreeze (known : g < s.clusters.length) (h : (s.cluster g).melt = .refreeze) :
    ((s.endLease g k reason).cluster g).melt = .refreeze := by
  cases slot : nth (s.cluster g).slots k none with
  | none => rw [endLease_none slot, h]
  | some l => rw [endLease_cluster known slot, Cluster.freed_refreeze h]

theorem endLease_insts (h : nth (s.cluster g).slots k none = some l) : (s.endLease g k reason).insts =
    ((s.freeSlot g k).modInst l.inst (Inst.without l reason s.now ((s.cluster g).freed k s.now).melt16
      ((s.cluster g).freed k s.now).melt.code)).insts := by
  have now : ((s.freeSlot g k).answerEnd l).now = s.now := by rw [answerEnd_rest]; rfl
  have same : ((s.freeSlot g k).answerEnd l).insts = (s.freeSlot g k).insts := by rw [answerEnd_rest]
  rw [endLease_rest h]
  simp only [State.without, now]
  exact modInst_insts_congr same ..

theorem endLease_insts_ne {i : Nat} (h : ∀ w, nth (s.cluster g).slots k none = some w → w.inst ≠ i) :
    (s.endLease g k reason).insts.find i = s.insts.find i := by
  cases slot : nth (s.cluster g).slots k none with
  | none => rw [endLease_none slot]
  | some l =>
    rw [endLease_insts slot]
    exact modInst_find_ne _ _ (h l slot).symm

theorem endLease_insts_self {x : Inst} (h : nth (s.cluster g).slots k none = some l) (found : s.insts.find l.inst = some x) :
    (s.endLease g k reason).insts.find l.inst = some (x.without l reason s.now ((s.cluster g).freed k s.now).melt16
      ((s.cluster g).freed k s.now).melt.code) := by
  rw [endLease_insts h]
  exact modInst_find_self (s := s.freeSlot g k) found _

theorem endLease_begun (h : nth (s.cluster g).slots k none = some l) (begun : l.begin_.isSome = true) :
    (s.endLease g k reason).elems = s.elems ∧ (s.endLease g k reason).contexts = s.contexts := by
  rw [endLease_rest h, without_rest, answerEnd_begun begun]
  exact ⟨rfl, rfl⟩

theorem endLease_silent (h : nth (s.cluster g).slots k none = some l) (silent : reason ≠ endCEILING) (traps : l.traps reason = false) :
    (s.endLease g k reason).vfs = s.vfs := by
  rw [endLease_some h, if_neg (by simp [silent, traps]), without_rest]

theorem endLease_note {a : Task} (h : nth (s.cluster g).slots k none = some l) (traps : l.traps reason = true)
    (task : s.task? l.launch l.task = some a) : (s.endLease g k reason).vf l.vf = { s.vf l.vf with
      out := (s.vf l.vf).out ++ [⟨amLEASENOTE, (s.vf l.vf).outSeq, BitVec.ofNat 32 (reason + g * 2 ^ 8 + a.gw.taskId * 2 ^ 16),
        BitVec.ofNat 64 a.gw.completionVa, none⟩], outSeq := (s.vf l.vf).outSeq + 1 } := by
  have task' : (s.without g k l reason).task? l.launch l.task = some a := by rw [without_rest]; exact task
  have vf : (s.without g k l reason).vf l.vf = s.vf l.vf := by rw [without_rest]; rfl
  rw [endLease_some h, if_pos (by simp [traps]), State.leaseNote, task']
  exact (State.vf_modVf_self ..).trans (by rw [vf])

end

/-! ## The ends that are asked for (R115) -/

/-- No live lease of a cluster is to end. -/
def NoneAsked (s : State) (g : Nat) : Prop := ∀ n w, nth (s.cluster g).slots n none = some w → w.asked = []

theorem askedFor_none {c : Cluster} {reason : Nat} (h : ∀ n w, nth c.slots n none = some w → reason ∉ w.asked) : c.askedFor reason = [] := by
  refine List.filter_eq_nil_iff.2 fun n _ => ?_
  cases slot : nth c.slots n none with
  | none => simp
  | some w => simpa using h n w slot

/-- Without a lease that an instance asked to end, there is none to take. -/
theorem takeAsked_none {s : State} {g : Nat} (h : ∀ n w, nth (s.cluster g).slots n none = some w → ∀ r ∈ [3, 4, 7], r ∉ w.asked) :
    s.takeAsked g = s := by
  have none_ (r : Nat) (hr : r ∈ [3, 4, 7]) : (s.cluster g).askedFor r = [] := askedFor_none fun n w slot => h n w slot r hr
  simp only [State.takeAsked, List.foldl_cons, List.foldl_nil, none_ endPREEMPT (by decide), none_ endFAULT (by decide),
    none_ endTEARDOWN (by decide)]

theorem takeAsked_noneAsked {s : State} {g : Nat} (h : NoneAsked s g) : s.takeAsked g = s :=
  takeAsked_none fun n w slot r _ => by simp [h n w slot]

theorem traps_of_soft {l : Lease} (soft : l.hard = false) (reason : Nat) : l.traps reason = false := by
  rw [Lease.traps, soft, Bool.false_and]

/-- A lease alone ends: where the others are not asked to end, nothing more does. -/
theorem endAll_soft {s : State} {g k reason : Nat} {l : Lease} (known : g < s.clusters.length)
    (slot : nth (s.cluster g).slots k none = some l) (others : ∀ n w, n ≠ k → nth (s.cluster g).slots n none = some w → w.asked = [])
    (traps : l.traps reason = false) : s.endAll g [k] reason = s.endLease g k reason := by
  have unasked : NoneAsked (s.endLease g k reason) g := fun n w h => by
    rw [endLease_slot known] at h
    split at h
    · cases h
    · exact others n w ‹_› h
  simp only [State.endAll, List.filterMap_cons, List.filterMap_nil, slot, Option.bind_some, traps, Bool.false_eq_true, if_false,
    List.foldl_cons, List.foldl_nil]
  exact takeAsked_noneAsked unasked

end Sys2Proof.Machine
end

/-! # The trap of a HARD lease (R66, R117) -/

section
namespace Sys2Proof.Machine

/-! ## What the operator is told (R53 to R57) -/

theorem part_modPart (s : State) (p k : Nat) (f : Partition → Partition) :
    (s.modPart p f).part k = f (s.part k) ∨ (s.modPart p f).part k = s.part k := by
  by_cases same : k = p
  · subst k
    by_cases known : p < s.parts.length
    · exact .inl (State.part_modPart_self s p f known)
    · refine .inr ?_
      simp [State.part, State.modPart, nth, getElem?_upd, List.getElem?_eq_none (Nat.le_of_not_lt known)]
  · exact .inr (State.part_modPart_ne s f same)

/-- The operator may be told something: of the partitions only the counts for his records have changed. -/
structure Told (s t : State) : Prop where
  rest : t = { s with parts := t.parts, operLog := t.operLog }
  part : ∀ p, t.part p = { s.part p with powerSum := (t.part p).powerSum, rate := (t.part p).rate, drops := (t.part p).drops }
  count : t.parts.length = s.parts.length

theorem Told.refl (s : State) : Told s s := ⟨rfl, fun _ => rfl, rfl⟩

theorem Told.trans {s t u : State} (h : Told s t) (k : Told t u) : Told s u := by
  refine ⟨?_, fun p => ?_, k.count.trans h.count⟩
  · rw [k.rest, h.rest]
  · rw [k.part, h.part]

theorem modPart_told (s : State) (p : Nat) (f : Partition → Partition)
    (h : ∀ x, f x = { x with powerSum := (f x).powerSum, rate := (f x).rate, drops := (f x).drops }) : Told s (s.modPart p f) := by
  refine ⟨rfl, fun k => ?_, upd_length ..⟩
  rcases part_modPart s p k f with e | e <;> rw [e]
  exact h _

theorem handOver_told (s : State) (r : OperRecord) : Told s (s.handOver r) := ⟨rfl, fun _ => rfl, rfl⟩

theorem rateCap_told (s : State) (p cls : Nat) (e : ClassEntry) : Told s (s.rateCap p cls e).2 := by
  unfold State.rateCap
  dsimp only
  split <;> exact modPart_told _ _ _ fun _ => rfl

theorem produceFor_told (s : State) (p cls : Nat) (b : List Byte) (type time : Nat) (q : Option Nat) (fields : List Field) :
    Told s (s.produceFor p cls b type time q fields) := by
  have cap := rateCap_told s p cls (policyEntry b cls)
  have floor (u : State) : Told u (match q with
      | some k => u.floorRecord p cls type (clearLow time k) (fields.filterMap (·.floor))
      | none => u) := by
    cases q
    · exact .refl u
    · exact handOver_told ..
  unfold State.produceFor
  dsimp only
  split
  · exact floor s
  · split
    · rename_i u hu
      rw [hu] at cap
      exact cap.trans (floor u)
    · rename_i u hu
      rw [hu] at cap
      exact cap.trans (handOver_told ..)

theorem schedInst_told (s : State) (k : SchedEvent) (x : Inst) : Told s (s.schedInst k x) := by
  unfold State.schedInst State.sched State.operate
  exact produceFor_told ..

theorem powerFloor_told (s : State) (ms p : Nat) : Told s (s.powerFloor ms p) := by
  unfold State.powerFloor
  dsimp only
  split
  · exact modPart_told _ _ _ fun _ => rfl
  · refine (modPart_told s p (fun x => { x with powerSum := 0 }) fun _ => rfl).trans ?_
    split
    · exact .refl _
    · exact produceFor_told ..

/-! ## Writes of the Starter (R15, R39, R163) -/

/-- Only memory, writes that wait and writes on the link have changed. -/
def Stored (s t : State) : Prop := t = { s with
  hbm := t.hbm, hbmPoison := t.hbmPoison, parked := t.parked, fresh := t.fresh, nextId := t.nextId, links := t.links }

theorem Stored.trans {s t u : State} (h : Stored s t) (k : Stored t u) : Stored s u := by
  unfold Stored at *
  rw [k, h]

theorem starterWrite_stored {s t : State} {v va : Nat} {bs : List (Nat × Byte)} (h : s.starterWrite v va bs = some t) : Stored s t := by
  unfold State.starterWrite at h
  split at h
  · cases h
  · unfold State.putAt at h
    split at h
    · cases h
      unfold State.writeHome
      split <;> rfl
    · split at h <;> cases h
      rfl
    · cases h

theorem starterWriteAll_stored {s t : State} {v va : Nat} {bs : List Byte} (h : s.starterWriteAll v va bs = some t) : Stored s t := by
  unfold State.starterWriteAll at h
  revert t
  refine List.foldlRecOn (motive := fun (a : Option State) => ∀ {t}, a = some t → Stored s t) _ _ (fun e => by cases e; rfl)
    fun a ih g _ t e => ?_
  cases a with
  | none => cases e
  | some u => exact (ih rfl).trans (starterWrite_stored e)

/-! ## The record of the trap (R217, R218, R225) -/

theorem leBytes_length (n v : Nat) : (leBytes n v).length = n := by
  induction n generalizing v with
  | zero => rfl
  | succ n ih => rw [leBytes, List.length_cons, ih]

/-- A record without token entries has 64 bytes. -/
theorem bytes_length {f : FaultEvent} (h : f.tokens = []) (ids : Nat × Nat × Nat) : (f.bytes ids).length = 64 := by
  simp [FaultEvent.bytes, h, leBytes_length]

/-- A record is written or dropped: the fault buffer of its partition has advanced, or counts one more. -/
structure RecordPut (s t : State) (p n : Nat) : Prop where
  rest : t = { s with
    hbm := t.hbm, hbmPoison := t.hbmPoison, parked := t.parked, fresh := t.fresh, nextId := t.nextId, links := t.links, parts := t.parts }
  fault : p < s.parts.length →
    (t.part p).fault = { (s.part p).fault with nextOff := BitVec.ofNat 64 ((s.part p).fault.nextOff.toNat + n) } ∨
    (t.part p).fault = (s.part p).fault.drop
  count : t.parts.length = s.parts.length

theorem writeRecord_put (s : State) (p : Nat) (bs : List Byte) : RecordPut s (s.writeRecord p false bs).2 p bs.length := by
  have dropped : RecordPut s (s.modPart p (fun q => q.setBuf false (((s.part p).buf false).drop))) p bs.length :=
    ⟨rfl, fun known => .inr (by rw [State.part_modPart_self _ _ _ known]; rfl), upd_length ..⟩
  unfold State.writeRecord
  dsimp only
  split
  · exact dropped
  · split
    · exact dropped
    · split
      · exact dropped
      · rename_i u hu
        have stored : Stored s u := starterWriteAll_stored hu
        have parts : u.parts = s.parts := by rw [stored]
        refine ⟨?_, fun known => .inl ?_, ?_⟩
        · rw [State.modPart, stored]
        · rw [State.part_modPart_self _ _ _ (by rw [parts]; exact known), State.part_congr parts]
          rfl
        · exact (upd_length ..).trans (by rw [parts])

/-! ## Tasks -/

theorem modTask_rest (s : State) (l k : Nat) (f : Task → Task) : s.modTask l k f = { s with launches := (s.modTask l k f).launches } := by
  unfold State.modTask State.modLaunch
  split <;> rfl

theorem modTask_find {s : State} {l : Nat} {y : Launch} (h : s.launches.find l = some y) (k : Nat) (f : Task → Task) :
    (s.modTask l k f).launches.find l = some { y with tasks := upd y.tasks k f } := by
  simp only [State.modTask, State.modLaunch, h]
  exact NMap.find_put_self ..

theorem modTask_find_ne (s : State) {l n : Nat} (k : Nat) (f : Task → Task) (h : n ≠ l) :
    (s.modTask l k f).launches.find n = s.launches.find n := by
  unfold State.modTask State.modLaunch
  split
  · exact NMap.find_put_ne _ _ h
  · rfl

theorem NMap.put_put {α : Type} (m : NMap α) (n : Nat) (x y : α) : (m.put n x).put n y = m.put n y := by
  induction m with
  | nil => simp [NMap.put]
  | cons e m ih =>
    obtain ⟨k, v⟩ := e
    by_cases below : n < k
    · simp [NMap.put, below]
    · by_cases same : n = k <;> simp [NMap.put, below, same, ih]

theorem modTask_modTask (s : State) (l k : Nat) (f g : Task → Task) : (s.modTask l k f).modTask l k g = s.modTask l k (g ∘ f) := by
  cases e : s.launches.find l with
  | none => simp only [State.modTask, State.modLaunch, e]
  | some y =>
    simp only [State.modTask, State.modLaunch, e, NMap.find_put_self, NMap.put_put, upd]
    rw [List.modify_modify_eq]

theorem modTask_readyN (s : State) (n l k : Nat) (f : Task → Task) :
    { s with readyN := n }.modTask l k f = { s.modTask l k f with readyN := n } := by
  unfold State.modTask State.modLaunch
  dsimp only
  split <;> rfl

theorem task?_of_find {s : State} {l : Nat} {y : Launch} (h : s.launches.find l = some y) (k : Nat) : s.task? l k = y.tasks[k]? := by
  simp only [State.task?, h]

theorem task?_congr {s t : State} (h : t.launches = s.launches) (l k : Nat) : t.task? l k = s.task? l k := by
  simp only [State.task?, h]

/-- The record of a trap, of a task that has a record already: the task has a new last record, and keeps the rest. -/
theorem takeRecord_lease {s : State} {l k : Nat} {f : FaultEvent} {ids : Nat × Nat × Nat} {y : Launch} {a : Task}
    (launch : s.launches.find l = some y) (task : y.tasks[k]? = some a) (chain : a.fchain ≠ 0) (family : f.family = fLEASE)
    (tokens : f.tokens = []) : ∃ (t : State) (r : Nat), s.takeRecord l k f ids = t.modTask l k (fun _ => { a with lastRec := r }) ∧
      t = { s with
        hbm := t.hbm, hbmPoison := t.hbmPoison, parked := t.parked, fresh := t.fresh, nextId := t.nextId, links := t.links,
        parts := t.parts, operLog := t.operLog } ∧
      (y.part < s.parts.length →
        (t.part y.part).fault = { (s.part y.part).fault with nextOff := BitVec.ofNat 64 ((s.part y.part).fault.nextOff.toNat + 64) } ∨
        (t.part y.part).fault = (s.part y.part).fault.drop) ∧ t.parts.length = s.parts.length := by
  have task' : s.task? l k = some a := by rw [task?_of_find launch, task]
  have put := writeRecord_put s y.part (f.bytes ids)
  rw [bytes_length tokens] at put
  have quiet : (notifies f.family && a.note.isNone) = false := by rw [family]; rfl
  simp only [State.takeRecord, State.linkRecord, launch, task', quiet]
  generalize s.writeRecord y.part false (f.bytes ids) = written at put ⊢
  obtain ⟨va, u⟩ := written
  obtain ⟨rest, fault, count⟩ : RecordPut s u y.part 64 := put
  have told : Told u (u.operateFault y.part f ids) := produceFor_told ..
  generalize u.operateFault y.part f ids = v at told ⊢
  have putThere (w : State) (h : Stored v w) : w = { s with
      hbm := w.hbm, hbmPoison := w.hbmPoison, parked := w.parked, fresh := w.fresh, nextId := w.nextId, links := w.links,
      parts := w.parts, operLog := w.operLog } ∧ w.parts = v.parts := by
    constructor <;> rw [h]
    rw [told.rest, rest]
  have faultThere : (v.part y.part).fault = (u.part y.part).fault := by rw [told.part]
  cases va with
  | none =>
    refine ⟨v, a.lastRec, rfl, (putThere v rfl).1, fun known => ?_, told.count.trans count⟩
    rw [faultThere]
    exact fault known
  | some va =>
    have stored : Stored v (if a.lastRec = 0 then v
        else (v.starterWriteAll ((s.part y.part).buf false).vf.toNat (a.lastRec + 0x38) (leBytes 8 va)).getD v) := by
      split
      · rfl
      · cases e : v.starterWriteAll ((s.part y.part).buf false).vf.toNat (a.lastRec + 0x38) (leBytes 8 va) with
        | none => rfl
        | some w => exact starterWriteAll_stored e
    obtain ⟨frame, parts⟩ := putThere _ stored
    refine ⟨_, va, ?_, frame, fun known => ?_, ?_⟩
    · simp [chain]
    · rw [State.part_congr parts, faultThere]
      exact fault known
    · rw [parts]
      exact told.count.trans count

/-! ## The CUT of the trap (R91, R117) -/

theorem endLeases_none {s : State} {i reason : Nat} {x : Inst} (found : s.insts.find i = some x)
    (none_ : ∀ n w, nth (s.cluster x.cluster).slots n none = some w → w.inst ≠ i) : s.endLeases i reason = s := by
  simp only [State.endLeases, found]
  refine modCluster_same fun _ => ?_
  have same : (s.cluster x.cluster).slots.map (·.map (fun l => if l.inst = i then l.ask reason else l)) = (s.cluster x.cluster).slots := by
    conv_rhs => rw [← List.map_id (s.cluster x.cluster).slots]
    refine List.map_congr_left fun y hy => ?_
    cases y with
    | none => rfl
    | some w =>
      obtain ⟨n, hn⟩ := List.mem_iff_getElem?.1 hy
      have other : w.inst ≠ i := none_ n w (by rw [nth, hn]; rfl)
      simp [other]
  rw [same]

/-- One of the instances once its CUT has begun. -/
def Inst.cutBegun (x : Inst) : Inst := { x with stop := .cut false false, waveLeft := x.elems, boundary := false }

/-- One of the instances that runs, without a lease and of a task that is not ORDERED, is cut alone. -/
theorem preempt_cut {s : State} {i : Nat} {x : Inst} {a : Task} (found : s.insts.find i = some x) (run : x.phase = .run)
    (stop : x.stop = .none) (faulted : x.faulted = false) (task : s.task? x.launch x.task = some a) (ordered : a.gw.ordered = false)
    (none_ : ∀ n w, nth (s.cluster x.cluster).slots n none = some w → w.inst ≠ i) :
    s.preempt i (.cut false false) = (s.modInst i Inst.cutBegun).schedInst .preempt x := by
  simp only [State.preempt, State.preemptOne, State.startCut, found, run, stop, faulted, task, ordered, endLeases_none found none_,
    Option.map_some, Option.getD_some, Bool.false_and, Bool.false_eq_true, if_false, List.foldl_nil]
  rfl

/-! ## The run of the handler node (R66) -/

theorem makeReady_ready {s : State} {l k : Nat} {y : Launch} {a : Task} (launch : s.launches.find l = some y) (task : y.tasks[k]? = some a)
    (rects : s.rects y.part a.gw.w a.gw.h ≠ []) : s.makeReady l k =
      ({ s with readyN := s.readyN + 1 }.modTask l k (fun t =>
        { t with ready := true, level := y.priority t, readySeq := s.readyN, levelSince := s.now })).decide y.part := by
  simp only [State.makeReady, launch, task?_of_find launch, task, List.isEmpty_eq_false_iff.2 rects, Bool.and_false,
    Bool.false_eq_true, if_false]

/-- A task with its counts afresh. -/
def Task.afresh (t : Task) : Task :=
  { va := t.va, gw := t.gw, succ := t.succ, params := t.params, gen := t.gen, srcSeq := t.srcSeq, fchain := t.fchain,
    lastRec := t.lastRec, note := t.note, noted := t.noted, compFault := t.compFault, statFault := t.statFault, runs := t.runs - 1 }

theorem startRun_ready {s : State} {l k : Nat} {y : Launch} {a : Task} (launch : s.launches.find l = some y) (task : y.tasks[k]? = some a)
    (count : a.gw.ttCount ≠ 0) : s.startRun l k = (s.modTask l k Task.afresh).makeReady l k := by
  have begun : (s.modTask l k Task.afresh).task? l k = some a.afresh := by
    rw [task?_of_find (modTask_find launch k _), getElem?_upd, task]
    simp
  have none_ : ((s.modTask l k Task.afresh).task? l k).any (fun t => t.gw.ttCount = 0) = false := by
    rw [begun]
    exact decide_eq_false count
  have run : s.startRun l k = (if ((s.modTask l k Task.afresh).task? l k).any (fun t => t.gw.ttCount = 0) then
      ((s.modTask l k Task.afresh).modTask l k (fun t => { t with status := .running })).writeObject l k
    else s.modTask l k Task.afresh).makeReady l k := rfl
  rw [run, none_]
  rfl

/-- The run of a handler node: one task of the launch is ready, as often to run again as before. -/
structure HandlerReady (s t : State) (l j : Nat) (b : Task) : Prop where
  rest : t = { s with launches := t.launches, parts := t.parts, readyN := t.readyN }
  fault : ∀ p, (t.part p).fault = (s.part p).fault
  launches : ∀ n, n ≠ l → t.launches.find n = s.launches.find n
  tasks : ∀ n, n ≠ j → t.task? l n = s.task? l n
  ready : ∃ c, t.task? l j = some c ∧ c.ready = true ∧ c.final = false ∧ c.runs = b.runs

/-- The handler node of a task: the first with its TASK_ID, whose run has ended. -/
structure HandlerOf (y : Launch) (h j : Nat) (b : Task) : Prop where
  task : y.tasks[j]? = some b
  handler : b.gw.predN = 255
  named : b.gw.taskId = h
  cancelled : b.cancelled = false
  final : b.final = true
  telling : b.telling = false
  count : b.gw.ttCount ≠ 0
  first : ∀ m c, m < j → y.tasks[m]? = some c → ¬(c.gw.predN = 255 ∧ c.gw.taskId = h)

theorem HandlerOf.find {y : Launch} {h j : Nat} {b : Task} (hb : HandlerOf y h j b) :
    (y.tasks.mapIdx (fun k t => (k, t))).find? (fun x => x.2.isHandler && x.2.gw.taskId = h) = some (j, b) := by
  obtain ⟨known, at_⟩ := List.getElem?_eq_some_iff.1 hb.task
  refine List.find?_eq_some_iff_getElem.2 ⟨by simp [Task.isHandler, hb.handler, hb.named], j, by simpa using known, by simp [at_],
    fun m hm => ?_⟩
  have earlier := hb.first m (y.tasks[m]'(by omega)) hm (List.getElem?_eq_getElem _)
  simpa [Task.isHandler, ← not_and_or] using earlier

/-- A handler node, its counts afresh for one run more; and in the ready list. -/
def Task.again (t : Task) : Task := { t with runs := t.runs + 1 }.afresh
def Launch.rerun (y : Launch) (n now : Nat) (t : Task) : Task :=
  { t.again with ready := true, level := y.priority t, readySeq := n, levelSince := now }

theorem readyHandler_eq {s : State} {l h j : Nat} {y : Launch} {b : Task} (launch : s.launches.find l = some y)
    (hb : HandlerOf y h j b) (rects : s.rects y.part b.gw.w b.gw.h ≠ []) : s.readyHandler l h =
      { s.modTask l j (y.rerun s.readyN s.now) with readyN := s.readyN + 1 }.decide y.part := by
  have begins : s.readyHandler l h = (s.modTask l j (fun t => { t with runs := t.runs + 1 })).startRun l j := by
    simp only [State.readyHandler, launch, hb.find, hb.cancelled, hb.final, hb.telling]
    rfl
  have more : (upd y.tasks j (fun t => { t with runs := t.runs + 1 }))[j]? = some { b with runs := b.runs + 1 } := by
    simp [getElem?_upd, hb.task]
  have again : (upd y.tasks j Task.again)[j]? = some b.again := by simp [getElem?_upd, hb.task]
  have afresh : (s.modTask l j (fun t => { t with runs := t.runs + 1 })).modTask l j Task.afresh = s.modTask l j Task.again :=
    modTask_modTask ..
  have order : (s.modTask l j Task.again).readyN = s.readyN := State.modLaunch_readyN ..
  have now : (s.modTask l j Task.again).now = s.now := State.modLaunch_now ..
  have rects' : (s.modTask l j Task.again).rects y.part b.gw.w b.gw.h ≠ [] := by
    rw [modTask_rest]
    exact rects
  rw [begins, startRun_ready (modTask_find launch j _) more hb.count, afresh,
    makeReady_ready (modTask_find launch j _) again rects', modTask_readyN, modTask_modTask, order, now]
  rfl

theorem readyHandler_ready {s : State} {l h j : Nat} {y : Launch} {b : Task} (launch : s.launches.find l = some y)
    (hb : HandlerOf y h j b) (rects : s.rects y.part b.gw.w b.gw.h ≠ []) : HandlerReady s (s.readyHandler l h) l j b := by
  have launches : (s.readyHandler l h).launches = (s.modTask l j (y.rerun s.readyN s.now)).launches := by
    rw [readyHandler_eq launch hb rects]
    rfl
  have here := modTask_find launch j (y.rerun s.readyN s.now)
  refine ⟨?_, fun p => ?_, fun n hn => ?_, fun n hn => ?_, y.rerun s.readyN s.now b, ?_, rfl, rfl, Nat.add_sub_cancel ..⟩
  · rw [readyHandler_eq launch hb rects, State.decide, State.modPart, modTask_rest]
  · have same : ({ s.modTask l j (y.rerun s.readyN s.now) with readyN := s.readyN + 1 } : State).part p = s.part p :=
      State.part_congr (State.modLaunch_parts ..) p
    rw [readyHandler_eq launch hb rects, State.decide]
    rcases part_modPart { s.modTask l j (y.rerun s.readyN s.now) with readyN := s.readyN + 1 } y.part p
      (fun x => { x with decide_ := true }) with e | e <;> rw [e, same]
  · rw [launches, modTask_find_ne _ _ _ hn]
  · rw [task?_congr launches, task?_of_find here, task?_of_find launch]
    simp [getElem?_upd, hn]
  · rw [task?_congr launches, task?_of_find here, getElem?_upd, hb.task]
    simp

theorem HandlerOf.apart {y : Launch} {h j k : Nat} {a b : Task} (hb : HandlerOf y h j b) (task : y.tasks[k]? = some a)
    (ordinary : a.gw.predN ≠ 255) : j ≠ k := by
  rintro rfl
  exact ordinary (Option.some.inj (task.symm.trans hb.task) ▸ hb.handler)

/-- A task that is no handler node may have a new last record. -/
theorem HandlerOf.record {y : Launch} {h j k : Nat} {a b : Task} (hb : HandlerOf y h j b) (task : y.tasks[k]? = some a)
    (ordinary : a.gw.predN ≠ 255) (r : Nat) : HandlerOf { y with tasks := upd y.tasks k (fun _ => { a with lastRec := r }) } h j b := by
  have apart := hb.apart task ordinary
  refine { hb with task := ?_, first := fun m c hm hc => ?_ }
  · simp [getElem?_upd, apart, hb.task]
  · rw [getElem?_upd] at hc
    obtain ⟨d, hd, rfl⟩ := Option.map_eq_some_iff.1 hc
    split
    · exact fun here => ordinary here.1
    · exact hb.first m d hm hd

/-! ## LEASE_EXPIRY_TRAP (R117) -/

/-- What the trap of a lease that has ended finds: an instance that runs, without another lease, its task with a record, and the handler
node of the launch. -/
structure TrapReady (s : State) (l : Lease) (x : Inst) (y : Launch) (a b : Task) (j : Nat) : Prop where
  found : s.insts.find l.inst = some x
  run : x.phase = .run
  stop : x.stop = .none
  faulted : x.faulted = false
  leases : ∀ n w, nth (s.cluster x.cluster).slots n none = some w → w.inst ≠ l.inst
  launch : s.launches.find x.launch = some y
  task : y.tasks[x.task]? = some a
  ordinary : a.gw.predN ≠ 255
  ordered : a.gw.ordered = false
  chain : a.fchain ≠ 0
  handler : HandlerOf y a.gw.handler j b
  part : y.part = x.part
  known : x.part < s.parts.length
  rects : s.rects y.part b.gw.w b.gw.h ≠ []

/-- What it leaves: a record, written or dropped; the instance cut; and the handler node ready. -/
structure TrapTaken (s t : State) (l : Lease) (x : Inst) (a b : Task) (j : Nat) : Prop where
  rest : t = { s with
    hbm := t.hbm, hbmPoison := t.hbmPoison, parked := t.parked, fresh := t.fresh, nextId := t.nextId, links := t.links, parts := t.parts,
    operLog := t.operLog, launches := t.launches, insts := t.insts, recSeq := t.recSeq, readyN := t.readyN }
  inst : t.insts.find l.inst = some x.cutBegun
  insts : ∀ n, n ≠ l.inst → t.insts.find n = s.insts.find n
  fault : (t.part x.part).fault = { (s.part x.part).fault with nextOff := BitVec.ofNat 64 ((s.part x.part).fault.nextOff.toNat + 64) } ∨
    (t.part x.part).fault = (s.part x.part).fault.drop
  launches : ∀ n, n ≠ x.launch → t.launches.find n = s.launches.find n
  task : ∃ r, t.task? x.launch x.task = some { a with lastRec := r }
  handler : ∃ c, t.task? x.launch j = some c ∧ c.ready = true ∧ c.final = false ∧ c.runs = b.runs
  tasks : ∀ n, n ≠ j → n ≠ x.task → t.task? x.launch n = s.task? x.launch n

theorem TrapTaken.clusters {s t : State} {l : Lease} {x : Inst} {a b : Task} {j : Nat} (h : TrapTaken s t l x a b j) :
    t.clusters = s.clusters := by rw [h.rest]

/-- The record of the power controller, and the state in which the Starter has taken it. -/
def State.trapRecord (s : State) (x : Inst) : FaultEvent :=
  { kind := 2, src := 0, family := fLEASE, code := 1, slot := none, word := 0, heads := 0, tokens := [], addr := 0, time := s.now,
    seq := (s.takeSeq 2 0 x.part).1, ttidx := lowestHeld x.held, policy := (s.part x.part).active }

def State.recorded (s : State) (x : Inst) : State :=
  (s.takeSeq 2 0 x.part).2.takeRecord x.launch x.task (s.trapRecord x) ((s.takeSeq 2 0 x.part).2.instIds x)

theorem trap_eq {s : State} {l : Lease} {x : Inst} (found : s.insts.find l.inst = some x) :
    s.trap l = ((s.recorded x).preempt l.inst (.cut false false)).readyHandler x.launch
      (((((s.recorded x).preempt l.inst (.cut false false)).task? x.launch x.task).map (·.gw.handler)).getD 0xFFFF) := by
  simp only [State.trap, found]
  rfl

section
variable {s : State} {l : Lease} {x : Inst} {y : Launch} {a b : Task} {j : Nat}

theorem recorded_task (h : TrapReady s l x y a b j) : ∃ r,
    (s.recorded x).launches.find x.launch = some { y with tasks := upd y.tasks x.task (fun _ => { a with lastRec := r }) } ∧
    (∀ n, n ≠ x.launch → (s.recorded x).launches.find n = s.launches.find n) ∧
    s.recorded x = { s with
      hbm := (s.recorded x).hbm, hbmPoison := (s.recorded x).hbmPoison, parked := (s.recorded x).parked, fresh := (s.recorded x).fresh,
      nextId := (s.recorded x).nextId, links := (s.recorded x).links, parts := (s.recorded x).parts, operLog := (s.recorded x).operLog,
      launches := (s.recorded x).launches, recSeq := (s.recorded x).recSeq } ∧
    (((s.recorded x).part x.part).fault =
      { (s.part x.part).fault with nextOff := BitVec.ofNat 64 ((s.part x.part).fault.nextOff.toNat + 64) } ∨
      ((s.recorded x).part x.part).fault = (s.part x.part).fault.drop) := by
  obtain ⟨v, r, record, rest, fault, -⟩ := takeRecord_lease (s := (s.takeSeq 2 0 x.part).2) (f := s.trapRecord x)
    (ids := (s.takeSeq 2 0 x.part).2.instIds x) h.launch h.task h.chain rfl rfl
  have launches : v.launches = s.launches := by rw [rest]; rfl
  have eq : s.recorded x = v.modTask x.launch x.task (fun _ => { a with lastRec := r }) := record
  refine ⟨r, ?_, fun n hn => ?_, ?_, ?_⟩
  · rw [eq]
    exact modTask_find (by rw [launches, h.launch]) ..
  · rw [eq, modTask_find_ne _ _ _ hn, launches]
  · rw [eq, modTask_rest, rest]
    rfl
  · have parts : (s.recorded x).parts = v.parts := by rw [eq]; exact State.modLaunch_parts ..
    rw [State.part_congr parts, ← h.part]
    exact fault (h.part ▸ h.known)

theorem trap_taken (h : TrapReady s l x y a b j) : TrapTaken s (s.trap l) l x a b j := by
  obtain ⟨r, launch, launches, rest, fault⟩ := recorded_task h
  have found : (s.recorded x).insts.find l.inst = some x := by rw [rest]; exact h.found
  have task : (s.recorded x).task? x.launch x.task = some { a with lastRec := r } := by
    rw [task?_of_find launch, getElem?_upd, h.task]
    simp
  have leases : ∀ n w, nth ((s.recorded x).cluster x.cluster).slots n none = some w → w.inst ≠ l.inst := by
    rw [rest]
    exact h.leases
  have cut := preempt_cut found h.run h.stop h.faulted task h.ordered leases
  have told := schedInst_told ((s.recorded x).modInst l.inst Inst.cutBegun) .preempt x
  rw [trap_eq h.found, cut]
  generalize ((s.recorded x).modInst l.inst Inst.cutBegun).schedInst .preempt x = c at told ⊢
  have launches' : c.launches = (s.recorded x).launches := by rw [told.rest]; exact State.modInst_launches ..
  have insts' : c.insts = ((s.recorded x).modInst l.inst Inst.cutBegun).insts := by rw [told.rest]
  have named : (((c.task? x.launch x.task).map (·.gw.handler)).getD 0xFFFF) = a.gw.handler := by
    rw [task?_congr launches', task]
    rfl
  have rects : c.rects y.part b.gw.w b.gw.h ≠ [] := by
    rw [told.rest, modInst_rest, rest]
    exact h.rects
  rw [named]
  have ready := readyHandler_ready (launches' ▸ launch) (h.handler.record h.task h.ordinary r) rects
  generalize c.readyHandler x.launch a.gw.handler = t at ready ⊢
  refine ⟨?_, ?_, fun n hn => ?_, ?_, fun n hn => ?_, ⟨r, ?_⟩, ready.ready, fun n hn hk => ?_⟩
  · rw [ready.rest, told.rest, modInst_rest, rest]
  · rw [ready.rest, insts']
    exact modInst_find_self found _
  · rw [ready.rest, insts', modInst_find_ne _ _ hn, rest]
  · have parts : ((s.recorded x).modInst l.inst Inst.cutBegun).parts = (s.recorded x).parts := State.modInst_parts ..
    rw [ready.fault, told.part, State.part_congr parts]
    exact fault
  · rw [ready.launches n hn, launches', launches n hn]
  · rw [ready.tasks _ (h.handler.apart h.task h.ordinary).symm, task?_congr launches', task]
  · rw [ready.tasks n hn, task?_congr launches', task?_of_find launch, task?_of_find h.launch]
    simp [getElem?_upd, hk]

end

end Sys2Proof.Machine
end

section
namespace Sys2Proof.Machine

/-! ## The places of a partition (R70) -/

/-- Two states whose clusters lie in the same partitions, with the same tiles retired. -/
def SamePlan (s t : State) : Prop :=
  ∀ n, (t.cluster n).part = (s.cluster n).part ∧ (t.cluster n).old = (s.cluster n).old ∧ (t.cluster n).retired = (s.cluster n).retired

theorem rects_congr {s t : State} (h : SamePlan s t) (p w k : Nat) : t.rects p w k = s.rects p w k := by
  simp only [State.rects, State.clustersOf, State.partOfCluster, (h _).1, (h _).2.1, (h _).2.2]

theorem LeasesEnd.plan {s t : State} {g : Nat} (h : LeasesEnd s t g) : SamePlan s t := fun n => by
  by_cases here : n = g
  · subst n
    rw [h.cluster]
    exact ⟨rfl, rfl, rfl⟩
  · rw [h.others n here]
    exact ⟨rfl, rfl, rfl⟩

end Sys2Proof.Machine

namespace Sys2Proof.Claims
open Sys2Proof.Machine

/-! ## A HARD lease ends and traps -/

section
variable {s : State} {g k reason : Nat} {l : Lease} {x : Inst} {y : Launch} {a b : Task} {j : Nat}

theorem traps_of_hard (hard : l.hard = true) (reason_ : reason = 2 ∨ reason = 5 ∨ reason = 6) : l.traps reason = true := by
  rcases reason_ with rfl | rfl | rfl <;> simp [Lease.traps, hard, endCEILING, endBUDGET, endEXPIRY]

/-- Once the lease has ended, all is there that its trap needs. -/
theorem trapReady_of_mayTrap (may : MayTrap s g k l x y a b j) (slot : nth (s.cluster g).slots k none = some l) :
    TrapReady (s.endLease g k reason) l
      (x.without l reason s.now ((s.cluster g).freed k s.now).melt16 ((s.cluster g).freed k s.now).melt.code) y a b j := by
  obtain ⟨-, found, cluster, known, run, stop, faulted, part, launch, task, partKnown, alone, launches, task', ordered, ordinary, chain,
    handler, telling, handlerNode, named, cancelled, final, count, rects, first⟩ := may
  have ends := endLease_ends (k := k) (reason := reason) known
  have sameLaunches : (s.endLease g k reason).launches = s.launches := by rw [ends.rest]
  have sameParts : (s.endLease g k reason).parts = s.parts := by rw [ends.rest]
  refine ⟨endLease_insts_self slot found, run, stop, faulted, fun n w h => ?_, ?_, ?_, ordinary, ordered, chain,
    ⟨handler, handlerNode, named, cancelled, final, telling, count, first⟩, part, ?_, ?_⟩
  · rw [show (x.without l reason _ _ _).cluster = g from cluster, endLease_slot known] at h
    split at h
    · cases h
    · exact fun same => ‹n ≠ k› (alone n w h same)
  · rw [sameLaunches]
    exact (congrArg s.launches.find launch).trans launches
  · exact (congrArg (y.tasks[·]?) task).trans task'
  · rw [sameParts]
    exact partKnown
  · rw [rects_congr ends.plan]
    exact rects

theorem endAll_hard (may : MayTrap s g k l x y a b j) (slot : nth (s.cluster g).slots k none = some l)
    (others : ∀ n w, n ≠ k → nth (s.cluster g).slots n none = some w → w.asked = []) (traps : l.traps reason = true) :
    s.endAll g [k] reason = (s.endLease g k reason).trap l := by
  have taken := trap_taken (trapReady_of_mayTrap (reason := reason) may slot)
  have known : g < s.clusters.length := may.2.2.2.1
  have unasked : NoneAsked ((s.endLease g k reason).trap l) g := fun n w h => by
    rw [show ((s.endLease g k reason).trap l).cluster g = (s.endLease g k reason).cluster g by rw [taken.rest]; rfl,
      endLease_slot known] at h
    split at h
    · cases h
    · exact others n w ‹_› h
  simp only [State.endAll, List.filterMap_cons, List.filterMap_nil, slot, Option.bind_some, traps, if_true, List.foldl_cons,
    List.foldl_nil]
  exact takeAsked_noneAsked unasked

/-- What the trap leaves is what R117 says. -/
theorem endLease_trapped (may : MayTrap s g k l x y a b j) (slot : nth (s.cluster g).slots k none = some l)
    (traps : l.traps reason = true) : Trapped s ((s.endLease g k reason).trap l) g l x a b j reason := by
  have taken := trap_taken (trapReady_of_mayTrap (reason := reason) may slot)
  obtain ⟨-, found, cluster, known, run, stop, faulted, part, launch, task, partKnown, alone, launches, task', ordered, ordinary, chain,
    handler, -⟩ := may
  have ends := endLease_ends (k := k) (reason := reason) known
  have sameLaunches : (s.endLease g k reason).launches = s.launches := by rw [ends.rest]
  have sameParts : (s.endLease g k reason).parts = s.parts := by rw [ends.rest]
  generalize (s.endLease g k reason).trap l = t at taken ⊢
  obtain ⟨rest, inst, insts, fault, launchesKept, ⟨r, record⟩, ready, tasks⟩ := taken
  rw [show (x.without l reason _ _ _).launch = l.launch from launch] at record ready launchesKept tasks
  rw [show (x.without l reason _ _ _).task = l.task from task] at record tasks
  refine ⟨⟨_, inst, rfl, rfl, rfl, rfl, faulted⟩, ?_, ?_, ⟨_, record, rfl, rfl, rfl, rfl⟩, ready, ?_, fun e => ?_, fun n hn => ?_,
    fun n hn => ?_, fun n hn hk => ?_⟩
  · have note := endLease_note (g := g) slot traps ((task?_of_find launches _).trans task')
    have vf : t.vf l.vf = (s.endLease g k reason).vf l.vf := by rw [rest]; rfl
    rw [vf, note]
    exact ⟨_, List.mem_append_right _ (List.mem_singleton_self _), rfl, rfl, rfl⟩
  · rw [State.part_congr sameParts] at fault
    exact fault
  · rw [rest, ends.rest]
  · have elem : t.elem e = (s.endLease g k reason).elem e := by rw [rest]; rfl
    rw [elem]
    exact ends.answers e
  · rw [insts n hn]
    exact endLease_insts_ne fun w hw same => hn (by rw [slot] at hw; cases hw; exact same.symm)
  · rw [launchesKept n hn, sameLaunches]
  · rw [tasks n hn hk, task?_congr sameLaunches]

end

end Sys2Proof.Claims
end

/-! # Leases: rails, expiry and LEASEEND (R107, R111, R115 to R117, R334, R335) -/

section
namespace Sys2Proof.Machine

/-- The controller takes a request of the one of the instances that asked. -/
theorem ctrlOf_inst {s : State} {i : Nat} {request : Bool} {r : CtrlReq} (h : s.ctrlOf i request = some r) : r.inst = i := by
  have mem (q : CtrlReq) : s.ctrlOf i request = some q → q ∈ s.ctrlQ.filter (fun r => r.inst = i && r.ask.isRight == request) := by
    unfold State.ctrlOf
    generalize s.ctrlQ.filter (fun r => r.inst = i && r.ask.isRight == request) = asked
    revert q
    refine List.foldlRecOn (motive := fun (m : Option CtrlReq) => ∀ q, m = some q → q ∈ asked) _ _ (fun q e => by cases e)
      fun m ih p hp q e => ?_
    cases m with
    | none =>
      cases e
      exact hp
    | some b =>
      dsimp only at e
      split at e <;> cases e
      · exact hp
      · exact ih _ rfl
  have asks := (List.mem_filter.1 (mem r h)).2
  simp only [Bool.and_eq_true, decide_eq_true_eq] at asks
  exact asks.1

theorem slotOf_inst {c : Cluster} {i k : Nat} {h : Word} {l : Lease} (found : c.slotOf i h = some k) (slot : nth c.slots k none = some l) :
    l.inst = i := by
  have named := List.find?_some found
  rw [slot] at named
  simpa using (Bool.and_eq_true_iff.1 named).2

/-- A lease begins. -/
def State.beginLease (s : State) (g k : Nat) (l : Lease) : State :=
  s.modCluster g (fun c => { c with slots := c.slots.set k (some { l with begin_ := some s.now }) })

end Sys2Proof.Machine

namespace Sys2Proof.Claims
open Sys2Proof.Machine

theorem giveAnswer_gives (s : State) (eid n : Nat) (tok : Tag → Token) : Answered s (s.giveAnswer eid n tok) eid n tok :=
  fun b hb hn ht => by
    rw [giveAnswer_has hb hn, State.elem_modElem_self]
    exact mem_answer hb hn ht

/-! ## RAIL_REACHED (R107, R111) -/

section
variable {s : State} {g k i : Nat} {l : Lease}

theorem railReached_eq (subject : s.subject = (g, k)) (slot : nth (s.cluster g).slots k none = some l) (waits : l.begin_ = none)
    (reached : (s.cluster g).rampEnd ≤ s.now) :
    exec .railReached s = .next ((s.beginLease g k l).answerLease l.eid l.entry 0 l.us l.handle) := by
  have goes : (l.begin_.isSome || decide (s.now < (s.cluster g).rampEnd)) = false := by simp [waits, reached]
  simp only [exec, execRailReached, subject, slot, goes, upd_const]
  rfl

/-! ## The end of a lease that does not trap -/

theorem endLease_ended {reason : Nat} (known : g < s.clusters.length) (slot : nth (s.cluster g).slots k none = some l)
    (traps : l.traps reason = false) (silent : reason ≠ endCEILING) (buffered : reason ≠ endTEARDOWN) :
    Ended s (s.endLease g k reason) g k l reason := by
  have ends := endLease_ends (k := k) (reason := reason) known
  refine ⟨?_, ends.answers, ends.others, fun n hn => endLease_insts_ne fun w hw same => ?_, ?_, ?_, fun x found => ?_⟩
  · have vfs := endLease_silent slot silent traps
    rw [ends.rest, vfs]
  · rw [slot] at hw
    cases hw
    exact hn same.symm
  · rw [endLease_cluster known slot, Cluster.freed_slots]
  · rw [endLease_cluster known slot, Cluster.freed_melt]
  · refine ⟨_, endLease_insts_self slot found, rfl, fun port => ?_⟩
    simp [Inst.without, buffered, port]

/-! ## LEASE_EXPIRY (R115, R117) -/

theorem leaseExpiry_eq {tm : Nat} (subject : s.subject = (g, k)) (slot : nth (s.cluster g).slots k none = some l)
    (begun : l.begin_ = some tm) (due : tm + l.us * 1000 ≤ s.now) (turn : s.ctrlTurn [tm + l.us * 1000, g, 2, k] = true) :
    exec .leaseExpiry s = .next (s.endAll g [k] endEXPIRY) := by
  have expiry : l.expiry = some (tm + l.us * 1000) := by rw [Lease.expiry, begun]; rfl
  simp only [exec, execLeaseExpiry, subject, slot, expiry, due, turn]
  rfl

/-! ## LEASEEND_REQUEST (R335) -/

theorem leaseendRequest_eq {r : CtrlReq} {h : Word} (subject : s.subject.1 = i) (ctrl : s.ctrlOf i false = some r) (ask : r.ask = .inl h)
    (turn : s.ctrlTurn r.key = true) : exec .leaseendRequest s = .next (s.takeLeaseend r h) := by
  simp only [exec, execLeaseendRequest, subject, ctrl, ask, turn]
  rfl

/-- The answer of a LEASEEND. -/
def leaseendToken (n : Nat) (tag : Tag) : Token := ⟨lanesOfList [BitVec.ofNat 32 n], tag, none⟩

/-- It is given where one waits. -/
def answerEnds (s : State) (r : CtrlReq) (n : Nat) : State :=
  match r.entry with
  | some e => s.giveAnswer r.eid e (leaseendToken n)
  | none => s

theorem answerEnds_rest (s : State) (r : CtrlReq) (n : Nat) :
    answerEnds s r n = { s with elems := (answerEnds s r n).elems, contexts := (answerEnds s r n).contexts } := by
  unfold answerEnds
  split
  · exact giveAnswer_rest ..
  · rfl

theorem answerEnds_only (s : State) (r : CtrlReq) (n : Nat) : OnlyAnswers s (answerEnds s r n) := by
  unfold answerEnds
  split
  · exact (giveAnswer_only ..).elem
  · exact fun _ => rfl

theorem answerEnds_gives (s : State) (r : CtrlReq) (n : Nat) : ∀ e, r.entry = some e →
    Answered s (answerEnds s r n) r.eid e (leaseendToken n) := fun e he => by
  have given : answerEnds s r n = s.giveAnswer r.eid e (leaseendToken n) := by rw [answerEnds, he]
  rw [given]
  exact giveAnswer_gives s r.eid e _

theorem takeLeaseend_live {r : CtrlReq} (ctrl : s.ctrlOf i false = some r) (cluster : r.cluster = g)
    (slot : nth (s.cluster g).slots k none = some l) (named : (s.cluster g).slotOf i l.handle = some k)
    (bound : (s.insts.find i).isSome = true) :
    s.takeLeaseend r l.handle = answerEnds ((s.dropCtrl r).endLease g k endLEASEEND) r 1 := by
  obtain ⟨x, found⟩ := Option.isSome_iff_exists.1 bound
  have inst := slotOf_inst named slot
  have told : ((s.dropCtrl r).endLease g k endLEASEEND).insts.find i = some (x.without l endLEASEEND s.now _ _) :=
    inst ▸ endLease_insts_self (s := s.dropCtrl r) slot (inst ▸ found)
  have named' : ((s.dropCtrl r).cluster g).slotOf i l.handle = some k := named
  have known : ((l.handle, endLEASEEND) :: x.ended.take 7).find? (fun e => e.1 == l.handle) = some (l.handle, endLEASEEND) :=
    List.find?_cons_of_pos (beq_self_eq_true l.handle)
  simp only [State.takeLeaseend, ctrlOf_inst ctrl, cluster, named', told, Option.bind_some, Inst.without, List.take_succ_cons,
    known, Option.map_some, Option.getD_some]
  rfl

theorem takeLeaseend_unknown {r : CtrlReq} {h : Word} (ctrl : s.ctrlOf i false = some r) (cluster : r.cluster = g)
    (unnamed : (s.cluster g).slotOf i h = none) (unknown : ∀ x, s.insts.find i = some x → ∀ e ∈ x.ended, e.1 ≠ h) :
    s.takeLeaseend r h = answerEnds (s.dropCtrl r) r 0 := by
  have unnamed' : ((s.dropCtrl r).cluster g).slotOf i h = none := unnamed
  have none_ : (((s.dropCtrl r).insts.find i).bind (fun x => (x.ended.find? (fun e => e.1 == h)).map (·.2))) = none := by
    cases found : s.insts.find i with
    | none => exact congrArg (Option.bind · _) found
    | some x =>
      have absent : x.ended.find? (fun e => e.1 == h) = none := List.find?_eq_none.2 fun e he => by simpa using unknown x found e he
      exact (congrArg (Option.bind · _) found).trans (by simp [absent])
  simp only [State.takeLeaseend, ctrlOf_inst ctrl, cluster, unnamed', none_, Option.getD_none]
  rfl

/-! ## LEASE_BUFFER_ENQUEUE (R116) -/

theorem leaseBufferEnqueue_eq {x : Inst} {tok : Token} {rest : List Token} {eid : Nat} {q : Fin 4} (subject : s.subject.1 = i)
    (found : s.insts.find i = some x) (buffered : x.leaseBuf = tok :: rest) (port : x.leasePort = some (eid, q))
    (inst : (s.elem eid).inst = some i) (room : (s.elem eid).inRoom q.val = true) (run : (s.elem eid).state = .run)
    (hops : (s.tile (tileOf eid)).hopsStopped = false) :
    exec .leaseBufferEnqueue s = .next (putIn eid q.val tok (s.modInst i (fun x => { x with leaseBuf := rest }))) := by
  have goes : (decide ((s.elem eid).inst ≠ some i) || !(s.elem eid).inRoom q.val || (s.tile (tileOf eid)).hopsStopped) = false := by
    simp [inst, room, hops]
  have live (u : State) (h : (u.elem eid).state = .run) : u.checkLive eid = u := by simp [State.checkLive, h]
  have now : (s.modInst i (fun x => { x with leaseBuf := rest })).now = s.now := State.modInst_now ..
  simp only [exec, execLeaseBufferEnqueue, subject, found, buffered, port, goes, State.acceptToken]
  rw [live]
  · rfl
  · rw [State.elem_modElem_self]
    exact (congrArg Element.state (State.elem_congr (State.modInst_elems ..) eid)).trans run

end

end Sys2Proof.Claims
end

section
namespace Sys2Proof.Claims
open Sys2Proof.Machine

theorem answerLease_gives (s : State) (eid : Nat) (entry : Option Nat) (status us : Nat) (handle : Word) : ∀ e, entry = some e →
    Answered s (s.answerLease eid entry status us handle) eid e (leaseToken status us handle) := fun e he => by
  subst he
  exact giveAnswer_gives s eid e _

/-- A lease that has ended, and the LEASEEND that asked for it is answered. -/
theorem ended_answerEnds {s t : State} {g k n : Nat} {l : Lease} (h : Ended s t g k l n) (r : CtrlReq) (m : Nat) :
    Ended s (answerEnds t r m) g k l n := by
  have rest := answerEnds_rest t r m
  obtain ⟨frame, answers, others, insts, slots, melt, told⟩ := h
  have clusters := State.cluster_congr (congrArg State.clusters rest)
  have sameInsts : (answerEnds t r m).insts = t.insts := by rw [rest]
  refine ⟨?_, fun e => ?_, ?_, ?_, ?_, ?_, ?_⟩
  · rw [rest, frame]
  · rw [answerEnds_only t r m e, answers e]
  all_goals simp only [clusters, sameInsts]; assumption

theorem leaseEvents_happen (g k i : Nat) (l : Lease) (r : CtrlReq) (h : Word) (tm eid : Nat) (q : Fin 4) (tok : Token) (rest : List Token)
    (x : Inst) (y : Launch) (a b : Task) (j : Nat) : Happen (leaseEvents g k i l r h tm eid q tok rest x y a b j) := by
  refine .cons (fun s hs => ?reached) <| .cons (fun s hs => ?expires) <| .cons (fun s hs => ?traps) <| .cons (fun s hs => ?ends) <|
    .cons (fun s hs => ?unknown) <| .cons (becomes_holds fun s hs => ?buffer) .nil
  case reached =>
    obtain ⟨subject, ⟨slot, known⟩, waits, reached⟩ := hs
    have rest := answerLease_rest (s.beginLease g k l) l.eid l.entry 0 l.us l.handle
    have clusters := congrArg State.clusters rest
    refine ⟨_, railReached_eq subject slot waits reached, ?_, (answerLease_only ..).elem, fun n hn => ?_, ?_,
      answerLease_gives (s.beginLease g k l) l.eid l.entry 0 l.us l.handle⟩
    · rw [rest]
      rfl
    · rw [State.cluster_congr clusters]
      exact State.cluster_modCluster_ne _ _ hn
    · rw [State.cluster_congr clusters]
      exact State.cluster_modCluster_self _ _ _ known
  case expires =>
    obtain ⟨⟨subject, ⟨slot, known⟩, begun, due, turn, unasked⟩, soft⟩ := hs
    have traps := traps_of_soft soft endEXPIRY
    have eq := endAll_soft (reason := endEXPIRY) known slot (fun n w _ h => unasked n w h) traps
    refine ⟨_, (leaseExpiry_eq subject slot begun due turn).trans (congrArg _ eq), endLease_ended known slot traps (by decide) (by decide),
      (endLease_begun slot (by rw [begun]; rfl)).1, ?_⟩
    rw [(endLease_ends (k := k) (reason := endEXPIRY) known).rest]
  case traps =>
    obtain ⟨⟨subject, ⟨slot, known⟩, begun, due, turn, unasked⟩, may⟩ := hs
    have traps : l.traps endEXPIRY = true := traps_of_hard may.1 (.inl rfl)
    have taken := trap_taken (trapReady_of_mayTrap (reason := endEXPIRY) may slot)
    have eq := endAll_hard (reason := endEXPIRY) may slot (fun n w _ h => unasked n w h) traps
    refine ⟨_, (leaseExpiry_eq subject slot begun due turn).trans (congrArg _ eq), ?_, ?_, endLease_trapped may slot traps⟩
    · rw [taken.rest]
      exact (congrArg Cluster.slots (endLease_cluster known slot)).trans (Cluster.freed_slots ..)
    · rw [taken.rest]
      exact (endLease_begun slot (by rw [begun]; rfl)).1
  case ends =>
    obtain ⟨⟨subject, ctrl, ask, turn, cluster⟩, ⟨slot, known⟩, rfl, named, begun, bound⟩ := hs
    have soft : l.traps endLEASEEND = false := Bool.and_false _
    have ended := endLease_ended (s := s.dropCtrl r) known slot soft (by decide) (by decide)
    have elems : ((s.dropCtrl r).endLease g k endLEASEEND).elems = s.elems := (endLease_begun (s := s.dropCtrl r) slot begun).1
    have queue : ((s.dropCtrl r).endLease g k endLEASEEND).ctrlQ = s.ctrlQ.erase r := by
      rw [(endLease_ends (s := s.dropCtrl r) (k := k) (reason := endLEASEEND) known).rest]
      rfl
    refine ⟨_, (leaseendRequest_eq subject ctrl ask turn).trans (congrArg _ (takeLeaseend_live ctrl cluster slot named bound)),
      ended_answerEnds ended r 1, fun e he b hb =>
        answerEnds_gives _ r 1 e he b (congrArg Element.ans (State.elem_congr elems r.eid) ▸ hb), ?_⟩
    rw [answerEnds_rest]
    exact queue
  case unknown =>
    obtain ⟨⟨subject, ctrl, ask, turn, cluster⟩, unnamed, unknown⟩ := hs
    refine ⟨_, (leaseendRequest_eq subject ctrl ask turn).trans (congrArg _ (takeLeaseend_unknown ctrl cluster unnamed unknown)),
      answerEnds_gives (s.dropCtrl r) r 0, ?_, answerEnds_only (s.dropCtrl r) r 0⟩
    rw [answerEnds_rest]
    rfl
  case buffer =>
    obtain ⟨subject, ⟨x, found, buffered, port⟩, inst, room, run, hops⟩ := hs
    exact leaseBufferEnqueue_eq subject found buffered port inst room run hops

end Sys2Proof.Claims
end

/-! # Requests of leases (R111, R112, R118, R334) -/

section
namespace Sys2Proof.Machine

/-! ## The point in force (R107) -/

/-- The highest point of a list of slots, or the one given. -/
def highest (l : List (Option Lease)) (m : Nat) : Nat :=
  l.foldl (fun m l => match l with
    | some l => max m l.point
    | none => m) m

theorem highest_max (l : List (Option Lease)) (m n : Nat) : highest l (max m n) = max (highest l m) n := by
  induction l generalizing m with
  | nil => rfl
  | cons e l ih =>
    cases e with
    | none => exact ih m
    | some y =>
      have swap : max (max m n) y.point = max (max m y.point) n := by omega
      calc highest (some y :: l) (max m n) = highest l (max (max m n) y.point) := rfl
        _ = max (highest (some y :: l) m) n := by rw [swap, ih]; rfl

/-- A lease more in a free slot. -/
theorem highest_set {l : List (Option Lease)} {n : Nat} (h : l[n]? = some none) (y : Lease) (m : Nat) :
    highest (l.set n (some y)) m = max (highest l m) y.point := by
  induction l generalizing n m with
  | nil => cases h
  | cons e l ih =>
    cases n with
    | zero =>
      cases h
      exact highest_max l m y.point
    | succ n =>
      cases e with
      | none => exact ih h m
      | some w => exact ih h (max m w.point)

/-! ## The parts of a decision -/

/-- SATCNT counts a point above MAXOP, and a time above MAXUS (R118). -/
def State.saturated (s : State) (v us point : Nat) : State :=
  let u := if (s.vf v).maxop.toNat < point then s.modVf v Vf.saturate else s
  if (s.vf v).maxus.toNat < us then u.modVf v Vf.saturate else u

/-- What a request may have of power and time, once its clamps are applied. -/
def State.price (s : State) (x : Inst) (d k : Nat) : Nat × Nat × Nat × State :=
  let c := s.cluster x.cluster
  let (num, den) := s.projected c (max k c.opnow)
  let others := total ((List.range 16).map (fun h => if h = x.cluster then 0 else
    (let y := s.projected (s.cluster h) (s.cluster h).opnow
     y.1 / y.2)))
  if s.sprintw.toNat * den < others * den + num then (stBUDGET, 0, 0, s)
  else
    let cool := c.cshare.toNat * den
    if num ≤ cool then (stGRANTED, d, k, s)
    else
      let a := (c.ceiling.toNat - c.melt16) * 2400 * 1000000 * den
      let b := 65536 * (num - cool)
      if a < 100 * b then (stMELT, 0, 0, s) else (stGRANTED, min d (a / b), k, s)

/-- A request is refused. -/
def State.refuseLease (s : State) (r : CtrlReq) (status : Nat) : State :=
  (s.answerLease r.eid r.entry status 0 0).modCluster r.cluster (fun c => { c with refusedN := c.refusedN + 1 })

/-- A cluster with a lease more, in its lowest free slot. -/
def Cluster.withLease (c : Cluster) (y : Lease) (now : Nat) : Cluster :=
  { c with
    slots := c.slots.set (c.slots.findIdx (fun y : Option Lease => y.isNone)) (some y), serial := c.serial + 1, granted := c.granted + 1,
    melt := if c.melt == Melt.cool then .sprint else c.melt }.setPoint now

/-- The lease that is granted to one of the instances. -/
def State.leaseOf (s : State) (x : Inst) (i : Nat) (r : CtrlReq) (d k : Nat) (hard : Bool) : Lease :=
  let c := s.cluster r.cluster
  let slot := c.slots.findIdx (fun y : Option Lease => y.isNone)
  ⟨leaseHandle c.serial r.cluster slot k, i, x.launch, x.task, x.vf, r.eid, k, hard, d, none, r.entry, s.grants, []⟩

/-- A request is granted. -/
def State.grantLease (s : State) (x : Inst) (i : Nat) (r : CtrlReq) (d k : Nat) (hard : Bool) : State :=
  { s with
    clusters := upd s.clusters r.cluster (fun _ => (s.cluster r.cluster).withLease (s.leaseOf x i r d k hard) s.now)
    grants := s.grants + 1 }

theorem satcnt_saturate (v : Vf) : v.saturate.satcnt = BitVec.ofNat 16 (min 0xFFFF (v.satcnt.toNat + 1)) := by
  refine BitVec.eq_of_toNat_eq ?_
  unfold Vf.saturate
  by_cases full : v.satcnt = BitVec.allOnes 16
  · simp [full]
  · have below : v.satcnt.toNat ≠ 65535 := fun h => full (BitVec.eq_of_toNat_eq (h.trans rfl))
    have bound := v.satcnt.isLt
    have one : (1 : BitVec 16).toNat = 1 := rfl
    simp only [if_neg full, BitVec.toNat_add, BitVec.toNat_ofNat, one]
    omega

/-- What SATCNT counts for a request. -/
theorem saturated_vf (s : State) (v us point : Nat) : (s.saturated v us point).vf v = { s.vf v with
    satcnt := BitVec.ofNat 16 (min 0xFFFF ((s.vf v).satcnt.toNat + (if (s.vf v).maxop.toNat < point then 1 else 0) +
      (if (s.vf v).maxus.toNat < us then 1 else 0))) } := by
  have once (w : Vf) : w.saturate = { w with satcnt := BitVec.ofNat 16 (min 0xFFFF (w.satcnt.toNat + 1)) } := by
    rw [← satcnt_saturate]
    rfl
  have zero (w : Vf) : w = { w with satcnt := BitVec.ofNat 16 (min 0xFFFF (w.satcnt.toNat + 0 + 0)) } := by
    have : min 0xFFFF (w.satcnt.toNat + 0 + 0) = w.satcnt.toNat := by have := w.satcnt.isLt; omega
    rw [this, BitVec.ofNat_toNat, BitVec.setWidth_eq]
  unfold State.saturated
  dsimp only
  split <;> split
  · rw [State.vf_modVf_self, State.vf_modVf_self, once, once]
    congr 1
    refine BitVec.eq_of_toNat_eq ?_
    simp only [BitVec.toNat_ofNat]
    omega
  · rw [State.vf_modVf_self, once]
  · rw [State.vf_modVf_self, once]
  · exact zero _

theorem saturated_vf_ne (s : State) {v n : Nat} (us point : Nat) (h : n ≠ v) : (s.saturated v us point).vf n = s.vf n := by
  unfold State.saturated
  dsimp only
  split <;> split <;> simp only [State.vf_modVf_ne _ _ h]

theorem saturated_rest (s : State) (v us point : Nat) : s.saturated v us point = { s with vfs := (s.saturated v us point).vfs } := by
  unfold State.saturated
  dsimp only
  split <;> split <;> rfl

/-- Within the clamps nothing is counted. -/
theorem saturated_none {s : State} {v us point : Nat} (op : point ≤ (s.vf v).maxop.toNat) (time : us ≤ (s.vf v).maxus.toNat) :
    s.saturated v us point = s := by
  simp only [State.saturated, if_neg (Nat.not_lt.2 op), if_neg (Nat.not_lt.2 time)]

theorem withLease_kept (c : Cluster) (y : Lease) (now : Nat) : c.withLease y now =
    { c with
      slots := c.slots.set (c.slots.findIdx (fun y : Option Lease => y.isNone)) (some y), serial := c.serial + 1, granted := c.granted + 1
      melt := if c.melt = .cool then .sprint else c.melt, opnow := (c.withLease y now).opnow, volt := (c.withLease y now).volt
      rampEnd := (c.withLease y now).rampEnd } := by
  rw [Cluster.withLease, setPoint_kept]
  simp only [beq_iff_eq]

/-- The point in force is the higher of the former and the granted one. -/
theorem withLease_opnow {c : Cluster} (hole : c.slots.findIdx (fun y : Option Lease => y.isNone) < c.slots.length) (y : Lease) (now : Nat) :
    (c.withLease y now).opnow = max c.point y.point := by
  have empty : c.slots[c.slots.findIdx (fun y : Option Lease => y.isNone)]? = some none := by
    have := List.findIdx_getElem (w := hole)
    rw [List.getElem?_eq_getElem hole]
    exact congrArg some (Option.isNone_iff_eq_none.1 this)
  rw [Cluster.withLease, setPoint_opnow]
  exact highest_set empty y c.baseop.toNat

end Sys2Proof.Machine

namespace Sys2Proof.Claims
open Sys2Proof.Machine

section
variable {s : State} {x : Inst} {i us point : Nat} {hard : Bool}

/-! ## The decision (R111) -/

theorem mayLease_iff : (x.leaseOff || !(((s.task? x.launch x.task).map (fun t : Task => t.gw)).getD { }).leaseOk ||
    (hard && !(((s.task? x.launch x.task).map (fun t : Task => t.gw)).getD { }).hardOk)) = false ↔ MayLease s x hard := by
  unfold MayLease
  cases s.task? x.launch x.task with
  | none => simp
  | some t => cases hard <;> simp [and_assoc]

theorem clamped_iff : ((s.vf x.vf).maxop.toNat = 3 || (s.vf x.vf).maxn.toNat ≤ s.leasesWith (·.vf = x.vf) ||
    4 ≤ s.leasesWith (·.inst = i) + x.leaseBuf.length || (s.cluster x.cluster).slots.all (·.isSome)) = true ↔ Clamped s i x := by
  have three : (s.vf x.vf).maxop.toNat = 3 ↔ (s.vf x.vf).maxop = 3 :=
    ⟨fun h => BitVec.eq_of_toNat_eq h, fun h => by rw [h]; rfl⟩
  simp only [Clamped, Bool.or_eq_true, decide_eq_true_eq, List.all_eq_true, or_assoc, three]

theorem decideLease_notask (h : ¬MayLease s x hard) : s.decideLease x i us point hard = (stNOTASK, 0, 0, s) := by
  have test := Bool.eq_true_of_not_eq_false (fun e => h (mayLease_iff.1 e))
  simp only [State.decideLease, test, if_true]

theorem decideLease_clamp (h : MayLease s x hard) (k : Clamped s i x) : s.decideLease x i us point hard = (stCLAMP, 0, 0, s) := by
  simp only [State.decideLease, mayLease_iff.2 h, clamped_iff.2 k, if_true, Bool.false_eq_true, if_false]

theorem decideLease_refreeze (h : MayLease s x hard) (k : ¬Clamped s i x) (m : (s.cluster x.cluster).melt = .refreeze) :
    s.decideLease x i us point hard = (stREFREEZE, 0, 0, s) := by
  have open_ := Bool.eq_false_iff.2 fun e => k (clamped_iff.1 e)
  simp only [State.decideLease, mayLease_iff.2 h, open_, m, Bool.false_eq_true, if_false, beq_self_eq_true, if_true]

theorem decideLease_price (h : MayLease s x hard) (k : ¬Clamped s i x) (m : (s.cluster x.cluster).melt ≠ .refreeze) :
    s.decideLease x i us point hard =
      (s.saturated x.vf us point).price x (min us (s.vf x.vf).maxus.toNat) (min point (s.vf x.vf).maxop.toNat) := by
  have open_ := Bool.eq_false_iff.2 fun e => k (clamped_iff.1 e)
  have warm : ((s.cluster x.cluster).melt == .refreeze) = false := beq_eq_false_iff_ne.2 m
  simp only [State.decideLease, mayLease_iff.2 h, open_, warm, Bool.false_eq_true, if_false]
  unfold State.saturated
  dsimp only
  split <;> split <;> rfl

/-- The power of the other clusters. -/
def othersPwr (s : State) (g : Nat) : Nat := total ((List.range 16).map (fun h => if h = g then 0 else (s.cluster h).pwr.toNat))

theorem projected_eq {c : Cluster} (h : nth s.factors c.opnow 0 ≠ 0) (n : Nat) :
    s.projected c n = (c.pwr.toNat * (nth s.factors n 0).toNat, (nth s.factors c.opnow 0).toNat) := by
  have positive : (nth s.factors c.opnow 0).toNat ≠ 0 := fun e => h (BitVec.eq_of_toNat_eq e)
  simp only [State.projected, if_neg positive]

/-- At its own point a power is projected to itself. -/
theorem projected_self {c : Cluster} (h : nth s.factors c.opnow 0 ≠ 0) :
    (s.projected c c.opnow).1 / (s.projected c c.opnow).2 = c.pwr.toNat := by
  have positive : (nth s.factors c.opnow 0).toNat ≠ 0 := fun e => h (BitVec.eq_of_toNat_eq e)
  rw [projected_eq h]
  exact Nat.mul_div_cancel _ (Nat.pos_of_ne_zero positive)

open Classical in
theorem price_eq (own : nth s.factors (s.cluster x.cluster).opnow 0 ≠ 0) (all : ∀ g < 16, nth s.factors (s.cluster g).opnow 0 ≠ 0)
    (d k : Nat) : s.price x d k =
      if within s x.cluster (max k (s.cluster x.cluster).opnow) s.sprintw.toNat (othersPwr s x.cluster) then
        if within s x.cluster (max k (s.cluster x.cluster).opnow) (s.cluster x.cluster).cshare.toNat 0 then (stGRANTED, d, k, s)
        else if usLeft s x.cluster (max k (s.cluster x.cluster).opnow) < 100 then (stMELT, 0, 0, s)
        else (stGRANTED, min d (usLeft s x.cluster (max k (s.cluster x.cluster).opnow)), k, s)
      else (stBUDGET, 0, 0, s) := by
  have others : (List.range 16).map (fun h => if h = x.cluster then 0 else
      (s.projected (s.cluster h) (s.cluster h).opnow).1 / (s.projected (s.cluster h) (s.cluster h).opnow).2) =
      (List.range 16).map (fun h => if h = x.cluster then 0 else (s.cluster h).pwr.toNat) :=
    List.map_congr_left fun h hh => by rw [projected_self (all h (List.mem_range.1 hh))]
  simp only [State.price, others, projected_eq own]
  by_cases paid : within s x.cluster (max k (s.cluster x.cluster).opnow) s.sprintw.toNat (othersPwr s x.cluster)
  · rw [if_pos paid]
    refine (if_neg (Nat.not_lt.2 paid)).trans ?_
    have share := Nat.zero_add ((s.cluster x.cluster).pwr.toNat * (nth s.factors (max k (s.cluster x.cluster).opnow) 0).toNat)
    by_cases cold : within s x.cluster (max k (s.cluster x.cluster).opnow) (s.cluster x.cluster).cshare.toNat 0
    · rw [if_pos cold]
      rw [within, Nat.zero_mul, share] at cold
      exact if_pos cold
    · rw [if_neg cold]
      rw [within, Nat.zero_mul, share] at cold
      refine (if_neg cold).trans (if_congr ?_ rfl rfl)
      exact (Nat.div_lt_iff_lt_mul (Nat.mul_pos (by decide) (Nat.sub_pos_of_lt (Nat.not_le.1 cold)))).symm
  · rw [if_neg paid]
    exact if_pos (Nat.not_le.1 paid)

/-! ## LEASE_REQUEST -/

section
variable {r : CtrlReq}

theorem Requests.goes (h : Requests s i x r us point hard) : (s.lastMs.isNone || !s.ctrlTurn r.key) = false := by
  obtain ⟨-, -, -, -, started, turn, -⟩ := h
  rw [turn, Bool.not_true, Bool.or_false, ← Option.not_isSome, started]
  rfl

theorem leaseRequest_refused {d k status : Nat} {u : State} (h : Requests s i x r us point hard)
    (decided : (s.dropCtrl r).decideLease x i us point hard = (status, d, k, u)) (refused : status ≠ stGRANTED) :
    exec .leaseRequest s = .next (u.refuseLease r status) := by
  have goes := h.goes
  obtain ⟨subject, ctrl, ask, found, -⟩ := h
  simp only [exec, execLeaseRequest, subject, ctrl, found, ask, goes, decided, if_pos refused]
  rfl

theorem leaseRequest_granted {d k : Nat} {u : State} (h : Requests s i x r us point hard)
    (decided : (s.dropCtrl r).decideLease x i us point hard = (stGRANTED, d, k, u)) :
    exec .leaseRequest s = .next (u.grantLease x i r d k hard) := by
  have goes := h.goes
  obtain ⟨subject, ctrl, ask, found, -⟩ := h
  simp only [exec, execLeaseRequest, subject, ctrl, found, ask, goes, decided, State.grantLease, Cluster.withLease, ← upd_const]
  rfl

/-- What a refusal changes. -/
theorem refuseLease_only (s : State) (r : CtrlReq) (status : Nat) :
    OnlyRefused s ((s.dropCtrl r).refuseLease r status) r ∧ LeaseAnswer s ((s.dropCtrl r).refuseLease r status) r status := by
  have rest := answerLease_rest (s.dropCtrl r) r.eid r.entry status 0 0
  refine ⟨⟨?_, (answerLease_only (s.dropCtrl r) r.eid r.entry status 0 0).elem⟩, answerLease_gives (s.dropCtrl r) r.eid r.entry status 0 0⟩
  rw [State.refuseLease, State.modCluster, rest]
  rfl

theorem leaseRequest_refuses {status : Nat} (h : Requests s i x r us point hard)
    (decided : (s.dropCtrl r).decideLease x i us point hard = (status, 0, 0, s.dropCtrl r)) (refused : status ≠ stGRANTED) :
    ∃ t, exec .leaseRequest s = .next t ∧ OnlyRefused s t r ∧ LeaseAnswer s t r status :=
  ⟨_, leaseRequest_refused h decided refused, refuseLease_only s r status⟩

/-- What a grant changes. -/
theorem grantLease_granted {u : State} {d k : Nat} (h : Requests s i x r us point hard) (free : ¬Clamped s i x)
    (rest : u = { s.dropCtrl r with vfs := u.vfs }) (vfs : ∀ v, v ≠ x.vf → u.vf v = s.vf v) :
    Granted s (u.grantLease x i r d k hard) i x r d k hard := by
  obtain ⟨-, -, -, -, -, -, cluster, known⟩ := h
  have same : ∀ g, u.cluster g = s.cluster g := State.cluster_congr (by rw [rest]; rfl)
  have count : x.cluster < u.clusters.length := by rw [rest]; exact known
  have self : (u.grantLease x i r d k hard).cluster x.cluster = (u.cluster x.cluster).withLease (u.leaseOf x i r d k hard) u.now := by
    rw [State.grantLease, cluster]
    exact nth_upd_self _ _ _ _ count
  have hole : ∃ y ∈ (s.cluster x.cluster).slots, y.isNone = true := by
    by_contra full
    exact free (.inr (.inr (.inr fun y hy => by
      by_contra empty
      exact full ⟨y, hy, by simpa using empty⟩)))
  have lower := List.findIdx_lt_length_of_exists hole
  have slot : (s.cluster x.cluster).slots[(s.cluster x.cluster).slots.findIdx (fun y : Option Lease => y.isNone)] = none :=
    Option.isNone_iff_eq_none.1 (List.findIdx_getElem (w := lower))
  refine ⟨?_, fun g hg => ?_, vfs, ?_, (s.cluster x.cluster).slots.findIdx (fun y : Option Lease => y.isNone), u.leaseOf x i r d k hard, ?_,
    fun m hm => ?_, ?_, ?_, rfl, rfl, rfl, rfl, rfl, rfl, rfl, ?_, ?_, ?_⟩
  · rw [State.grantLease, rest]
    rfl
  · rw [← same g]
    exact nth_upd_ne _ _ _ (by rw [cluster]; exact hg)
  · rw [self, withLease_kept, same]
  · rw [nth, List.getElem?_eq_getElem lower, slot]
    rfl
  · have taken := List.not_of_lt_findIdx hm
    rw [nth, List.getElem?_eq_getElem (hm.trans lower), Option.getD_some]
    exact fun empty => by simp [empty] at taken
  · rw [self, withLease_kept, same]
  · simp only [State.leaseOf, cluster, same]
    rfl
  · rw [self, withLease_kept, same]
  · rw [self, withLease_kept, same]
  · rw [self, same, withLease_opnow lower]
    rfl

end

/-! ## The rules -/

open Classical in
/-- How a request is decided that no status refuses before its power is priced. -/
theorem decideLease_eq (r : CtrlReq) (may : MayLease s x hard) (free : ¬Clamped s i x) (warm : (s.cluster x.cluster).melt ≠ .refreeze)
    (own : nth s.factors (s.cluster x.cluster).opnow 0 ≠ 0) (all : ∀ g < 16, nth s.factors (s.cluster g).opnow 0 ≠ 0) {d k : Nat}
    (hd : min us (s.vf x.vf).maxus.toNat = d) (hk : min point (s.vf x.vf).maxop.toNat = k) :
    (s.dropCtrl r).decideLease x i us point hard =
      let u := (s.dropCtrl r).saturated x.vf us point
      let top := max k (s.cluster x.cluster).opnow
      if within s x.cluster top s.sprintw.toNat (othersPwr s x.cluster) then
        if within s x.cluster top (s.cluster x.cluster).cshare.toNat 0 then (stGRANTED, d, k, u)
        else if usLeft s x.cluster top < 100 then (stMELT, 0, 0, u) else (stGRANTED, min d (usLeft s x.cluster top), k, u)
      else (stBUDGET, 0, 0, u) := by
  subst hd hk
  have rest := saturated_rest (s.dropCtrl r) x.vf us point
  refine (decideLease_price (s := s.dropCtrl r) may free warm).trans ?_
  generalize (s.dropCtrl r).saturated x.vf us point = u at rest ⊢
  rw [rest]
  exact price_eq (s := { s.dropCtrl r with vfs := u.vfs }) own all _ _

open Classical in
/-- Within the clamps it is decided as it was asked. -/
theorem decideLease_open (r : CtrlReq) (may : MayLease s x hard) (free : ¬Clamped s i x) (warm : (s.cluster x.cluster).melt ≠ .refreeze)
    (own : nth s.factors (s.cluster x.cluster).opnow 0 ≠ 0) (all : ∀ g < 16, nth s.factors (s.cluster g).opnow 0 ≠ 0)
    (op : point ≤ (s.vf x.vf).maxop.toNat) (time : us ≤ (s.vf x.vf).maxus.toNat) :
    (s.dropCtrl r).decideLease x i us point hard =
      let top := max point (s.cluster x.cluster).opnow
      if within s x.cluster top s.sprintw.toNat (othersPwr s x.cluster) then
        if within s x.cluster top (s.cluster x.cluster).cshare.toNat 0 then (stGRANTED, us, point, s.dropCtrl r)
        else if usLeft s x.cluster top < 100 then (stMELT, 0, 0, s.dropCtrl r)
        else (stGRANTED, min us (usLeft s x.cluster top), point, s.dropCtrl r)
      else (stBUDGET, 0, 0, s.dropCtrl r) := by
  rw [decideLease_eq r may free warm own all (Nat.min_eq_left time) (Nat.min_eq_left op),
    saturated_none (s := s.dropCtrl r) op time]

theorem requestRules_happen (i : Nat) (x : Inst) (r : CtrlReq) (us point : Nat) (hard : Bool) :
    Happen (requestRules i x r us point hard) := by
  refine .cons (fun s hs => ?notask) <| .cons (fun s hs => ?clamp) <| .cons (fun s hs => ?refreeze) <| .cons (fun s hs => ?budget) <|
    .cons (fun s hs => ?melt) <| .cons (fun s hs => ?full) <| .cons (fun s hs => ?less) <| .cons (fun s hs => ?saturated) .nil
  case notask =>
    obtain ⟨req, may⟩ := hs
    exact leaseRequest_refuses req (decideLease_notask (s := s.dropCtrl r) may) (by decide)
  case clamp =>
    obtain ⟨req, may, clamped⟩ := hs
    exact leaseRequest_refuses req (decideLease_clamp (s := s.dropCtrl r) may clamped) (by decide)
  case refreeze =>
    obtain ⟨⟨req, may, free⟩, cold⟩ := hs
    exact leaseRequest_refuses req (decideLease_refreeze (s := s.dropCtrl r) may free cold) (by decide)
  case budget =>
    obtain ⟨⟨⟨⟨req, may, free⟩, warm, own, all⟩, op, time⟩, unpaid⟩ := hs
    have decided := decideLease_open r may free warm own all op time
    exact leaseRequest_refuses req (decided.trans (if_neg unpaid)) (by decide)
  case melt =>
    obtain ⟨⟨⟨⟨req, may, free⟩, warm, own, all⟩, op, time⟩, paid, hot, short⟩ := hs
    have decided := decideLease_open r may free warm own all op time
    exact leaseRequest_refuses req (decided.trans ((if_pos paid).trans ((if_neg hot).trans (if_pos short)))) (by decide)
  case full =>
    obtain ⟨⟨⟨⟨req, may, free⟩, warm, own, all⟩, op, time⟩, paid, cold⟩ := hs
    have decided := decideLease_open r may free warm own all op time
    exact ⟨_, leaseRequest_granted req (decided.trans ((if_pos paid).trans (if_pos cold))),
      grantLease_granted req free rfl fun _ _ => rfl, rfl⟩
  case less =>
    obtain ⟨⟨⟨⟨req, may, free⟩, warm, own, all⟩, op, time⟩, paid, hot, long⟩ := hs
    have decided := decideLease_open r may free warm own all op time
    exact ⟨_, leaseRequest_granted req (decided.trans ((if_pos paid).trans ((if_neg hot).trans (if_neg (Nat.not_lt.2 long))))),
      grantLease_granted req free rfl fun _ _ => rfl, rfl⟩
  case saturated =>
    obtain ⟨⟨⟨req, may, free⟩, warm, own, all⟩, -, paid, cold⟩ := hs
    have decided := decideLease_eq (us := us) (point := point) r may free warm own all rfl rfl
    exact ⟨_, leaseRequest_granted req (decided.trans ((if_pos paid).trans (if_pos cold))),
      grantLease_granted req free (saturated_rest ..) fun v hv => saturated_vf_ne (s.dropCtrl r) us point hv,
      saturated_vf (s.dropCtrl r) x.vf us point⟩

end

end Sys2Proof.Claims
end

/-! # Buckets and the gates of tiles (R86, R119, R122 to R124) -/

section
namespace Sys2Proof.Machine

/-! ## BUCKET_REFILL -/

/-- One of the instances after a refill of the buckets of a cluster. -/
def Inst.refill (g depth due : Nat) (x : Inst) : Inst :=
  if x.cluster = g && (x.phase == .run || x.phase == .teardown || x.phase == .saving) then
    { x with bucket := min (max x.bucket depth) (x.bucket + due) }
  else x

theorem refill_running {x : Inst} {g depth due : Nat} (here : x.cluster = g) (phase : x.phase = .run ∨ x.phase = .teardown ∨ x.phase = .saving)
    (below : x.bucket ≤ depth) : x.refill g depth due = { x with bucket := min depth (x.bucket + due) } := by
  have runs : (x.cluster = g && (x.phase == .run || x.phase == .teardown || x.phase == .saving)) = true := by
    simpa [here, or_assoc] using phase
  rw [Inst.refill, if_pos runs, Nat.max_eq_right below]

theorem refill_elsewhere {x : Inst} {g : Nat} (depth due : Nat) (elsewhere : x.cluster ≠ g) : x.refill g depth due = x := by
  rw [Inst.refill, if_neg (by simp [elsewhere])]

/-- The buckets of a cluster have been given what whole microseconds have brought. -/
def State.refilled (s : State) (g : Nat) : State := s.modCluster g (fun c => { c with refilled := s.now / 1000 })

section
variable {s : State} {g : Nat}

theorem bucketRefill_off (subject : s.subject.1 = g) (due : (s.cluster g).refilled < s.now / 1000) (off : (s.cluster g).injEn = false) :
    exec .bucketRefill s = .next (s.refilled g) := by
  have some_ : s.now / 1000 - (s.cluster g).refilled ≠ 0 := by omega
  simp only [exec, execBucketRefill, subject, if_neg some_, off]
  rfl

theorem bucketRefill_on (subject : s.subject.1 = g) (due : (s.cluster g).refilled < s.now / 1000) (on : (s.cluster g).injEn = true) :
    exec .bucketRefill s = .next { s.refilled g with insts := s.insts.map (fun x => (x.1,
      x.2.refill g (s.cluster g).injDepth.toNat ((s.now / 1000 - (s.cluster g).refilled) * (s.cluster g).reff))) } := by
  have some_ : s.now / 1000 - (s.cluster g).refilled ≠ 0 := by omega
  have each (n d : Nat) (x : Nat × Inst) : (if (x.2.cluster = g && (x.2.phase == .run || x.2.phase == .teardown || x.2.phase == .saving)) = true
      then (x.1, { x.2 with bucket := min (max x.2.bucket d) (x.2.bucket + n) }) else x) = (x.1, x.2.refill g d n) := by
    unfold Inst.refill
    split <;> rfl
  simp only [exec, execBucketRefill, subject, if_neg some_, on, each]
  rfl

end

/-! ## Retained images -/

/-- An element without a retained image. -/
def Element.unretained (e : Element) : Element :=
  match e.staged with
  | .retained _ _ => { e with staged := .none }
  | _ => e

theorem unretained_staged (e : Element) : e.unretained = { e with staged := e.unretained.staged } := by
  unfold Element.unretained
  split <;> rfl

theorem unretained_ne (e : Element) (h : BitVec 256) (b : Bank) : e.unretained.staged ≠ .retained h b := by
  unfold Element.unretained
  split
  · exact fun e => nomatch e
  · rename_i other
    exact other h b

theorem unretained_of_retained {e : Element} {h : BitVec 256} {b : Bank} (staged : e.staged = .retained h b) :
    e.unretained = { e with staged := .none } := by simp only [Element.unretained, staged]

theorem unretained_of_ne {e : Element} (other : ∀ h b, e.staged ≠ .retained h b) : e.unretained = e := by
  unfold Element.unretained
  split
  · exact absurd ‹_› (other _ _)
  · rfl

theorem unretained_unretained (e : Element) : e.unretained.unretained = e.unretained := unretained_of_ne (unretained_ne e)

/-- An element loses its retained image. -/
def State.forgetElem (s : State) (eid : Nat) : State :=
  match (s.elem eid).staged with
  | .retained _ _ => s.modElem eid (fun e => { e with staged := .none })
  | _ => s

theorem forgetElem_rest (s : State) (eid : Nat) : s.forgetElem eid = { s with elems := (s.forgetElem eid).elems } := by
  unfold State.forgetElem
  split <;> rfl

theorem forgetElem_elem (s : State) (eid e : Nat) :
    (s.forgetElem eid).elem e = if e = eid then (s.elem e).unretained else s.elem e := by
  unfold State.forgetElem
  split
  · rename_i h b staged
    by_cases here : e = eid
    · subst e
      rw [if_pos rfl, State.elem_modElem_self, unretained_of_retained staged]
    · rw [if_neg here]
      exact State.elem_modElem_ne _ _ here
  · rename_i other
    split
    · subst e
      exact (unretained_of_ne other).symm
    · rfl

theorem forgetElems_elem (l : List Nat) (s : State) (e : Nat) :
    (l.foldl State.forgetElem s).elem e = if e ∈ l then (s.elem e).unretained else s.elem e := by
  induction l generalizing s with
  | nil => rfl
  | cons eid l ih =>
    rw [List.foldl_cons, ih, forgetElem_elem]
    by_cases here : e = eid <;> by_cases there : e ∈ l <;> simp [here, there, unretained_unretained]

theorem forgetElems_rest (l : List Nat) (s : State) : l.foldl State.forgetElem s = { s with elems := (l.foldl State.forgetElem s).elems } :=
  List.foldlRecOn (motive := fun (t : State) => t = { s with elems := t.elems }) l _ rfl fun t ih eid _ => by
    rw [forgetElem_rest, ih]

/-! ## Tiles -/

section
variable {s : State} {k : Nat}

theorem tileIdle_of (free : s.holders k = []) (idle : ∀ e ∈ tileElems k, (s.elem e).state = .unoccupied) : s.tileIdle k = true := by
  simpa [State.tileIdle, free] using idle

theorem autogateTimer_closes (subject : s.subject.1 = k) (ok : tileOk k = true) (on : (s.cluster (clusterOf k)).autogate = true)
    (late : max (s.tile k).unoccSince s.startTime + 1000000 ≤ s.now) (powered : (s.tile k).gate = .powered) (idle : s.tileIdle k = true) :
    exec .autogateTimer s = .next (s.modTile k (fun t => { t with gate := .closing })) := by
  simp only [exec, execAutogateTimer, subject, ok, on, late, State.closeTile, powered, idle]
  rfl

theorem ungateDone_powers {u : Nat} (subject : s.subject.1 = k) (gate : (s.tile k).gate = .ungating u) (late : u ≤ s.now) :
    exec .ungateDone s = .next (s.modTile k (fun t => { t with gate := .powered, sram := [], sramPoison := [], unoccSince := s.now })) := by
  simp only [exec, execUngateDone, subject, gate, if_pos late]

/-- Whether a tile has accepted an operation that is outstanding. -/
def State.accepted (s : State) (k : Nat) : Bool := !(s.bankQueue k).isEmpty || (s.tile k).keptFor.any (fun a => (s.accs.find a).isSome)

theorem gateOff_waits (subject : s.subject.1 = k) (accepted : s.accepted k = true) : exec .gateOff s = .next s := by
  unfold State.accepted at accepted
  simp only [exec, execGateOff, subject, accepted, Bool.not_true, Bool.and_false, Bool.false_eq_true, if_false]

/-- The state in which the supply of a tile is off. -/
def State.gated (s : State) (k : Nat) : State :=
  ((tileElems k).foldl State.forgetElem (s.modTile k (fun t => { t with retained := none }))).modTile k
    (fun t => { t with gate := .gated, sram := [], sramPoison := [] })

theorem gateOff_gates (subject : s.subject.1 = k) (gate : (s.tile k).gate = .closing) (idle : s.tileIdle k = true)
    (accepted : s.accepted k = false) : exec .gateOff s = .next (s.gated k) := by
  unfold State.accepted at accepted
  simp only [exec, execGateOff, subject, gate, idle, accepted]
  rfl

theorem accepted_iff : s.accepted k = true ↔
    (∃ w ∈ (s.tile k).bankWaits, if w.copy = true then s.copyOf w.acc ≠ none else s.accs.find w.acc ≠ none) ∨
    ∃ n b, (b, some n) ∈ (s.tile k).banks ∧ s.accs.find n ≠ none := by
  have waits : (s.bankQueue k).isEmpty = false ↔
      ∃ w ∈ (s.tile k).bankWaits, if w.copy = true then s.copyOf w.acc ≠ none else s.accs.find w.acc ≠ none := by
    rw [List.isEmpty_eq_false_iff_exists_mem]
    refine exists_congr fun w => ?_
    rw [State.bankQueue, List.mem_filter]
    refine and_congr_right fun _ => ?_
    split <;> simp [Option.isSome_iff_ne_none]
  have kept : (s.tile k).keptFor.any (fun a => (s.accs.find a).isSome) = true ↔
      ∃ n b, (b, some n) ∈ (s.tile k).banks ∧ s.accs.find n ≠ none := by
    simp only [List.any_eq_true, Tile.keptFor, List.mem_filterMap, Option.isSome_iff_ne_none]
    constructor
    · rintro ⟨n, ⟨⟨b, _⟩, here, rfl⟩, found⟩
      exact ⟨n, b, here, found⟩
    · rintro ⟨n, b, here, found⟩
      exact ⟨n, ⟨(b, some n), here, rfl⟩, found⟩
  rw [State.accepted, Bool.or_eq_true, kept, Bool.not_eq_true', waits]

theorem gated_elem (s : State) (k e : Nat) : (s.gated k).elem e = if e ∈ tileElems k then (s.elem e).unretained else s.elem e := by
  unfold State.gated
  generalize tileElems k = l
  exact forgetElems_elem l (s.modTile k (fun t => { t with retained := none })) e

theorem gated_rest (s : State) (k : Nat) : s.gated k = { s with tiles := (s.gated k).tiles, elems := (s.gated k).elems } := by
  unfold State.gated
  generalize tileElems k = l
  rw [State.modTile, State.setTile, forgetElems_rest]
  rfl

theorem gated_tile (s : State) (k : Nat) :
    (s.gated k).tile k = { s.tile k with gate := .gated, sram := [], sramPoison := [], retained := none } := by
  unfold State.gated
  generalize tileElems k = l
  rw [State.modTile, State.tile_setTile_self, forgetElems_rest]
  exact congrArg (fun t : Tile => { t with gate := .gated, sram := [], sramPoison := [] })
    (State.tile_setTile_self s k { s.tile k with retained := none })

theorem gated_tile_ne (s : State) {k n : Nat} (h : n ≠ k) : (s.gated k).tile n = s.tile n := by
  unfold State.gated
  generalize tileElems k = l
  rw [State.modTile, State.tile_setTile_ne _ _ h, forgetElems_rest]
  exact State.tile_setTile_ne _ _ h

end

end Sys2Proof.Machine

namespace Sys2Proof.Claims
open Sys2Proof.Machine

theorem gateRules_happen (g k i : Nat) (x : Inst) (u : Nat) : Happen (gateRules g k i x u) := by
  refine .cons (fun s hs => ?refill) <| .cons (becomes_holds fun s hs => ?still) <| .cons (becomes_holds fun s hs => ?closes) <|
    .cons (fun s hs => ?gates) <| .cons (becomes_holds fun s hs => ?waits) <| .cons (becomes_holds fun s hs => ?powers) .nil
  case refill =>
    obtain ⟨⟨subject, known, due⟩, on, found, here, phase, below⟩ := hs
    refine ⟨_, bucketRefill_on subject due on, ?_, rfl, fun j y hy elsewhere => ?_⟩
    · exact (NMap.find_map _ s.insts i).trans (by rw [found]; exact congrArg some (refill_running here phase below))
    · exact (NMap.find_map _ s.insts j).trans (by rw [hy]; exact congrArg some (refill_elsewhere _ _ elsewhere))
  case still =>
    obtain ⟨⟨subject, -, due⟩, off⟩ := hs
    exact bucketRefill_off subject due off
  case closes =>
    obtain ⟨subject, ok, on, late, powered, free, idle⟩ := hs
    exact autogateTimer_closes subject ok on late powered (tileIdle_of free idle)
  case gates =>
    obtain ⟨subject, gate, ⟨free, idle⟩, none_⟩ := hs
    have accepted := Bool.eq_false_iff.2 (fun h => none_ (accepted_iff.1 h))
    refine ⟨_, gateOff_gates subject gate (tileIdle_of free idle) accepted, gated_tile s k, gated_rest s k,
      fun n hn => gated_tile_ne s hn, fun e => ?_, fun e he h b => ?_, fun e he => ?_⟩
    · rw [gated_elem]
      split
      · exact unretained_staged _
      · rfl
    · rw [gated_elem, if_pos he]
      exact unretained_ne _ h b
    · rw [gated_elem, if_neg he]
  case waits =>
    obtain ⟨subject, accepted⟩ := hs
    exact gateOff_waits subject (accepted_iff.2 accepted)
  case powers =>
    obtain ⟨subject, gate, late⟩ := hs
    exact ungateDone_powers subject gate late

end Sys2Proof.Claims
end

/-! # UPDATE_1MS (R57, R109, R110, R114, R115, R117, R119) -/

section
namespace Sys2Proof.Machine

/-! ## Clusters and slots -/

/-- A slot of a cluster holds a lease. -/
def State.putSlot (s : State) (g k : Nat) (l : Lease) : State := s.modCluster g (fun c => { c with slots := c.slots.set k (some l) })

/-- A cluster is in REFREEZE. -/
def State.refreeze (s : State) (g : Nat) : State := s.modCluster g (fun c => { c with melt := .refreeze })

theorem set_nth_same {α : Type} {l : List (Option α)} {k : Nat} {x : α} (h : nth l k none = some x) : l.set k (some x) = l := by
  obtain ⟨_, here⟩ := List.getElem?_eq_some_iff.1 (getElem?_of_nth h)
  rw [← here, List.set_getElem_self]

theorem putSlot_same {s : State} {g k : Nat} {l : Lease} (h : nth (s.cluster g).slots k none = some l) : s.putSlot g k l = s :=
  modCluster_same fun _ => by rw [set_nth_same h]

/-- A change of a cluster's slots and state is such as the end of leases makes. -/
theorem modCluster_ends {s : State} {g : Nat} (known : g < s.clusters.length) {f : Cluster → Cluster}
    (h : ∀ c, f c = { c with slots := (f c).slots, melt := (f c).melt }) : LeasesEnd s (s.modCluster g f) g := by
  refine ⟨rfl, fun _ => rfl, fun n hn => State.cluster_modCluster_ne s f hn, ?_, upd_length ..⟩
  rw [State.cluster_modCluster_self _ _ _ known, h]

/-- The lease granted last is found by the slots alone. -/
theorem lastLease_congr {s t : State} (h : ∀ n, (t.cluster n).slots = (s.cluster n).slots) : t.lastLease = s.lastLease := by
  simp only [State.lastLease, h]

/-! ## The measurements -/

/-- The measurements of a millisecond are in the registers of a cluster. -/
def State.measured (s : State) (g ms : Nat) (pwr cshare pkgw : BitVec 16) : State :=
  { s.modCluster g (fun c => { c.measure pwr cshare with lastMs := some ms }) with pkgw }

section
variable {s : State} {g ms : Nat} {pwr cshare pkgw : BitVec 16}

theorem measured_self (known : g < s.clusters.length) :
    (s.measured g ms pwr cshare pkgw).cluster g = { (s.cluster g).measure pwr cshare with lastMs := some ms } :=
  State.cluster_modCluster_self _ _ _ known

theorem measured_ne {n : Nat} (h : n ≠ g) : (s.measured g ms pwr cshare pkgw).cluster n = s.cluster n := State.cluster_modCluster_ne _ _ h

theorem measured_slots (known : g < s.clusters.length) (n : Nat) :
    ((s.measured g ms pwr cshare pkgw).cluster n).slots = (s.cluster n).slots := by
  by_cases here : n = g
  · subst n
    rw [measured_self known]
    rfl
  · rw [measured_ne here]

theorem measured_plan (known : g < s.clusters.length) : SamePlan s (s.measured g ms pwr cshare pkgw) := fun n => by
  by_cases here : n = g
  · subst n
    rw [measured_self known]
    exact ⟨rfl, rfl, rfl⟩
  · rw [measured_ne here]
    exact ⟨rfl, rfl, rfl⟩

end

/-! ## The budget of the package (R114) -/

/-- With the first cluster the controller may ask a lease to end. -/
def State.askFirst (s : State) (g : Nat) : State := if g = 0 then s.askBudget else s

section
variable {s : State} {g h k : Nat} {l : Lease}

theorem askFirst_paid (paid : g ≠ 0 ∨ s.pkgw ≤ s.sprintw ∨ s.lastLease = none) : s.askFirst g = s := by
  unfold State.askFirst State.askBudget
  split
  · split
    · rcases paid with other | low | none_
      · exact absurd ‹_› other
      · exact absurd ‹_› (BitVec.not_lt.2 low)
      · rw [none_]
    · rfl
  · rfl

theorem askFirst_asks (over_ : s.sprintw < s.pkgw) (last : s.lastLease = some (h, k)) (slot : nth (s.cluster h).slots k none = some l) :
    s.askFirst 0 = s.putSlot h k (l.ask endBUDGET) := by
  have asks : s.askFirst 0 = s.modCluster h (fun c => { c with slots := upd c.slots k (·.map (·.ask endBUDGET)) }) := by
    simp only [State.askFirst, if_true, State.askBudget, if_pos over_, last]
  have same : upd (s.cluster h).slots k (·.map (·.ask endBUDGET)) = (s.cluster h).slots.set k (some (l.ask endBUDGET)) := by
    rw [← upd_const]
    refine upd_congr fun y hy => ?_
    rw [← Option.some.inj ((getElem?_of_nth slot).symm.trans hy)]
    rfl
  rw [asks, State.putSlot]
  exact modCluster_congr fun _ => by rw [same]

/-! ## MELT and REFREEZE (R110) -/

theorem meltStep_below (warm : (s.cluster g).melt ≠ .refreeze) (below : (s.cluster g).melt16 < (s.cluster g).ceiling.toNat) :
    s.meltStep g = s := by
  simp only [State.meltStep, beq_eq_false_iff_ne.2 warm, Bool.false_eq_true, if_false, if_pos below]

/-- A cluster in REFREEZE leaves it below REARM. -/
def State.rearmed (s : State) (g : Nat) : State :=
  s.modCluster g (fun c => { c with melt := if c.melt16 < c.rearm.toNat then .cool else .refreeze })

theorem meltStep_refreeze (cold : (s.cluster g).melt = .refreeze) : s.meltStep g = s.rearmed g := by
  simp only [State.meltStep, cold, beq_self_eq_true, if_true]
  rfl

theorem takeLeaseends_none (queue : s.ctrlQ = []) (asked : s.takeAsked g = s) : s.takeLeaseends g = s := by
  rw [State.takeLeaseends, queue, asked]
  rfl

/-- The live leases of a cluster. -/
def Cluster.live (c : Cluster) : List Nat := (List.range 16).filter (fun k => (nth c.slots k none).isSome)

theorem meltStep_ceiling (queue : s.ctrlQ = []) (unasked : NoneAsked s g) (warm : (s.cluster g).melt ≠ .refreeze)
    (reached : (s.cluster g).ceiling.toNat ≤ (s.cluster g).melt16) :
    s.meltStep g = (s.refreeze g).endAll g ((s.refreeze g).cluster g).live endCEILING := by
  simp only [State.meltStep, beq_eq_false_iff_ne.2 warm, Bool.false_eq_true, if_false, if_neg (Nat.not_lt.2 reached),
    takeLeaseends_none queue (takeAsked_noneAsked unasked)]
  rfl

theorem budgetStep_none (unasked : NoneAsked s g) : s.budgetStep g = s := by
  have none_ : (s.cluster g).askedFor endBUDGET = [] := askedFor_none fun n w slot => by simp [unasked n w slot]
  rw [State.budgetStep, none_]
  rfl

theorem budgetStep_one (queue : s.ctrlQ = []) (known : k < 16) (slot : nth (s.cluster g).slots k none = some l)
    (asked : l.asked = [endBUDGET]) (others : ∀ n w, n ≠ k → nth (s.cluster g).slots n none = some w → w.asked = []) :
    s.budgetStep g = s.endAll g [k] endBUDGET := by
  have one : (s.cluster g).askedFor endBUDGET = [k] := range_filter_one known fun m _ => by
    by_cases here : m = k
    · simp [here, slot, asked]
    · cases there : nth (s.cluster g).slots m none with
      | none => simp [here]
      | some w => simp [here, others m w here there]
  have ends : s.takeLeaseends g = s := takeLeaseends_none queue <| takeAsked_none fun n w there r hr => by
    by_cases here : n = k
    · subst n
      cases slot.symm.trans there
      rw [asked]
      revert r
      decide
    · simp [others n w here there]
  simp only [State.budgetStep, one, ends]
  rfl

end

/-! ## The end of the update -/

/-- The update of a cluster is complete, and with the last cluster that of the package. -/
def State.closed (s : State) (g ms : Nat) : State :=
  let u := s.modCluster g (fun c => { c with msState := c.melt })
  if g + 1 < u.clusters.length then u else (List.range 16).foldl (fun (s : State) p => s.powerFloor ms p) { u with lastMs := some ms }

structure Closed (s t : State) (g ms : Nat) : Prop where
  rest : t = { s with clusters := t.clusters, lastMs := t.lastMs, parts := t.parts, operLog := t.operLog }
  self : t.cluster g = { s.cluster g with msState := (s.cluster g).melt }
  others : ∀ n, n ≠ g → t.cluster n = s.cluster n
  lastMs : t.lastMs = if g = 15 then some ms else s.lastMs
  quiet : g ≠ 15 → t.parts = s.parts ∧ t.operLog = s.operLog
  part : ∀ p, t.part p = { s.part p with powerSum := (t.part p).powerSum, rate := (t.part p).rate, drops := (t.part p).drops }

theorem powerFloors_told (s : State) (ms : Nat) (l : List Nat) : Told s (l.foldl (fun (s : State) p => s.powerFloor ms p) s) :=
  List.foldlRecOn (motive := fun t => Told s t) l _ (.refl s) fun _ ih p _ => ih.trans (powerFloor_told _ ms p)

theorem closed_closed {s : State} {g : Nat} (count : s.clusters.length = 16) (known : g < 16) (ms : Nat) : Closed s (s.closed g ms) g ms := by
  have self := State.cluster_modCluster_self s g (fun c => { c with msState := c.melt }) (count ▸ known)
  have others (n : Nat) (hn : n ≠ g) := State.cluster_modCluster_ne s (fun c => { c with msState := c.melt }) hn
  have count' : (s.modCluster g (fun c => { c with msState := c.melt })).clusters.length = 16 := (upd_length ..).trans count
  unfold State.closed
  dsimp only
  split
  · exact ⟨rfl, self, others, by rw [if_neg (by omega)]; rfl, fun _ => ⟨rfl, rfl⟩, fun _ => rfl⟩
  · have told := powerFloors_told { s.modCluster g (fun c => { c with msState := c.melt }) with lastMs := some ms } ms (List.range 16)
    generalize (List.range 16).foldl _ _ = t at told ⊢
    have last : g = 15 := by omega
    have clusters := State.cluster_congr (congrArg State.clusters told.rest)
    refine ⟨?_, ?_, fun n hn => ?_, ?_, fun h => absurd last h, told.part⟩
    · rw [told.rest]
      rfl
    · rw [clusters]
      exact self
    · rw [clusters]
      exact others n hn
    · rw [if_pos last, told.rest]

end Sys2Proof.Machine
end

section
namespace Sys2Proof.Machine

/-! ## All leases of a cluster end (R110, R115) -/

/-- Leases of a cluster end, in the order of a list of slots. -/
def State.endSlots (s : State) (g reason : Nat) (l : List Nat) : State := l.foldl (fun (s : State) k => s.endLease g k reason) s

section
variable {s : State} {g reason : Nat}

theorem endSlots_ends (known : g < s.clusters.length) (l : List Nat) : LeasesEnd s (s.endSlots g reason l) g :=
  List.foldlRecOn (motive := fun t => LeasesEnd s t g) l _ (.refl s g) fun _ ih _ _ => ih.trans (endLease_ends (ih.count ▸ known))

theorem endSlots_slot (known : g < s.clusters.length) (l : List Nat) (n : Nat) :
    nth ((s.endSlots g reason l).cluster g).slots n none = if n ∈ l then none else nth (s.cluster g).slots n none := by
  induction l generalizing s with
  | nil => rfl
  | cons k l ih =>
    have known' : g < (s.endLease g k reason).clusters.length := (endLease_ends known).count ▸ known
    refine (ih known').trans ?_
    rw [endLease_slot known]
    by_cases here : n = k <;> simp [here]

theorem endSlots_refreeze (known : g < s.clusters.length) (cold : (s.cluster g).melt = .refreeze) (l : List Nat) :
    ((s.endSlots g reason l).cluster g).melt = .refreeze := by
  induction l generalizing s with
  | nil => exact cold
  | cons k l ih => exact ih ((endLease_ends known).count ▸ known) (endLease_refreeze known cold)

/-- An instance without a lease there does not notice. -/
theorem endSlots_insts (known : g < s.clusters.length) {i : Nat} (others : ∀ n w, nth (s.cluster g).slots n none = some w → w.inst ≠ i)
    (l : List Nat) : (s.endSlots g reason l).insts.find i = s.insts.find i := by
  induction l generalizing s with
  | nil => rfl
  | cons k l ih =>
    refine (ih ((endLease_ends known).count ▸ known) fun n w h => ?_).trans (endLease_insts_ne (others k))
    rw [endLease_slot known] at h
    split at h
    · cases h
    · exact others n w h

/-- An instance with one lease there knows the reason of its end. -/
theorem endSlots_knows (known : g < s.clusters.length) {n : Nat} {w : Lease} {x : Inst} (slot : nth (s.cluster g).slots n none = some w)
    (alone : ∀ m v, nth (s.cluster g).slots m none = some v → v.inst = w.inst → m = n) (found : s.insts.find w.inst = some x) {l : List Nat}
    (mem : n ∈ l) : ∃ y, (s.endSlots g reason l).insts.find w.inst = some y ∧ y.ended.head? = some (w.handle, reason) := by
  induction l generalizing s with
  | nil => cases mem
  | cons k l ih =>
    have known' : g < (s.endLease g k reason).clusters.length := (endLease_ends known).count ▸ known
    by_cases here : n = k
    · subst n
      have silent : ∀ m v, nth ((s.endLease g k reason).cluster g).slots m none = some v → v.inst ≠ w.inst := fun m v h same => by
        rw [endLease_slot known] at h
        split at h
        · cases h
        · exact ‹m ≠ k› (alone m v h same)
      exact ⟨_, (endSlots_insts known' silent l).trans (endLease_insts_self slot found), rfl⟩
    · refine ih known' ?_ (fun m v h same => ?_) ?_ ((List.mem_cons.1 mem).resolve_left here)
      · rw [endLease_slot known, if_neg here]
        exact slot
      · rw [endLease_slot known] at h
        split at h
        · cases h
        · exact alone m v h same
      · rw [endLease_insts_ne fun v h same => here (alone k v h same).symm]
        exact found

theorem mem_live {c : Cluster} (count : c.slots.length = 16) {n : Nat} {w : Lease} (slot : nth c.slots n none = some w) : n ∈ c.live := by
  refine List.mem_filter.2 ⟨List.mem_range.2 (count ▸ nth_some_lt slot), ?_⟩
  rw [slot]
  rfl

/-- No slot holds a lease once all that are live have ended. -/
theorem endSlots_live (known : g < s.clusters.length) (count : (s.cluster g).slots.length = 16) (n : Nat) :
    nth ((s.endSlots g reason (s.cluster g).live).cluster g).slots n none = none := by
  rw [endSlots_slot known]
  split
  · rfl
  · cases slot : nth (s.cluster g).slots n none with
    | none => rfl
    | some w => exact absurd (mem_live count slot) ‹_›

/-- Where no lease traps, that is all. -/
theorem endAll_live (known : g < s.clusters.length) (count : (s.cluster g).slots.length = 16)
    (soft : ∀ n w, nth (s.cluster g).slots n none = some w → w.hard = false) :
    s.endAll g (s.cluster g).live reason = s.endSlots g reason (s.cluster g).live := by
  have none_ : (s.cluster g).live.filterMap (fun k => (nth (s.cluster g).slots k none).bind (fun l => if l.traps reason then some l else none)) =
      [] := by
    refine List.filterMap_eq_nil_iff.2 fun k _ => ?_
    cases slot : nth (s.cluster g).slots k none with
    | none => rfl
    | some w => simp [traps_of_soft (soft k w slot) reason]
  have unasked : NoneAsked (s.endSlots g reason (s.cluster g).live) g := fun n w h => by
    rw [endSlots_live known count] at h
    cases h
  rw [State.endAll, none_]
  exact takeAsked_noneAsked unasked

end

end Sys2Proof.Machine

namespace Sys2Proof.Claims
open Sys2Proof.Machine

/-! ## What an update has measured -/

theorem heatStep_eq (h : Word) (pwr cshare : BitVec 16) : heatStep h pwr cshare = nextHeat h pwr cshare := by
  unfold heatStep nextHeat
  simp only [Int.ofNat_eq_natCast]
  generalize (h.toNat : Int) + ((pwr.toNat : Int) - cshare.toNat) * 2 ^ 32 / 2400000 = v
  split
  · rw [show max 0 (min 0xFFFFFFFF v) = 0 by omega]
    rfl
  · split
    · rw [show max 0 (min 0xFFFFFFFF v) = 0xFFFFFFFF by omega]
      rfl
    · rw [show max 0 (min 0xFFFFFFFF v) = v by omega]

theorem limStep_eq (lim capw pwr : BitVec 16) : (limStep lim capw pwr).toNat = nextLim lim.toNat capw.toNat pwr.toNat := by
  have zero : capw = 0 ↔ capw.toNat = 0 := ⟨fun h => by rw [h]; rfl, fun h => BitVec.eq_of_toNat_eq h⟩
  have bound := lim.isLt
  simp only [limStep, nextLim, zero, BitVec.lt_def]
  split
  · rfl
  · split
    · exact BitVec.toNat_ofNat .. |>.trans (Nat.mod_eq_of_lt (by omega))
    · split
      · exact BitVec.toNat_ofNat .. |>.trans (Nat.mod_eq_of_lt (by omega))
      · rfl

/-- The update of a cluster is due. -/
def UpdateDue (s : State) (g : Nat) : Prop :=
  s.subject.1 = g ∧ s.clusters.length = 16 ∧ (s.cluster g).slots.length = 16 ∧ g < 16 ∧
  (match (s.cluster g).lastMs with
    | some m => m < s.now / 1000000
    | none => s.startTime / 1000000 < s.now / 1000000)

theorem UpdateDue.updateDue {s : State} {g : Nat} (h : UpdateDue s g) : s.updateDue g = true := by
  obtain ⟨-, count, -, known, ms⟩ := h
  rw [State.updateDue, Bool.and_eq_true]
  refine ⟨decide_eq_true (count ▸ known), ?_⟩
  cases last : (s.cluster g).lastMs with
  | none => rw [last] at ms; exact decide_eq_true ms
  | some m => rw [last] at ms; exact decide_eq_true ms

section
variable {s t u v : State} {pwr cshare : List (BitVec 16)} {pkgw : BitVec 16} {g : Nat}

/-- The measurements of the rule at a cluster. -/
def measuredAt (s : State) (g : Nat) (pwr cshare : List (BitVec 16)) (pkgw : BitVec 16) : State :=
  s.measured g (s.now / 1000000) (nth pwr g 0) (nth cshare g 0) pkgw

/-- The update is the steps of the cluster on what it has measured, and its end. -/
theorem update1ms_closed (due : UpdateDue s g) (steps : (((measuredAt s g pwr cshare pkgw).askFirst g).meltStep g).budgetStep g = v)
    (count : v.clusters.length = 16) : ∃ t, exec (.update1ms pwr cshare pkgw) s = .next t ∧ Closed v t g (s.now / 1000000) := by
  obtain ⟨subject, -, -, known, -⟩ := id due
  refine ⟨_, ?_, closed_closed count known _⟩
  rw [← steps]
  simp only [exec, execUpdate1ms, subject, due.updateDue, Bool.not_true, Bool.false_eq_true, if_false]
  rfl

theorem measured_of (due : UpdateDue s g) (cluster : u.cluster g = { (measuredAt s g pwr cshare pkgw).cluster g with
      slots := (u.cluster g).slots, melt := (u.cluster g).melt, opnow := (u.cluster g).opnow, volt := (u.cluster g).volt,
      rampEnd := (u.cluster g).rampEnd }) (package : u.pkgw = pkgw) (last : u.lastMs = s.lastMs)
    (closed : Closed u t g (s.now / 1000000)) : Measured s t g pwr cshare pkgw := by
  obtain ⟨-, count, -, known, -⟩ := due
  have self := cluster.trans (by rw [measuredAt, measured_self (by omega)])
  refine ⟨?_, ?_, ?_, ?_, ?_⟩
  · rw [closed.rest]
    exact package
  · rw [closed.self, self]
  · rw [closed.self, self]
    exact limStep_eq ..
  · rw [closed.self, self, Cluster.measure, heatStep_eq]
  · rw [closed.lastMs, last]
    split <;> rfl

theorem measuredAt_self (due : UpdateDue s g) : (measuredAt s g pwr cshare pkgw).cluster g =
    { (s.cluster g).measure (nth pwr g 0) (nth cshare g 0) with lastMs := some (s.now / 1000000) } := by
  obtain ⟨-, count, -, known, -⟩ := due
  exact measured_self (count ▸ known)

theorem measuredAt_slots (due : UpdateDue s g) (n : Nat) :
    ((measuredAt s g pwr cshare pkgw).cluster n).slots = (s.cluster n).slots := by
  obtain ⟨-, count, -, known, -⟩ := due
  exact measured_slots (count ▸ known) n

theorem measuredAt_plan (due : UpdateDue s g) : SamePlan s (measuredAt s g pwr cshare pkgw) := by
  obtain ⟨-, count, -, known, -⟩ := due
  exact measured_plan (count ▸ known)

theorem measuredAt_count (due : UpdateDue s g) : (measuredAt s g pwr cshare pkgw).clusters.length = 16 := by
  obtain ⟨-, count, -⟩ := due
  exact (upd_length ..).trans count

theorem measuredAt_noneAsked (due : UpdateDue s g) (unasked : NoneAsked s g) : NoneAsked (measuredAt s g pwr cshare pkgw) g := by
  rw [NoneAsked, measuredAt_slots due]
  exact unasked

/-- Without a lease to end for the budget, the step is none. -/
theorem measuredAt_paid (due : UpdateDue s g) (paid : g ≠ 0 ∨ pkgw ≤ s.sprintw ∨ s.lastLease = none) :
    (measuredAt s g pwr cshare pkgw).askFirst g = measuredAt s g pwr cshare pkgw :=
  askFirst_paid (paid.imp_right (Or.imp_right (lastLease_congr (measuredAt_slots due)).trans))

theorem melt16_of_heat (due : UpdateDue s g) (same : (u.cluster g).heat = ((measuredAt s g pwr cshare pkgw).cluster g).heat) :
    (u.cluster g).melt16 = meltAfter s g pwr cshare := by
  rw [Cluster.melt16, same, measuredAt_self due, Cluster.measure, heatStep_eq]
  rfl

/-- Only the measurements, with what they make of REFREEZE, have changed. -/
theorem measuredOnly_of (due : UpdateDue s g)
    (cluster : u.cluster g = { (measuredAt s g pwr cshare pkgw).cluster g with melt := (u.cluster g).melt })
    (rest : u = { measuredAt s g pwr cshare pkgw with clusters := u.clusters }) (closed : Closed u t g (s.now / 1000000)) :
    MeasuredOnly s t g pwr cshare pkgw := by
  have parts : u.parts = s.parts := by rw [rest]; rfl
  have log : u.operLog = s.operLog := by rw [rest]; rfl
  refine ⟨measured_of due (by rw [cluster]) (by rw [rest]; rfl) (by rw [rest]; rfl) closed, ?_, fun last => ?_, fun p => ?_, ?_⟩
  · rw [closed.rest, rest]
    rfl
  · obtain ⟨here, there⟩ := closed.quiet last
    exact ⟨here.trans parts, there.trans log⟩
  · rw [← State.part_congr parts]
    exact closed.part p
  · rw [closed.self, cluster, measuredAt_self due]
    rfl

/-- The measurements, and the cluster of the leases that have ended. -/
theorem measured_alone (due : UpdateDue s g) (ends : LeasesEnd (measuredAt s g pwr cshare pkgw) u g) (clusters : v.clusters = u.clusters)
    (package : v.pkgw = u.pkgw) (last : v.lastMs = u.lastMs) (closed : Closed v t g (s.now / 1000000)) :
    Measured s t g pwr cshare pkgw ∧ (∀ n, n ≠ g → t.cluster n = s.cluster n) ∧ (t.cluster g).slots = (u.cluster g).slots ∧
      (t.cluster g).melt = (u.cluster g).melt := by
  have same := State.cluster_congr clusters
  refine ⟨measured_of due ?_ ?_ ?_ closed, fun n hn => ?_, ?_, ?_⟩
  · rw [same]
    exact ends.cluster
  · rw [package, ends.rest]
    rfl
  · rw [last, ends.rest]
    rfl
  · rw [closed.others n hn, same, ends.others n hn]
    exact measured_ne hn
  · rw [closed.self, same]
  · rw [closed.self, same]

/-- Where no lease traps, the rest of the state is kept. -/
theorem kept_of_ends (ends : LeasesEnd (measuredAt s g pwr cshare pkgw) u g) (closed : Closed u t g (s.now / 1000000)) :
    t.tiles = s.tiles ∧ OnlyAnswers s t ∧ t.hbm = s.hbm ∧ t.launches = s.launches ∧ t.insts = u.insts ∧ t.vfs = u.vfs := by
  refine ⟨?_, fun e => ?_, ?_, ?_, ?_, ?_⟩
  · rw [closed.rest, ends.rest]
    rfl
  · have elem : t.elem e = u.elem e := by rw [closed.rest]; rfl
    rw [elem]
    exact ends.answers e
  · rw [closed.rest, ends.rest]
    rfl
  · rw [closed.rest, ends.rest]
    rfl
  · rw [closed.rest]
  · rw [closed.rest]

section
variable {l : Lease} {k j reason : Nat} {x : Inst} {y : Launch} {a b : Task}

theorem mayTrap_transfer (may : MayTrap s g k l x y a b j) (rest : u = { s with clusters := u.clusters, pkgw := u.pkgw })
    (plan : SamePlan s u) (count : u.clusters.length = s.clusters.length)
    (alone : ∀ n w, nth (u.cluster g).slots n none = some w → w.inst = l.inst → n = k) : MayTrap u g k l x y a b j := by
  obtain ⟨hard, found, cluster, known, run, stop, faulted, part, launch, task, partKnown, -, launches, task', ordered, ordinary, chain,
    handler, telling, handlerNode, named, cancelled, final, ttCount, rects, first⟩ := may
  refine ⟨hard, ?_, cluster, count ▸ known, run, stop, faulted, part, launch, task, ?_, alone, ?_, task', ordered, ordinary, chain,
    handler, telling, handlerNode, named, cancelled, final, ttCount, ?_, first⟩
  · rw [rest]
    exact found
  · rw [rest]
    exact partKnown
  · rw [rest]
    exact launches
  · rw [rects_congr plan]
    exact rects

theorem trapped_closed (trapped : Trapped u v g l x a b j reason) (rest : u = { s with clusters := u.clusters, pkgw := u.pkgw })
    {ms : Nat} (closed : Closed v t g ms) : Trapped s t g l x a b j reason := by
  have parts : u.parts = s.parts := by rw [rest]
  have insts : u.insts = s.insts := by rw [rest]
  have launches : u.launches = s.launches := by rw [rest]
  have elem (e : Nat) : u.elem e = s.elem e := State.elem_congr (by rw [rest]) e
  have insts' : t.insts = v.insts := by rw [closed.rest]
  have launches' : t.launches = v.launches := by rw [closed.rest]
  have elem' (e : Nat) : t.elem e = v.elem e := State.elem_congr (by rw [closed.rest]) e
  have vf' : t.vf l.vf = v.vf l.vf := State.vf_congr (by rw [closed.rest]) _
  have fault' : (t.part x.part).fault = (v.part x.part).fault := by rw [closed.part]
  obtain ⟨inst, note, fault, task, handler, tiles, answers, others, graphs, tasks⟩ := trapped
  rw [State.part_congr parts] at fault
  simp only [OnlyAnswers, elem, insts, launches, task?_congr launches] at answers others graphs tasks
  refine ⟨?_, ?_, ?_, ?_, ?_, ?_, fun e => ?_, ?_, ?_, ?_⟩
  · rw [insts']
    exact inst
  · rw [vf']
    exact note
  · rw [fault']
    exact fault
  · rw [task?_congr launches']
    exact task
  · rw [task?_congr launches']
    exact handler
  · rw [closed.rest, tiles, rest]
  · rw [elem']
    exact answers e
  · rw [insts']
    exact others
  · rw [launches']
    exact graphs
  · simp only [task?_congr launches']
    exact tasks

end

end

end Sys2Proof.Claims
end

section
namespace Sys2Proof.Machine

theorem SamePlan.trans {s t u : State} (h : SamePlan s t) (k : SamePlan t u) : SamePlan s u := fun n =>
  ⟨(k n).1.trans (h n).1, (k n).2.1.trans (h n).2.1, (k n).2.2.trans (h n).2.2⟩

theorem putSlot_self {s : State} {g : Nat} (known : g < s.clusters.length) (k : Nat) (l : Lease) :
    (s.putSlot g k l).cluster g = { s.cluster g with slots := (s.cluster g).slots.set k (some l) } :=
  State.cluster_modCluster_self _ _ _ known

theorem refreeze_self {s : State} {g : Nat} (known : g < s.clusters.length) :
    (s.refreeze g).cluster g = { s.cluster g with melt := .refreeze } := State.cluster_modCluster_self _ _ _ known

/-- A lease that is to end for the budget, and for no reason else. -/
def Lease.forBudget (l : Lease) : Lease := { l with asked := [endBUDGET] }

end Sys2Proof.Machine

namespace Sys2Proof.Claims
open Sys2Proof.Machine

section
variable {s : State} {pwr cshare : List (BitVec 16)} {pkgw : BitVec 16} {g : Nat}

/-! ## A lease ends for the budget (R114) -/

/-- A cluster whose update ends one lease for the budget of the package: it is asked for before, or with the first cluster. -/
structure EndsForBudget (s : State) (pwr cshare : List (BitVec 16)) (pkgw : BitVec 16) (g k : Nat) (l : Lease) : Prop where
  due : UpdateDue s g
  queue : s.ctrlQ = []
  warm : (s.cluster g).melt ≠ .refreeze
  below : meltAfter s g pwr cshare < (s.cluster g).ceiling.toNat
  slot : nth (s.cluster g).slots k none = some l
  others : ∀ n, n ≠ k → ∀ w, nth (s.cluster g).slots n none = some w → w.asked = []
  asked : g ≠ 0 ∧ l.asked = [endBUDGET] ∨ g = 0 ∧ l.asked = [] ∧ s.sprintw < pkgw ∧ s.lastLease = some (0, k)

/-- The state in which it is asked to end. -/
def budgetAsked (s : State) (pwr cshare : List (BitVec 16)) (pkgw : BitVec 16) (g k : Nat) (l : Lease) : State :=
  (measuredAt s g pwr cshare pkgw).putSlot g k l.forBudget

section
variable {k : Nat} {l : Lease} (h : EndsForBudget s pwr cshare pkgw g k l)
include h

theorem askFirst_budget : (measuredAt s g pwr cshare pkgw).askFirst g = budgetAsked s pwr cshare pkgw g k l := by
  have slot : nth ((measuredAt s g pwr cshare pkgw).cluster g).slots k none = some l := by rw [measuredAt_slots h.due]; exact h.slot
  rcases h.asked with ⟨other, asked⟩ | ⟨rfl, asked, more, last⟩
  · have same : l.forBudget = l := by rw [Lease.forBudget, ← asked]
    rw [budgetAsked, same, putSlot_same slot]
    exact askFirst_paid (.inl other)
  · have same : l.forBudget = l.ask endBUDGET := by rw [Lease.ask, asked, Lease.forBudget]
    rw [budgetAsked, same]
    exact askFirst_asks more ((lastLease_congr (measuredAt_slots h.due)).trans last) slot

theorem budgetAsked_self : (budgetAsked s pwr cshare pkgw g k l).cluster g =
    { (measuredAt s g pwr cshare pkgw).cluster g with slots := (s.cluster g).slots.set k (some l.forBudget) } := by
  obtain ⟨-, -, -, known, -⟩ := h.due
  rw [budgetAsked, putSlot_self (by rw [measuredAt_count h.due]; exact known), measuredAt_slots h.due]

theorem budgetAsked_slot (n : Nat) : nth ((budgetAsked s pwr cshare pkgw g k l).cluster g).slots n none =
    if n = k then some l.forBudget else nth (s.cluster g).slots n none := by
  rw [budgetAsked_self h, nth_set _ _ _ _ _ (nth_some_lt h.slot)]

theorem budgetAsked_here : nth ((budgetAsked s pwr cshare pkgw g k l).cluster g).slots k none = some l.forBudget := by
  rw [budgetAsked_slot h, if_pos rfl]

theorem budgetAsked_ends : LeasesEnd (measuredAt s g pwr cshare pkgw) (budgetAsked s pwr cshare pkgw g k l) g := by
  obtain ⟨-, -, -, known, -⟩ := h.due
  exact modCluster_ends (by rw [measuredAt_count h.due]; exact known) fun _ => rfl

theorem budgetAsked_known : g < (budgetAsked s pwr cshare pkgw g k l).clusters.length := by
  obtain ⟨-, -, -, known, -⟩ := h.due
  rw [(budgetAsked_ends h).count, measuredAt_count h.due]
  exact known

theorem budgetAsked_others {n : Nat} {w : Lease} (hn : n ≠ k)
    (slot : nth ((budgetAsked s pwr cshare pkgw g k l).cluster g).slots n none = some w) : w.asked = [] := by
  rw [budgetAsked_slot h, if_neg hn] at slot
  exact h.others n hn w slot

theorem budget_steps : (((measuredAt s g pwr cshare pkgw).askFirst g).meltStep g).budgetStep g =
    (budgetAsked s pwr cshare pkgw g k l).endAll g [k] endBUDGET := by
  obtain ⟨-, -, slots, -⟩ := id h.due
  have heat : ((budgetAsked s pwr cshare pkgw g k l).cluster g).heat = ((measuredAt s g pwr cshare pkgw).cluster g).heat := by
    rw [budgetAsked_self h]
  have warm : ((budgetAsked s pwr cshare pkgw g k l).cluster g).melt ≠ .refreeze := by
    rw [budgetAsked_self h, measuredAt_self h.due]
    exact h.warm
  have ceiling : ((budgetAsked s pwr cshare pkgw g k l).cluster g).ceiling = (s.cluster g).ceiling := by
    rw [budgetAsked_self h, measuredAt_self h.due]
    rfl
  have slot := budgetAsked_here h
  rw [askFirst_budget h, meltStep_below warm (by rw [melt16_of_heat h.due heat, ceiling]; exact h.below)]
  exact budgetStep_one h.queue (slots ▸ nth_some_lt h.slot) slot rfl fun n w hn there => budgetAsked_others h hn there

theorem budgetEnded_ends : LeasesEnd (measuredAt s g pwr cshare pkgw) ((budgetAsked s pwr cshare pkgw g k l).endLease g k endBUDGET) g :=
  (budgetAsked_ends h).trans (endLease_ends (budgetAsked_known h))

theorem budgetEnded_slots : (((budgetAsked s pwr cshare pkgw g k l).endLease g k endBUDGET).cluster g).slots =
    (s.cluster g).slots.set k none := by
  rw [endLease_cluster (budgetAsked_known h) (budgetAsked_here h), Cluster.freed_slots, budgetAsked_self h,
    List.set_set]

/-- A lease that is not HARD ends. -/
theorem budget_soft (soft : l.hard = false) : ∃ t, exec (.update1ms pwr cshare pkgw) s = .next t ∧
    Closed ((budgetAsked s pwr cshare pkgw g k l).endLease g k endBUDGET) t g (s.now / 1000000) := by
  have traps := traps_of_soft (l := l.forBudget) soft endBUDGET
  have slot := budgetAsked_here h
  have alone := endAll_soft (budgetAsked_known h) slot (fun n w hn there => budgetAsked_others h hn there) traps
  refine update1ms_closed h.due ((budget_steps h).trans alone) ?_
  rw [(budgetEnded_ends h).count, measuredAt_count h.due]

section
variable {x : Inst} {y : Launch} {a b : Task} {j : Nat} (may : MayTrap s g k l x y a b j)
include may

theorem budgetAsked_mayTrap : MayTrap (budgetAsked s pwr cshare pkgw g k l) g k l.forBudget x y a b j := by
  have ends := budgetAsked_ends h
  obtain ⟨-, -, -, -, -, -, -, -, -, -, -, alone, -⟩ := id may
  refine mayTrap_transfer (l := l) may ?_ ((measuredAt_plan h.due).trans ends.plan) ?_ fun n w there same => ?_
  · rfl
  · obtain ⟨-, count, -⟩ := h.due
    rw [ends.count, measuredAt_count h.due, count]
  · rw [budgetAsked_slot h] at there
    split at there
    · assumption
    · exact alone n w there same

/-- A HARD one traps, too. -/
theorem budget_hard : ∃ t, exec (.update1ms pwr cshare pkgw) s = .next t ∧
    Closed (((budgetAsked s pwr cshare pkgw g k l).endLease g k endBUDGET).trap l.forBudget) t g (s.now / 1000000) := by
  have traps : l.forBudget.traps endBUDGET = true := traps_of_hard may.1 (.inr (.inr rfl))
  have slot := budgetAsked_here h
  have mayTrap := budgetAsked_mayTrap h may
  have alone := endAll_hard mayTrap slot (fun n w hn there => budgetAsked_others h hn there) traps
  have taken := trap_taken (trapReady_of_mayTrap (reason := endBUDGET) mayTrap slot)
  refine update1ms_closed h.due ((budget_steps h).trans alone) ?_
  rw [taken.clusters, (budgetEnded_ends h).count, measuredAt_count h.due]

end

end

/-! ## The heat store reaches its ceiling (R110) -/

/-- A cluster that its update brings to its ceiling. -/
structure AtCeiling (s : State) (pwr cshare : List (BitVec 16)) (pkgw : BitVec 16) (g : Nat) : Prop where
  due : UpdateDue s g
  queue : s.ctrlQ = []
  unasked : NoneAsked s g
  paid : g ≠ 0 ∨ pkgw ≤ s.sprintw ∨ s.lastLease = none
  warm : (s.cluster g).melt ≠ .refreeze
  reached : (s.cluster g).ceiling.toNat ≤ meltAfter s g pwr cshare

/-- The state in which it has reached it. -/
def ceilingReached (s : State) (pwr cshare : List (BitVec 16)) (pkgw : BitVec 16) (g : Nat) : State :=
  (measuredAt s g pwr cshare pkgw).refreeze g

section
variable (h : AtCeiling s pwr cshare pkgw g)
include h

theorem ceilingReached_self : (ceilingReached s pwr cshare pkgw g).cluster g =
    { (measuredAt s g pwr cshare pkgw).cluster g with melt := .refreeze } := by
  obtain ⟨-, -, -, known, -⟩ := h.due
  exact refreeze_self (by rw [measuredAt_count h.due]; exact known)

theorem ceilingReached_slots : ((ceilingReached s pwr cshare pkgw g).cluster g).slots = (s.cluster g).slots := by
  rw [ceilingReached_self h]
  exact measuredAt_slots h.due g

theorem ceilingReached_ends : LeasesEnd (measuredAt s g pwr cshare pkgw) (ceilingReached s pwr cshare pkgw g) g := by
  obtain ⟨-, -, -, known, -⟩ := h.due
  exact modCluster_ends (by rw [measuredAt_count h.due]; exact known) fun _ => rfl

theorem ceilingReached_count : (ceilingReached s pwr cshare pkgw g).clusters.length = 16 := by
  rw [(ceilingReached_ends h).count, measuredAt_count h.due]

theorem ceilingReached_known : g < (ceilingReached s pwr cshare pkgw g).clusters.length := by
  obtain ⟨-, -, -, known, -⟩ := h.due
  rw [ceilingReached_count h]
  exact known

/-- The leases that are live end, and leave none to end for the budget. -/
theorem ceiling_closed {v : State}
    (ends : (ceilingReached s pwr cshare pkgw g).endAll g ((ceilingReached s pwr cshare pkgw g).cluster g).live endCEILING = v)
    (unasked : NoneAsked v g) (count : v.clusters.length = 16) :
    ∃ t, exec (.update1ms pwr cshare pkgw) s = .next t ∧ Closed v t g (s.now / 1000000) := by
  have warm : ((measuredAt s g pwr cshare pkgw).cluster g).melt ≠ .refreeze := by
    rw [measuredAt_self h.due]
    exact h.warm
  have ceiling : ((measuredAt s g pwr cshare pkgw).cluster g).ceiling = (s.cluster g).ceiling := by
    rw [measuredAt_self h.due]
    rfl
  refine update1ms_closed h.due ?_ count
  rw [measuredAt_paid h.due h.paid, meltStep_ceiling (s := measuredAt s g pwr cshare pkgw) h.queue
    (measuredAt_noneAsked h.due h.unasked) warm (by rw [melt16_of_heat h.due rfl, ceiling]; exact h.reached)]
  exact (congrArg (State.budgetStep · g) ends).trans (budgetStep_none unasked)

/-- Leases that are not HARD end. -/
theorem ceiling_soft (soft : ∀ n w, nth (s.cluster g).slots n none = some w → w.hard = false) :
    ∃ t, exec (.update1ms pwr cshare pkgw) s = .next t ∧ Closed ((ceilingReached s pwr cshare pkgw g).endSlots g endCEILING
      ((ceilingReached s pwr cshare pkgw g).cluster g).live) t g (s.now / 1000000) := by
  have known := ceilingReached_known h
  have slots := ceilingReached_slots h
  obtain ⟨-, -, count, -⟩ := h.due
  have count' : ((ceilingReached s pwr cshare pkgw g).cluster g).slots.length = 16 := by rw [slots, count]
  refine ceiling_closed h (endAll_live known count' (by rw [slots]; exact soft)) (fun n w there => ?_) ?_
  · rw [endSlots_live known count'] at there
    cases there
  · rw [(endSlots_ends known _).count, ceilingReached_count h]

section
variable {k : Nat} {l : Lease} {x : Inst} {y : Launch} {a b : Task} {j : Nat} (may : MayTrap s g k l x y a b j)
include may

theorem ceilingReached_mayTrap : MayTrap (ceilingReached s pwr cshare pkgw g) g k l x y a b j := by
  have slots := ceilingReached_slots h
  obtain ⟨-, -, -, -, -, -, -, -, -, -, -, alone, -⟩ := id may
  obtain ⟨-, count, -⟩ := h.due
  exact mayTrap_transfer may rfl ((measuredAt_plan h.due).trans (ceilingReached_ends h).plan) ((ceilingReached_count h).trans count.symm)
    (by rw [slots]; exact alone)

/-- The only lease of the cluster, a HARD one, ends and traps. -/
theorem ceiling_hard (slot : nth (s.cluster g).slots k none = some l)
    (only : ∀ n w, nth (s.cluster g).slots n none = some w → n = k) : ∃ t, exec (.update1ms pwr cshare pkgw) s = .next t ∧
    Closed (((ceilingReached s pwr cshare pkgw g).endLease g k endCEILING).trap l) t g (s.now / 1000000) := by
  have known := ceilingReached_known h
  have slots := ceilingReached_slots h
  have mayTrap := ceilingReached_mayTrap h may
  have slot' : nth ((ceilingReached s pwr cshare pkgw g).cluster g).slots k none = some l := by rw [slots, slot]
  have taken := trap_taken (trapReady_of_mayTrap (reason := endCEILING) mayTrap slot')
  have live : ((ceilingReached s pwr cshare pkgw g).cluster g).live = [k] := by
    obtain ⟨-, -, count, -⟩ := h.due
    refine range_filter_one (count ▸ nth_some_lt slot) fun m _ => ?_
    rw [slots]
    constructor
    · intro there
      obtain ⟨w, hw⟩ := Option.isSome_iff_exists.1 there
      exact only m w hw
    · rintro rfl
      rw [slot]
      rfl
  have others : ∀ n w, n ≠ k → nth ((ceilingReached s pwr cshare pkgw g).cluster g).slots n none = some w → w.asked = [] :=
    fun n w hn there => absurd (only n w (by rw [← slots]; exact there)) hn
  have ends := endAll_hard mayTrap slot' others (traps_of_hard may.1 (.inr (.inl rfl)))
  refine ceiling_closed h (by rw [live]; exact ends) (fun n w there => ?_) ?_
  · rw [State.cluster_congr taken.clusters, endLease_slot known] at there
    split at there
    · cases there
    · exact others n w ‹_› there
  · rw [taken.clusters, (endLease_ends known).count, ceilingReached_count h]

end

end

end

end Sys2Proof.Claims
end

section
namespace Sys2Proof.Claims
open Sys2Proof.Machine

section
variable {s : State} {pwr cshare : List (BitVec 16)} {pkgw : BitVec 16} {g : Nat}

/-! ## The cases of an update -/

/-- An update that only measures. -/
theorem update_below (due : UpdateDue s g) (unasked : NoneAsked s g) (paid : g ≠ 0 ∨ pkgw ≤ s.sprintw ∨ s.lastLease = none)
    (warm : (s.cluster g).melt ≠ .refreeze) (below : meltAfter s g pwr cshare < (s.cluster g).ceiling.toNat) :
    ∃ t, exec (.update1ms pwr cshare pkgw) s = .next t ∧ MeasuredOnly s t g pwr cshare pkgw ∧
      (∀ n, n ≠ g → t.cluster n = s.cluster n) ∧ (t.cluster g).melt = (s.cluster g).melt := by
  have self := measuredAt_self (pwr := pwr) (cshare := cshare) (pkgw := pkgw) due
  have steps : (((measuredAt s g pwr cshare pkgw).askFirst g).meltStep g).budgetStep g = measuredAt s g pwr cshare pkgw := by
    rw [measuredAt_paid due paid, meltStep_below, budgetStep_none (measuredAt_noneAsked due unasked)]
    · rw [self]
      exact warm
    · rw [melt16_of_heat due rfl, self]
      exact below
  obtain ⟨t, next, closed⟩ := update1ms_closed due steps (measuredAt_count due)
  refine ⟨t, next, measuredOnly_of due rfl rfl closed, fun n hn => (closed.others n hn).trans (measured_ne hn), ?_⟩
  rw [closed.self, self]
  rfl

/-- An update of a cluster in REFREEZE. -/
theorem update_refreeze (due : UpdateDue s g) (unasked : NoneAsked s g) (paid : g ≠ 0 ∨ pkgw ≤ s.sprintw ∨ s.lastLease = none)
    (cold : (s.cluster g).melt = .refreeze) :
    ∃ t, exec (.update1ms pwr cshare pkgw) s = .next t ∧ MeasuredOnly s t g pwr cshare pkgw ∧
      (∀ n, n ≠ g → t.cluster n = s.cluster n) ∧
      (t.cluster g).melt = if meltAfter s g pwr cshare < (s.cluster g).rearm.toNat then .cool else .refreeze := by
  have count := measuredAt_count (pwr := pwr) (cshare := cshare) (pkgw := pkgw) due
  have self := measuredAt_self (pwr := pwr) (cshare := cshare) (pkgw := pkgw) due
  obtain ⟨-, -, -, known, -⟩ := id due
  have here : ((measuredAt s g pwr cshare pkgw).rearmed g).cluster g = { (measuredAt s g pwr cshare pkgw).cluster g with
      melt := if ((measuredAt s g pwr cshare pkgw).cluster g).melt16 < ((measuredAt s g pwr cshare pkgw).cluster g).rearm.toNat then .cool
        else .refreeze } := State.cluster_modCluster_self _ _ _ (by rw [count]; exact known)
  have unasked' : NoneAsked ((measuredAt s g pwr cshare pkgw).rearmed g) g := by
    rw [NoneAsked, here]
    exact measuredAt_noneAsked due unasked
  have steps : (((measuredAt s g pwr cshare pkgw).askFirst g).meltStep g).budgetStep g = (measuredAt s g pwr cshare pkgw).rearmed g := by
    rw [measuredAt_paid due paid, meltStep_refreeze (by rw [self]; exact cold), budgetStep_none unasked']
  obtain ⟨t, next, closed⟩ := update1ms_closed due steps ((upd_length ..).trans count)
  refine ⟨t, next, measuredOnly_of due (by rw [here]) rfl closed, fun n hn => ?_, ?_⟩
  · exact (closed.others n hn).trans ((State.cluster_modCluster_ne _ _ hn).trans (measured_ne hn))
  · rw [closed.self, here, melt16_of_heat due rfl, self]
    rfl

/-- A cluster that has its update already. -/
theorem update_done (subject : s.subject.1 = g) (last : (s.cluster g).lastMs = some (s.now / 1000000)) :
    exec (.update1ms pwr cshare pkgw) s = .next s := by
  have due : s.updateDue g = false := by simp [State.updateDue, last]
  simp only [exec, execUpdate1ms, subject, due, Bool.not_false, if_true]

/-- The update of the first cluster asks a lease of another to end for the budget. -/
theorem update_asks {h k : Nat} {l : Lease} (due : UpdateDue s 0) (unasked : NoneAsked s 0) (warm : (s.cluster 0).melt ≠ .refreeze)
    (below : meltAfter s 0 pwr cshare < (s.cluster 0).ceiling.toNat) (more : s.sprintw < pkgw) (other : h ≠ 0) (known : h < 16)
    (last : s.lastLease = some (h, k)) (slot : nth (s.cluster h).slots k none = some l) :
    ∃ t, exec (.update1ms pwr cshare pkgw) s = .next t ∧ MeasuredOnly s t 0 pwr cshare pkgw ∧
      (∀ n, n ≠ 0 → n ≠ h → t.cluster n = s.cluster n) ∧ (t.cluster 0).melt = (s.cluster 0).melt ∧
      t.cluster h = { s.cluster h with slots := (s.cluster h).slots.set k (some { l with asked := 6 :: l.asked }) } := by
  have count := measuredAt_count (pwr := pwr) (cshare := cshare) (pkgw := pkgw) due
  have self := measuredAt_self (pwr := pwr) (cshare := cshare) (pkgw := pkgw) due
  have first : ((measuredAt s 0 pwr cshare pkgw).putSlot h k (l.ask endBUDGET)).cluster 0 = (measuredAt s 0 pwr cshare pkgw).cluster 0 :=
    State.cluster_modCluster_ne _ _ other.symm
  have asks : (measuredAt s 0 pwr cshare pkgw).askFirst 0 = (measuredAt s 0 pwr cshare pkgw).putSlot h k (l.ask endBUDGET) :=
    askFirst_asks more ((lastLease_congr (measuredAt_slots due)).trans last) (by rw [measuredAt_slots due]; exact slot)
  have unasked' : NoneAsked ((measuredAt s 0 pwr cshare pkgw).putSlot h k (l.ask endBUDGET)) 0 := by
    rw [NoneAsked, first]
    exact measuredAt_noneAsked due unasked
  have steps : (((measuredAt s 0 pwr cshare pkgw).askFirst 0).meltStep 0).budgetStep 0 =
      (measuredAt s 0 pwr cshare pkgw).putSlot h k (l.ask endBUDGET) := by
    rw [asks, meltStep_below, budgetStep_none unasked']
    · rw [first, self]
      exact warm
    · rw [melt16_of_heat due (congrArg Cluster.heat first), first, self]
      exact below
  obtain ⟨t, next, closed⟩ := update1ms_closed due steps ((upd_length ..).trans count)
  refine ⟨t, next, measuredOnly_of due (by rw [first]) rfl closed, fun n hn hh => ?_, ?_, ?_⟩
  · exact (closed.others n hn).trans ((State.cluster_modCluster_ne _ _ hh).trans (measured_ne hn))
  · rw [closed.self, first, self]
    rfl
  · rw [closed.others h other, putSlot_self (by rw [count]; exact known), measuredAt, measured_ne other]
    rfl

end

theorem updateRules_happen (pwr cshare : List (BitVec 16)) (pkgw : BitVec 16) (g k h : Nat) (l : Lease) (x : Inst) (y : Launch)
    (a b : Task) (j : Nat) : Happen (updateRules pwr cshare pkgw g k h l x y a b j) := by
  refine .cons (fun s hs => ?below) <| .cons (fun s hs => ?cold) <| .cons (becomes_holds fun s hs => ?done) <|
    .cons (fun s hs => ?asks) <| .cons (fun s hs => ?budgetSoft) <| .cons (fun s hs => ?budgetHard) <|
    .cons (fun s hs => ?ceilingSoft) <| .cons (fun s hs => ?ceilingHard) .nil
  case below =>
    obtain ⟨⟨due, -, unasked⟩, paid, warm, below⟩ := hs
    exact update_below due unasked paid warm below
  case cold =>
    obtain ⟨⟨due, -, unasked⟩, paid, cold⟩ := hs
    exact update_refreeze due unasked paid cold
  case done =>
    obtain ⟨subject, last⟩ := hs
    exact update_done subject last
  case asks =>
    obtain ⟨⟨due, -, unasked⟩, ⟨warm, below⟩, rfl, more, other, known, last, slot⟩ := hs
    exact update_asks due unasked warm below more other known last slot
  case budgetSoft =>
    obtain ⟨⟨due, queue, ⟨warm, below⟩, slot, others, asked⟩, soft⟩ := hs
    have h : EndsForBudget s pwr cshare pkgw g k l := ⟨due, queue, warm, below, slot, others, asked⟩
    obtain ⟨t, next, closed⟩ := budget_soft h soft
    obtain ⟨measured, alone, slots, -⟩ := measured_alone due (budgetEnded_ends h) rfl rfl rfl closed
    obtain ⟨tiles, answers, hbm, launches, insts, vfs⟩ := kept_of_ends (budgetEnded_ends h) closed
    have here := budgetAsked_here h
    refine ⟨t, next, ⟨measured, alone, tiles, answers, hbm, launches⟩, ⟨measured, slots.trans (budgetEnded_slots h), alone⟩, ?_,
      fun x found => ?_, fun n hn => ?_⟩
    · rw [vfs, endLease_silent here (by decide) (traps_of_soft (l := l.forBudget) soft _)]
      rfl
    · rw [insts]
      exact ⟨_, endLease_insts_self (l := l.forBudget) here found, rfl⟩
    · rw [insts]
      refine endLease_insts_ne fun w there same => hn ?_
      cases here.symm.trans there
      exact same.symm
  case budgetHard =>
    obtain ⟨⟨due, queue, ⟨warm, below⟩, slot, others, asked⟩, may⟩ := hs
    have h : EndsForBudget s pwr cshare pkgw g k l := ⟨due, queue, warm, below, slot, others, asked⟩
    obtain ⟨t, next, closed⟩ := budget_hard h may
    have here := budgetAsked_here h
    have may' := budgetAsked_mayTrap h may
    have taken := trap_taken (trapReady_of_mayTrap (reason := endBUDGET) may' here)
    obtain ⟨measured, alone, slots, -⟩ :=
      measured_alone due (budgetEnded_ends h) taken.clusters (by rw [taken.rest]) (by rw [taken.rest]) closed
    have trapped := endLease_trapped may' here (traps_of_hard may.1 (.inr (.inr rfl)))
    exact ⟨t, next, ⟨measured, slots.trans (budgetEnded_slots h), alone⟩, trapped_closed (l := l) trapped rfl closed⟩
  case ceilingSoft =>
    obtain ⟨⟨⟨due, queue, unasked⟩, paid, warm, reached⟩, soft⟩ := hs
    have h : AtCeiling s pwr cshare pkgw g := ⟨due, queue, unasked, paid, warm, reached⟩
    obtain ⟨t, next, closed⟩ := ceiling_soft h soft
    have known := ceilingReached_known h
    have before := ceilingReached_slots h
    have ends := (ceilingReached_ends h).trans
      (endSlots_ends known (reason := endCEILING) ((ceilingReached s pwr cshare pkgw g).cluster g).live)
    obtain ⟨measured, alone, slots, melt⟩ := measured_alone due ends rfl rfl rfl closed
    obtain ⟨tiles, answers, hbm, launches, insts, -⟩ := kept_of_ends ends closed
    obtain ⟨-, -, count, -⟩ := due
    have count' : ((ceilingReached s pwr cshare pkgw g).cluster g).slots.length = 16 := by rw [before, count]
    refine ⟨t, next, ⟨measured, alone, tiles, answers, hbm, launches⟩, ?_, fun n => ?_, fun n w there only x found => ?_, fun i others => ?_⟩
    · rw [melt, endSlots_refreeze known (by rw [ceilingReached_self h])]
    · rw [slots, endSlots_live known count']
    · rw [insts]
      rw [← before] at there only
      exact endSlots_knows known there only found (mem_live count' there)
    · rw [insts]
      rw [← before] at others
      exact endSlots_insts known others _
  case ceilingHard =>
    obtain ⟨⟨⟨due, queue, unasked⟩, paid, warm, reached⟩, slot, may, only⟩ := hs
    have h : AtCeiling s pwr cshare pkgw g := ⟨due, queue, unasked, paid, warm, reached⟩
    obtain ⟨t, next, closed⟩ := ceiling_hard h may slot only
    have known := ceilingReached_known h
    have before := ceilingReached_slots h
    have here : nth ((ceilingReached s pwr cshare pkgw g).cluster g).slots k none = some l := by rw [before, slot]
    have may' := ceilingReached_mayTrap h may
    have taken := trap_taken (trapReady_of_mayTrap (reason := endCEILING) may' here)
    have ends := (ceilingReached_ends h).trans (endLease_ends (k := k) (reason := endCEILING) known)
    obtain ⟨measured, alone, slots, melt⟩ := measured_alone due ends taken.clusters (by rw [taken.rest]) (by rw [taken.rest]) closed
    have trapped := endLease_trapped may' here (traps_of_hard may.1 (.inr (.inl rfl)))
    refine ⟨t, next, ⟨measured, ?_, alone⟩, ?_, trapped_closed trapped rfl closed⟩
    · rw [slots, endLease_cluster known here, Cluster.freed_slots, before]
    · rw [melt, endLease_refreeze known (by rw [ceilingReached_self h])]

end Sys2Proof.Claims
end

section
namespace Sys2Proof.Claims.Power
open Sys2Proof.Machine Sys2Proof.Claims

/-- Settles O45: the update of a cluster, then the buckets and the gates of tiles. -/
theorem powerEvents : Obligations.PowerEvents := ⟨updateRules_happen, gateRules_happen⟩

/-- Settles O46: requests by the order of the refusals, then the events by which leases begin and end. -/
theorem leaseEvents : Obligations.LeaseEvents := ⟨requestRules_happen, leaseEvents_happen⟩

end Sys2Proof.Claims.Power
end

/-! # Tokens, credits and messages on their way (R84, R86, R134 to R140) -/

section
namespace Sys2Proof.Machine

/-! ## What changes of elements, tiles and operations leave -/

theorem modElem_modElem (s : State) (eid : Nat) (f g : Element → Element) :
    (s.modElem eid f).modElem eid g = s.modElem eid (fun e => g (f e)) := by
  simp only [State.modElem, State.elem_setElem_self]
  simp only [State.setElem, NMap.put_put]

theorem modTile_modTile (s : State) (n : Nat) (f g : Tile → Tile) : (s.modTile n f).modTile n g = s.modTile n (fun t => g (f t)) := by
  simp only [State.modTile, State.tile_setTile_self]
  simp only [State.setTile, NMap.put_put]

theorem modElem_congr {s : State} {eid : Nat} {f g : Element → Element} (h : f (s.elem eid) = g (s.elem eid)) :
    s.modElem eid f = s.modElem eid g := by
  rw [State.modElem, State.modElem, h]

/-- Counts in a tile leave its buffers. -/
theorem CountOnly.epBuf {s t : State} (h : CountOnly s t) (n : Nat) : (t.tile n).epBuf = (s.tile n).epBuf :=
  (congrArg Tile.epBuf (h.tiles n) :)

theorem CountOnly.egressReq {s t : State} (h : CountOnly s t) (n : Nat) : (t.tile n).egressReq = (s.tile n).egressReq :=
  (congrArg Tile.egressReq (h.tiles n) :)

theorem CountOnly.egressResp {s t : State} (h : CountOnly s t) (n : Nat) : (t.tile n).egressResp = (s.tile n).egressResp :=
  (congrArg Tile.egressResp (h.tiles n) :)

theorem countTile_ne (s : State) {t n : Nat} (g k c : Nat) (h : n ≠ t) : (s.countTile t g k c).tile n = s.tile n := by
  unfold State.countTile
  split
  · rfl
  · exact State.tile_setTile_ne _ _ h

/-- A fault of an element leaves the track, memory and the tiles. -/
theorem takeFault_rest (s : State) (eid family code : Nat) (toks : List TokEntry) : s.takeFault eid family code 0 none 0 toks =
    { s with
      elems := (s.takeFault eid family code 0 none 0 toks).elems, insts := (s.takeFault eid family code 0 none 0 toks).insts
      recSeq := (s.takeFault eid family code 0 none 0 toks).recSeq } := by
  unfold State.takeFault
  dsimp only
  split
  · rw [produce_rest]; rfl
  · rfl

/-- An operation that answers and ends changes operations and its element alone. -/
theorem settleOp_rest (s : State) (op : Nat) :
    s.settleOp op = { s with ops := (s.settleOp op).ops, elems := (s.settleOp op).elems } := by
  unfold State.settleOp
  split
  · rfl
  · dsimp only
    split <;> split <;> rfl

theorem settleFences_rest (s : State) (eid : Nat) : s.settleFences eid = { s with elems := (s.settleFences eid).elems } := by
  unfold State.settleFences
  dsimp only
  split <;> rfl

theorem settle_rest (s : State) (op eid : Nat) :
    s.settle op eid = { s with ops := (s.settle op eid).ops, elems := (s.settle op eid).elems } := by
  rw [State.settle, settleFences_rest, settleOp_rest]

end Sys2Proof.Machine
end

section
namespace Sys2Proof.Claims
open Sys2Proof.Machine

/-! ## A queue takes a token; a token is lost -/

/-- A token that enters a queue of an element in RUN leaves no fault (R84). -/
theorem acceptToken_putIn {s : State} {eid : Nat} (run : (s.elem eid).state = .run) (q : Nat) (tok : Token) :
    s.acceptToken eid q tok = putIn eid q tok s := by
  have live : ((putIn eid q tok s).elem eid).state = .run := by rw [putIn, State.elem_modElem_self, run]
  change (putIn eid q tok s).checkLive eid = _
  simp only [State.checkLive, live]
  rfl

/-- A token that is lost without a pacer log faults its sender, where that is still there and the token is no FINISH that only finds
no element (R84, R137). -/
theorem deadToken_faults {s : State} {sender i code : Nat} {e : TokEntry} (inst : (s.elem sender).inst = some i)
    (plain : e.token.pacer = none) (live_or_overrun : e.token.tag ≠ tagFinish ∨ code ≠ cFINISHLIVE) :
    s.deadToken sender i code e = s.takeFault sender fSTREAM code 0 none 0 [e] := by
  have log : s.endSentLog sender i e.token 2 = s := by rw [State.endSentLog, plain]
  have stays : (decide (e.token.tag = tagFinish) && decide (code = cFINISHLIVE) || decide ((s.elem sender).inst ≠ some i)) = false := by
    rcases live_or_overrun with h | h <;> simp [inst, h]
  simp only [State.deadToken, log, stays]
  rfl

/-! ## TOKEN_TRANSFER out of a route buffer (R134, R139) -/

/-- A route entry of a tile whose hops go on. -/
structure OpenEntry (s : State) (eid k : Nat) (r : BitVec 32) : Prop where
  hops : (s.tile (tileOf eid)).hopsStopped = false
  route : (s.elem eid).route? k = some r
  slot : k < 16

/-- The element with the buffer of the entry handed on. -/
def handed (s : State) (eid k : Nat) : State := s.modElem eid (fun e => { e with
  rb := upd e.rb k (fun _ => none), rbHold := upd e.rbHold k (fun _ => (s.cluster (clusterOf (tileOf eid))).srdNow) })

section
variable {s : State} {eid k : Nat} {r : BitVec 32} {tok : Token}

theorem handed_kept (e : Nat) :
    (handed s eid k).elem e = { s.elem e with rb := ((handed s eid k).elem e).rb, rbHold := ((handed s eid k).elem e).rbHold } := by
  rw [handed, State.elem_modElem]
  split
  · subst e; rfl
  · rfl

theorem handed_rb (known : k < (s.elem eid).rb.length) : nth ((handed s eid k).elem eid).rb k none = none := by
  rw [handed, State.elem_modElem_self]
  exact nth_upd_self _ _ _ _ known

theorem tokenTransfer_leaves (entry : OpenEntry s eid k r) (full : nth (s.elem eid).rb k none = some tok)
    (old : (s.elem eid).rbFresh.getLsbD k = false) : exec (.tokenTransfer eid k) s = .next (s.handOn eid k r tok) := by
  simp only [exec, execTokenTransfer, entry.hops, entry.route, full, old]
  rfl

theorem handOn_enters (near : r.getLsbD 30 = false) (run : (s.elem (localDest (tileOf eid) r).1).state = .run)
    (room : (s.elem (localDest (tileOf eid) r).1).inRoom (localDest (tileOf eid) r).2 = true) :
    s.handOn eid k r tok = putIn (localDest (tileOf eid) r).1 (localDest (tileOf eid) r).2 tok (handed s eid k) := by
  have run' : ((handed s eid k).elem (localDest (tileOf eid) r).1).state = .run := by rw [handed_kept, run]
  rw [← acceptToken_putIn run']
  simp only [State.handOn, routeFar, near, run, room]
  rfl

theorem handOn_lost (near : r.getLsbD 30 = false) (free : (s.elem (localDest (tileOf eid) r).1).state = .unoccupied) :
    s.handOn eid k r tok = (handed s eid k).deadToken eid ((s.elem eid).inst.getD 0) cFINISHLIVE
      ⟨tok, 7, (localDest (tileOf eid) r).2, (localDest (tileOf eid) r).1, false⟩ := by
  simp only [State.handOn, routeFar, near, free]
  rfl

theorem handOn_far {i : Nat} {d : Nat × Nat} (far : r.getLsbD 30 = true) (dest : s.farDest eid k = some d)
    (inst : (s.elem eid).inst = some i) (room : s.egressLoad (tileOf eid) + 5 ≤ 36) : s.handOn eid k r tok =
      { (handed s eid k).modTile (tileOf eid) (fun t => { t with
        egressReq := t.egressReq ++ [farMsg s.nextId (tileOf eid) d.1 d.2 ⟨tok, eid, k, i⟩] }) with nextId := s.nextId + 1 } := by
  simp only [State.handOn, routeFar, far, dest, inst, room]
  rfl

/-- A token for a local element that is unoccupied faults its sender (R84). -/
theorem tokenTransfer_lost {i : Nat} (entry : OpenEntry s eid k r) (full : nth (s.elem eid).rb k none = some tok)
    (old : (s.elem eid).rbFresh.getLsbD k = false) (near : r.getLsbD 30 = false)
    (free : (s.elem (localDest (tileOf eid) r).1).state = .unoccupied) (inst : (s.elem eid).inst = some i) (live : tok.tag ≠ 0xF)
    (plain : tok.pacer = none) (buffers : (s.elem eid).rb.length = 16) : ∃ t, exec (.tokenTransfer eid k) s = .next t ∧
      Faulted s t eid i 4 2 [⟨tok, 7, (localDest (tileOf eid) r).2, (localDest (tileOf eid) r).1, false⟩] ∧
      nth (t.elem eid).rb k none = none ∧ (t.elem eid).iq = (s.elem eid).iq := by
  have inst' : ((handed s eid k).elem eid).inst = some i := by rw [handed_kept, inst]
  obtain ⟨elem, faulted⟩ := takeFault_faulted inst' fSTREAM cFINISHLIVE
    [⟨tok, 7, (localDest (tileOf eid) r).2, (localDest (tileOf eid) r).1, false⟩]
  refine ⟨_, ?_, faulted, ?_, ?_⟩
  · rw [tokenTransfer_leaves entry full old, handOn_lost near free, inst]
    exact congrArg _ (deadToken_faults inst' plain (.inl live))
  · rw [elem]
    exact handed_rb (by rw [buffers]; exact entry.slot)
  · rw [elem, handed_kept]

end

/-! ## TOKEN_TRANSFER into a route buffer (R134, R136) -/

/-- The element once the head of its output queue has been copied into the route buffer of an entry. -/
def copied (k : Nat) (tok : Token) (e : Element) : Element :=
  { e with
    rb := upd e.rb k (fun _ => some tok), rbFresh := e.rbFresh ||| BitVec.ofNat 16 (2 ^ k),
    credits := if (nth e.bank.routes k 0).getLsbD 30 then upd e.credits k (· - 1) else e.credits,
    taken := upd e.taken (k / 4) (fun m => m ||| BitVec.ofNat 4 (2 ^ (k % 4))) }

/-- And once the head's place is freed. -/
def headFreed (q : Nat) (e : Element) : Element := { e with oq := upd e.oq q (·.drop 1), taken := upd e.taken q (fun _ => 0) }

/-- The head of the output queue may go into the route buffer of the entry, which it has not done before. -/
structure Copies (s : State) (eid k : Nat) (r : BitVec 32) (tok : Token) : Prop where
  entry : OpenEntry s eid k r
  empty : nth (s.elem eid).rb k none = none
  held : nth (s.elem eid).rbHold k 0 = 0
  queues : (s.elem eid).taken.length = 4
  head : (nth (s.elem eid).oq (k / 4) []).head? = some tok
  due : k % 4 ∉ s.served eid (k / 4) tok
  credit : r.getLsbD 30 = true → 0 < nth (s.elem eid).credits k 0 ∧ (s.elem eid).withdrawn.getLsbD k = false

theorem route_eq {e : Element} {k : Nat} {r : BitVec 32} (h : e.route? k = some r) : nth e.bank.routes k 0 = r := by
  unfold Element.route? at h
  dsimp only at h
  split at h
  · exact Option.some.inj h
  · exact nomatch h

/-- A bit of a mask of destinations with one more. -/
theorem destMask_getLsbD (m : BitVec 4) {j k : Nat} (hj : j < 4) (hk : k < 4) :
    (m ||| BitVec.ofNat 4 (2 ^ k)).getLsbD j = (m.getLsbD j || decide (j = k)) := by
  revert m
  interval_cases j <;> interval_cases k <;> decide

section
variable {s : State} {eid k : Nat} {r : BitVec 32} {tok : Token}

theorem Copies.room (h : Copies s eid k r tok) : (s.elem eid).copyRoom k r = true := by
  simp only [Element.copyRoom, routeFar, h.empty, h.held]
  cases far : r.getLsbD 30
  · rfl
  · obtain ⟨credit, open_⟩ := h.credit far
    simp [credit, open_]

theorem tokenTransfer_copies (h : Copies s eid k r tok) : exec (.tokenTransfer eid k) s = .next (s.copyHead eid k tok) := by
  simp only [exec, execTokenTransfer, h.entry.hops, h.entry.route, h.empty, h.head, h.room]
  rfl

theorem leaves_copied (j : Nat) : (s.modElem eid (copied k tok)).leaves eid j = s.leaves eid j := by
  simp only [State.leaves, State.farDest, State.instOf, State.elem_modElem_self]
  rfl

/-- The destinations that are served then: those before, and the entry's. -/
theorem served_copied (h : Copies s eid k r tok) : (s.modElem eid (copied k tok)).served eid (k / 4) tok =
    ((s.elem eid).bank.routesOf (k / 4)).filter (fun j => decide (j = k % 4) || (s.served eid (k / 4) tok).contains j) := by
  have queue : k / 4 < (s.elem eid).taken.length := by rw [h.queues]; have := h.entry.slot; omega
  have taken : nth (copied k tok (s.elem eid)).taken (k / 4) 0 = nth (s.elem eid).taken (k / 4) 0 ||| BitVec.ofNat 4 (2 ^ (k % 4)) :=
    nth_upd_self _ _ _ _ queue
  rw [State.served, State.elem_modElem_self]
  refine List.filter_congr fun j hj => ?_
  have below : j < 4 := List.mem_range.1 (List.mem_filter.1 hj).1
  rw [leaves_copied, taken, destMask_getLsbD _ below (Nat.mod_lt _ (by decide))]
  simp only [State.served, List.contains_eq_mem, List.mem_filter, show j ∈ (s.elem eid).bank.routesOf (k / 4) from hj, true_and,
    Bool.decide_eq_true]
  cases decide (j = k % 4) <;> simp

/-- All have their copy with this one where every other destination is served. -/
theorem served_all (h : Copies s eid k r tok) :
    ((s.modElem eid (copied k tok)).served eid (k / 4) tok).length = ((s.elem eid).bank.routesOf (k / 4)).length ↔
      ((s.elem eid).bank.routesOf (k / 4)).all (fun j => j = k % 4 || (s.served eid (k / 4) tok).contains j) = true := by
  rw [served_copied h, List.length_filter_eq_length_iff, List.all_eq_true]

theorem copyHead_eq (h : Copies s eid k r tok) : s.copyHead eid k tok = s.modElem eid (fun e =>
    let last := (e.bank.routesOf (k / 4)).all (fun j => j = k % 4 || (s.served eid (k / 4) tok).contains j)
    { e with
      rb := upd e.rb k (fun _ => some tok), rbFresh := e.rbFresh ||| BitVec.ofNat 16 (2 ^ k),
      credits := if r.getLsbD 30 then upd e.credits k (· - 1) else e.credits,
      taken := upd e.taken (k / 4) (fun m => if last then 0 else m ||| BitVec.ofNat 4 (2 ^ (k % 4))),
      oq := if last then upd e.oq (k / 4) (·.drop 1) else e.oq }) := by
  have route := route_eq h.entry.route
  have due : (s.served eid (k / 4) tok).contains (k % 4) = false := by simpa using h.due
  have copy : s.copyHead eid k tok =
      if ((s.modElem eid (copied k tok)).served eid (k / 4) tok).length = ((s.elem eid).bank.routesOf (k / 4)).length then
        (s.modElem eid (copied k tok)).modElem eid (headFreed (k / 4))
      else s.modElem eid (copied k tok) := by
    simp only [State.copyHead, due, State.elem_modElem_self]
    rfl
  rw [copy]
  split
  next all =>
    rw [modElem_modElem]
    refine modElem_congr ?_
    simp only [(served_all h).1 all, headFreed, copied, route, if_true, upd, List.modify_modify_eq]
    rfl
  next some_ =>
    refine modElem_congr ?_
    simp only [Bool.eq_false_iff.2 (mt (served_all h).2 some_), copied, route]
    rfl

end

theorem transferRules_happen (eid k : Nat) (r : BitVec 32) (tok : Token) (i : Nat) (d : Nat × Nat) :
    Happen (transferRules eid k r tok i d) := by
  refine .cons (becomes_holds ?_) <| .cons ?_ <| .cons (becomes_holds ?_) <| .cons (becomes_holds ?_) .nil
  · rintro s ⟨⟨⟨hops, route, slot⟩, full, old⟩, near, run, room⟩
    rw [tokenTransfer_leaves ⟨hops, route, slot⟩ full old, handOn_enters near run room]
    rfl
  · rintro s ⟨⟨⟨hops, route, slot⟩, full, old⟩, near, free, -, inst, live, plain, buffers⟩
    exact tokenTransfer_lost ⟨hops, route, slot⟩ full old near free inst live plain buffers
  · rintro s ⟨⟨⟨hops, route, slot⟩, full, old⟩, far, dest, inst, room⟩
    rw [tokenTransfer_leaves ⟨hops, route, slot⟩ full old, handOn_far far dest inst room]
    rfl
  · rintro s ⟨⟨hops, route, slot⟩, empty, held, queues, head, due, credit⟩
    have copies : Copies s eid k r tok := ⟨⟨hops, route, slot⟩, empty, held, queues, head, due, credit⟩
    rw [tokenTransfer_copies copies, copyHead_eq copies]

/-! ## Far tokens and their endpoints (R84, R86, R135 to R137) -/

/-- A fault in a state with the elements, instances and time of another is one there too. -/
theorem Faulted.congr {s u t : State} {eid i family code : Nat} {toks : List TokEntry} (h : Faulted u t eid i family code toks)
    (insts : u.insts = s.insts) (now : u.now = s.now) : Faulted s t eid i family code toks := by
  rw [Faulted, ← insts, ← now]
  exact h

section
variable {s : State} {msg ch : Nat} {m : Msg} {f : FarTok}

/-- A far token has come to its turn. -/
structure Comes (s : State) (msg ch : Nat) (m : Msg) (f : FarTok) : Prop where
  arriving : s.arriving msg = some m
  body : m.body = .far ch f

theorem farTokenArrival_buffered (h : Comes s msg ch m f) (live : s.endpointLive m.src m.dst ch = true)
    (room : (nth (s.tile m.dst).epBuf ch []).length < 8) : exec (.farTokenArrival msg) s =
      .next (((s.dropMsg msg).modTile m.dst (fun t => { t with epBuf := upd t.epBuf ch (· ++ [f]) })).countTile m.dst 6 1 1) := by
  have live' : (s.dropMsg msg).endpointLive m.src m.dst ch = true := live
  have room' : ¬8 ≤ (nth ((s.dropMsg msg).tile m.dst).epBuf ch []).length := Nat.not_le.2 room
  simp only [exec, execFarTokenArrival, h.arriving, h.body, live', if_neg room']
  rfl

theorem farTokenArrival_overrun (h : Comes s msg ch m f) (live : s.endpointLive m.src m.dst ch = true)
    (full : 8 ≤ (nth (s.tile m.dst).epBuf ch []).length) : exec (.farTokenArrival msg) s =
      .next (((s.dropMsg msg).countTile m.dst 6 5 1).deadToken f.eid f.inst cFARRUN ⟨f.tok, 7, ch, m.dst, true⟩) := by
  have live' : (s.dropMsg msg).endpointLive m.src m.dst ch = true := live
  have full' : 8 ≤ (nth ((s.dropMsg msg).tile m.dst).epBuf ch []).length := full
  simp only [exec, execFarTokenArrival, h.arriving, h.body, live', if_pos full']
  rfl

theorem farTokenArrival_dead (h : Comes s msg ch m f) (dead : s.endpointLive m.src m.dst ch = false) : exec (.farTokenArrival msg) s =
    .next (((s.dropMsg msg).giveCredit m.dst f).deadToken f.eid f.inst cFINISHLIVE ⟨f.tok, 7, ch, m.dst, true⟩) := by
  have dead' : (s.dropMsg msg).endpointLive m.src m.dst ch = false := dead
  simp only [exec, execFarTokenArrival, h.arriving, h.body, dead']
  rfl

/-- It stands behind those in the buffer, and only the counters of the tile change besides. -/
theorem buffered_spec (s : State) (msg ch : Nat) (m : Msg) (f : FarTok) :
    let t := ((s.dropMsg msg).modTile m.dst (fun t => { t with epBuf := upd t.epBuf ch (· ++ [f]) })).countTile m.dst 6 1 1
    Arrived s t msg ∧ (t.tile m.dst).epBuf = upd (s.tile m.dst).epBuf ch (· ++ [f]) ∧ t.elems = s.elems ∧ t.hbm = s.hbm ∧
      t.insts = s.insts ∧ ∀ n, n ≠ m.dst → t.tile n = s.tile n := by
  intro t
  have counts := countTile_countOnly ((s.dropMsg msg).modTile m.dst (fun t => { t with epBuf := upd t.epBuf ch (· ++ [f]) })) m.dst 6 1 1
  have rest : t = _ := counts.rest
  refine ⟨by rw [Arrived, rest]; rfl, ?_, by rw [rest]; rfl, by rw [rest]; rfl, by rw [rest]; rfl, fun n hn => ?_⟩
  · rw [show (t.tile m.dst).epBuf = _ from counts.epBuf m.dst, State.modTile, State.tile_setTile_self]
    rfl
  · exact (countTile_ne _ 6 1 1 hn).trans (State.tile_setTile_ne _ _ hn)

/-- FAR-OVERRUN: the sender faults with the token (R137). -/
theorem overrun_faults (inst : (s.elem f.eid).inst = some f.inst) (plain : f.tok.pacer = none) :
    let t := ((s.dropMsg msg).countTile m.dst 6 5 1).deadToken f.eid f.inst cFARRUN ⟨f.tok, 7, ch, m.dst, true⟩
    Arrived s t msg ∧ Faulted s t f.eid f.inst 4 cFARRUN [⟨f.tok, 7, ch, m.dst, true⟩] ∧
      (t.tile m.dst).epBuf = (s.tile m.dst).epBuf := by
  intro t
  have counts := countTile_countOnly (s.dropMsg msg) m.dst 6 5 1
  have inst' : (((s.dropMsg msg).countTile m.dst 6 5 1).elem f.eid).inst = some f.inst := by
    rw [State.elem_congr counts.elems]; exact inst
  have fault : t = _ := deadToken_faults inst' plain (.inr (by decide))
  obtain ⟨-, faulted⟩ := takeFault_faulted inst' fSTREAM cFARRUN [⟨f.tok, 7, ch, m.dst, true⟩]
  rw [fault]
  refine ⟨?_, faulted.congr (by rw [counts.rest]; rfl) (by rw [counts.rest]; rfl), ?_⟩
  · rw [Arrived, takeFault_rest, counts.rest]
    rfl
  · rw [takeFault_rest]
    exact counts.epBuf m.dst

/-- A credit for an endpoint's channel enters the egress buffer of its tile (R136). -/
theorem giveCredit_eq (s : State) (tile : Nat) (f : FarTok) : s.giveCredit tile f = { s.modTile tile (fun t => { t with
    egressResp := t.egressResp ++ [⟨s.nextId, tile, tileOf f.eid, .credit f.eid f.entry f.inst⟩] }) with nextId := s.nextId + 1 } := rfl

/-- A far token that reaches no configured element: its credit goes back, and its sender faults (R84, R137). -/
theorem dead_faults (inst : (s.elem f.eid).inst = some f.inst) (live : f.tok.tag ≠ 0xF) (plain : f.tok.pacer = none) :
    let t := ((s.dropMsg msg).giveCredit m.dst f).deadToken f.eid f.inst cFINISHLIVE ⟨f.tok, 7, ch, m.dst, true⟩
    Arrived s t msg ∧ Faulted s t f.eid f.inst 4 2 [⟨f.tok, 7, ch, m.dst, true⟩] ∧ (t.tile m.dst).egressResp =
      (s.tile m.dst).egressResp ++ [⟨s.nextId, m.dst, tileOf f.eid, .credit f.eid f.entry f.inst⟩] := by
  intro t
  have inst' : (((s.dropMsg msg).giveCredit m.dst f).elem f.eid).inst = some f.inst := inst
  have fault : t = _ := deadToken_faults inst' plain (.inl live)
  obtain ⟨-, faulted⟩ := takeFault_faulted inst' fSTREAM cFINISHLIVE [⟨f.tok, 7, ch, m.dst, true⟩]
  rw [fault]
  refine ⟨by rw [Arrived, takeFault_rest]; rfl, faulted.congr rfl rfl, ?_⟩
  rw [takeFault_rest]
  exact congrArg Tile.egressResp (State.tile_setTile_self ..)

end

section
variable {s : State} {tile ch : Nat} {f : FarTok} {rest : List FarTok} {d : Nat × Nat}

/-- The oldest token of an endpoint may enter its queue (R86, R135). -/
structure Delivers (s : State) (tile ch : Nat) (f : FarTok) (rest : List FarTok) (d : Nat × Nat) : Prop where
  dest : endpointDest tile (nth (s.tile tile).endpoints ch 0) = some d
  head : nth (s.tile tile).epBuf ch [] = f :: rest
  hops : (s.tile tile).hopsStopped = false
  old : (s.tile tile).epFresh.getLsbD ch = false
  run : (s.elem d.1).state = .run
  room : (s.elem d.1).inRoom d.2 = true
  egress : total ((s.tile tile).egressResp.map s.msgFlits) + 1 ≤ 36
  bucket : (s.elem d.1).inst = some f.inst ∨ s.bucketOpen d.1 = true

/-- The state once the token has gone through the bucket of the instance, where it comes from outside. -/
def admitted (s : State) (f : FarTok) (eid : Nat) : State := if (s.elem eid).inst = some f.inst then s else s.takeBucket eid

/-- A bucket is a field of an instance. -/
theorem takeBucket_rest (s : State) (eid : Nat) : s.takeBucket eid = { s with insts := (s.takeBucket eid).insts } := by
  unfold State.takeBucket
  split
  · rfl
  · split
    · exact modInst_rest ..
    · rfl

theorem admitted_rest (s : State) (f : FarTok) (eid : Nat) : admitted s f eid = { s with insts := (admitted s f eid).insts } := by
  unfold admitted
  split
  · rfl
  · exact takeBucket_rest s eid

/-- The token has left the endpoint's buffer. -/
def unbuffered (s : State) (tile ch : Nat) : State := s.modTile tile (fun t => { t with
  epBuf := upd t.epBuf ch (·.drop 1), epFresh := t.epFresh ||| BitVec.ofNat 16 (2 ^ ch) })

theorem endpointDelivery_accepts (h : Delivers s tile ch f rest d) : exec (.endpointDelivery tile ch) s =
    .next (((unbuffered (admitted s f d.1) tile ch).giveCredit tile f).acceptToken d.1 d.2 f.tok) := by
  have open_ : (decide ((s.elem d.1).inst ≠ some f.inst) && !s.bucketOpen d.1) = false := by
    rcases h.bucket with same | room <;> simp [*]
  have enters : (if decide ((s.elem d.1).inst ≠ some f.inst) = true then s.takeBucket d.1 else s) = admitted s f d.1 := by
    unfold admitted
    by_cases same : (s.elem d.1).inst = some f.inst <;> simp [same]
  simp only [exec, execEndpointDelivery, h.dest, h.head, h.hops, h.old, h.run, h.room, h.egress, open_, enters]
  rfl

theorem endpointDelivery_eq (h : Delivers s tile ch f rest d) : exec (.endpointDelivery tile ch) s =
    .next (putIn d.1 d.2 f.tok { (admitted s f d.1).modTile tile (fun t => { t with
      epBuf := upd t.epBuf ch (·.drop 1), epFresh := t.epFresh ||| BitVec.ofNat 16 (2 ^ ch),
      egressResp := t.egressResp ++ [⟨s.nextId, tile, tileOf f.eid, .credit f.eid f.entry f.inst⟩] }) with nextId := s.nextId + 1 }) := by
  have same : admitted s f d.1 = { s with insts := (admitted s f d.1).insts } := admitted_rest s f d.1
  have run : (((unbuffered (admitted s f d.1) tile ch).giveCredit tile f).elem d.1).state = .run := by
    rw [same]; exact h.run
  rw [endpointDelivery_accepts h, acceptToken_putIn run, giveCredit_eq, unbuffered, modTile_modTile]
  have next : (admitted s f d.1).nextId = s.nextId := by rw [same]
  rw [← next]
  rfl

end

section
variable {s : State} {msg eid k i : Nat} {m : Msg}

/-- A credit of a channel that its entry still holds counts, up to eight (R136). -/
theorem creditReturn_counts (arriving : s.arriving msg = some m) (body : m.body = .credit eid k i)
    (inst : (s.elem eid).inst = some i) (open_ : (s.elem eid).withdrawn.getLsbD k = false) : exec (.creditReturn msg) s =
    .next ((s.dropMsg msg).modElem eid (fun e => { e with credits := upd e.credits k (fun c => min 8 (c + 1)) })) := by
  have inst' : ((s.dropMsg msg).elem eid).inst = some i := inst
  have open' : ((s.dropMsg msg).elem eid).withdrawn.getLsbD k = false := open_
  simp only [exec, execCreditReturn, arriving, body, inst', open', State.modElem, Nat.min_comm 8]
  rfl

/-- Another one is discarded (R94). -/
theorem creditReturn_drops (arriving : s.arriving msg = some m) (body : m.body = .credit eid k i)
    (gone : (s.elem eid).inst ≠ some i ∨ (s.elem eid).withdrawn.getLsbD k = true) : exec (.creditReturn msg) s =
    .next (s.dropMsg msg) := by
  have closed : (decide (((s.dropMsg msg).elem eid).inst = some i) && !((s.dropMsg msg).elem eid).withdrawn.getLsbD k) = false := by
    rcases gone with h | h
    · rw [decide_eq_false (show ((s.dropMsg msg).elem eid).inst ≠ some i from h), Bool.false_and]
    · rw [show ((s.dropMsg msg).elem eid).withdrawn.getLsbD k = true from h, Bool.not_true, Bool.and_false]
  simp only [exec, execCreditReturn, arriving, body, closed]
  rfl

end

theorem farRules_happen (msg : Nat) (m : Msg) (ch tile eid k i : Nat) (f : FarTok) (rest : List FarTok) (d : Nat × Nat) :
    Happen (farRules msg m ch tile eid k i f rest d) := by
  refine .cons ?_ <| .cons ?_ <| .cons ?_ <| .cons (becomes_holds ?_) <| .cons (becomes_holds ?_) <| .cons (becomes_holds ?_) .nil
  · rintro s ⟨⟨arriving, body⟩, live, room, -⟩
    exact ⟨_, farTokenArrival_buffered ⟨arriving, body⟩ live room, buffered_spec s msg ch m f⟩
  · rintro s ⟨⟨arriving, body⟩, live, full, inst, plain⟩
    exact ⟨_, farTokenArrival_overrun ⟨arriving, body⟩ live full, overrun_faults inst plain⟩
  · rintro s ⟨⟨arriving, body⟩, dead, inst, live, plain⟩
    exact ⟨_, farTokenArrival_dead ⟨arriving, body⟩ dead, dead_faults inst live plain⟩
  · rintro s ⟨dest, head, hops, old, run, room, egress, bucket⟩
    exact endpointDelivery_eq ⟨dest, head, hops, old, run, room, egress, bucket⟩
  · rintro s ⟨arriving, body, inst, open_⟩
    exact creditReturn_counts arriving body inst open_
  · rintro s ⟨arriving, body, gone⟩
    exact creditReturn_drops arriving body gone

/-! ## The track (R139, R140, R173, R176) -/

/-- The message once it has left the egress buffer for the track. -/
def injected (s : State) (tile : Nat) (response : Bool) (m : Msg) : State :=
  let u := (s.countTile tile 6 3 (s.msgFlits m)).modTile tile (fun t =>
    if response then { t with egressResp := t.egressResp.filter (·.id ≠ m.id) }
    else { t with egressReq := t.egressReq.filter (·.id ≠ m.id) })
  { u with track := u.track ++ [m] }

/-- It has left its egress buffer; memory and the instances are as they were. -/
structure Injected (s t : State) (tile : Nat) (response : Bool) (m : Msg) : Prop where
  track : t.track = s.track ++ [m]
  hbm : t.hbm = s.hbm
  insts : t.insts = s.insts
  requests : (t.tile tile).egressReq =
    if response then (s.tile tile).egressReq else (s.tile tile).egressReq.filter (·.id ≠ m.id)
  answers : (t.tile tile).egressResp =
    if response then (s.tile tile).egressResp.filter (·.id ≠ m.id) else (s.tile tile).egressResp

section
variable {s : State} {tile : Nat} {response : Bool} {m : Msg}

theorem injected_rest (s : State) (tile : Nat) (response : Bool) (m : Msg) :
    injected s tile response m = { s with tiles := (injected s tile response m).tiles, track := s.track ++ [m] } := by
  simp only [injected]
  rw [(countTile_countOnly s tile 6 3 (s.msgFlits m)).rest]
  rfl

theorem injected_spec (s : State) (tile : Nat) (response : Bool) (m : Msg) :
    Injected s (injected s tile response m) tile response m := by
  have counts := countTile_countOnly s tile 6 3 (s.msgFlits m)
  have here : (injected s tile response m).tile tile = _ := State.tile_setTile_self ..
  refine ⟨by rw [injected_rest], by rw [injected_rest], by rw [injected_rest], ?_, ?_⟩
  · rw [here, ← counts.egressReq tile]
    cases response <;> rfl
  · rw [here, ← counts.egressResp tile]
    cases response <;> rfl

/-- What counts in a tile besides leaves that. -/
theorem Injected.count {t u : State} (h : Injected s t tile response m) (counts : CountOnly t u) : Injected s u tile response m :=
  ⟨by rw [counts.rest, ← h.track], by rw [counts.rest, ← h.hbm], by rw [counts.rest, ← h.insts],
    by rw [counts.egressReq, h.requests], by rw [counts.egressResp, h.answers]⟩

theorem trackInject_token (next : s.nextInject tile response = some m) (token : ∀ a, m.body ≠ .access a) :
    ∃ t, exec (.trackInject tile response) s = .next t ∧ CountOnly (injected s tile response m) t := by
  cases body : m.body with
  | far ch f =>
    refine ⟨((injected s tile response m).countTile tile 6 0 1).countTile tile 6 6 (boundaries m.src m.dst), ?_,
      (countTile_countOnly ..).trans (countTile_countOnly ..)⟩
    simp only [exec, execTrackInject, next, body]
    rfl
  | credit e k i =>
    refine ⟨injected s tile response m, ?_, .refl _⟩
    simp only [exec, execTrackInject, next, body]
    rfl
  | access a => exact absurd body (token a)

theorem trackInject_access {a : Nat} {x : Access} (next : s.nextInject tile response = some m) (body : m.body = .access a)
    (found : s.accs.find a = some x) : exec (.trackInject tile response) s =
      .next (({ injected s tile response m with accs := s.accs.put a { x with stage := .track } } : State).settle x.op x.eid) := by
  have accs : (injected s tile response m).accs = s.accs := by rw [injected_rest]
  have found' : (injected s tile response m).accs.find a = some x := by rw [accs, found]
  have run : exec (.trackInject tile response) s = match (injected s tile response m).accs.find a with
      | some x => .next (({ injected s tile response m with
          accs := (injected s tile response m).accs.put a { x with stage := .track } } : State).settle x.op x.eid)
      | none => .next (injected s tile response m) := by
    simp only [exec, execTrackInject, next, body]
    rfl
  rw [run, found', accs]

end

theorem Injected.settle {s t : State} {tile : Nat} {response : Bool} {m : Msg} (h : Injected s t tile response m) (accs : NMap Access)
    (op eid : Nat) : Injected s (({ t with accs := accs } : State).settle op eid) tile response m := by
  rw [settle_rest]
  exact ⟨h.track, h.hbm, h.insts, h.requests, h.answers⟩

section
variable {s : State} {msg : Nat} {m : Msg}

/-- A token on a link that fails is lost, and its sender faults with it (R173). -/
theorem trackLinkFault_token {ch : Nat} {f : FarTok} (here : s.track.find? (fun n => n.id = msg) = some m) (body : m.body = .far ch f)
    (inst : (s.elem f.eid).inst = some f.inst) : exec (.trackLinkFault msg) s =
      .next ((s.dropMsg msg).takeFault f.eid fLINK 1 0 none 0 [⟨f.tok, 7, ch, m.dst, true⟩]) := by
  have inst' : ((s.dropMsg msg).elem f.eid).inst = some f.inst := inst
  simp only [exec, execTrackLinkFault, here, body, if_pos inst']

/-- A credit of an instance that is gone is lost and faults nobody. -/
theorem trackLinkFault_credit {e k i : Nat} (here : s.track.find? (fun n => n.id = msg) = some m) (body : m.body = .credit e k i)
    (gone : (s.elem e).inst ≠ some i) : exec (.trackLinkFault msg) s = .next (s.dropMsg msg) := by
  have gone' : ((s.dropMsg msg).elem e).inst ≠ some i := gone
  simp only [exec, execTrackLinkFault, here, body, if_neg gone']

end

theorem trackRules_happen (tile msg a i : Nat) (response : Bool) (m : Msg) (x : Access) (ch : Nat) (f : FarTok) :
    Happen (trackRules tile msg a i response m x ch f) := by
  refine .cons ?_ <| .cons ?_ <| .cons ?_ <| .cons ?_ .nil
  · rintro s ⟨next, token⟩
    obtain ⟨t, run, counts⟩ := trackInject_token next token
    obtain ⟨track, hbm, insts, requests, answers⟩ := (injected_spec s tile response m).count counts
    exact ⟨t, run, ⟨track, hbm, insts, requests, answers⟩, by rw [counts.rest, injected_rest], by rw [counts.elems, injected_rest]⟩
  · rintro s ⟨next, body, found⟩
    obtain ⟨track, hbm, insts, requests, answers⟩ := (injected_spec s tile response m).settle
      (s.accs.put a { x with stage := .track }) x.op x.eid
    refine ⟨_, trackInject_access next body found, ⟨track, hbm, insts, requests, answers⟩, ?_, fun n hn => ?_⟩
    · rw [settle_accs]
      exact NMap.find_put_self ..
    · rw [settle_accs]
      exact NMap.find_put_ne _ _ hn
  · rintro s ⟨here, body, inst⟩
    obtain ⟨-, faulted⟩ := takeFault_faulted (s := s.dropMsg msg) inst fLINK 1 [⟨f.tok, 7, ch, m.dst, true⟩]
    refine ⟨_, trackLinkFault_token here body inst, ?_, faulted.congr rfl rfl, ?_, ?_⟩
    all_goals rw [takeFault_rest]; rfl
  · rintro s ⟨here, ⟨e, k, body, gone⟩⟩
    exact ⟨_, trackLinkFault_credit here body gone, rfl⟩

/-- Settles O40: the rules of TOKEN_TRANSFER, those of far tokens, endpoints and credits, and those of the track. -/
theorem fabricEvents : Obligations.FabricEvents := ⟨transferRules_happen, farRules_happen, trackRules_happen⟩

end Sys2Proof.Claims
end

/-! # A firing that leaves a pacer token at the head that A names (R340) -/

section
namespace Sys2Proof.Claims
open Sys2Proof.Machine

namespace KeptLog

/-- A PACE of the head of queue 0 into output queue 0 that dequeues nothing. -/
def slot : Slot :=
  { pri := 0, condT := 0, condF := 0, test0 := none, test1 := none, da := .o 0, db := .none, otag := 0, deq := 0, sa := .head 0,
    sb := .none, sc := .none, pd := 0, pm := .keep, rnd := 0, d := false, kt := false, sat := false, ack := false, x := false, imm := 0 }

def word : BitVec 128 := (encodeWord (.pace slot)).getD 0

/-- The log of the pacer token at the head. -/
def log : PacerLog := { birth := 0, origin := 0, hops := [], ovf := false }

/-- The PE at (1, 0) of tile 0, in RUN. -/
def start : State :=
  { State.reset with elems := [(8, { Element.reset with
      state := .run, inst := some 7, bank := { Bank.empty with slots := word :: List.replicate 15 0 }, en := 1,
      iq := [[⟨Lanes.empty, 0, some log⟩], [], [], []] })] }

/-- The logs that the firings in flight of the element keep after an event. -/
def keptAfter : Res → List (Option PacerLog)
  | .next t => (t.elem 8).inflight.map (·.kept)
  | _ => []

/-- The firing keeps the log. -/
theorem log_kept : keptAfter (exec (.selection 8) start) = [some log] := by decide +kernel

theorem maySelect : MaySelect start 8 7 := by unfold MaySelect; decide +kernel

end KeptLog

open KeptLog in
/-- Refutes O42: the firing that its rules describe keeps no log, whatever stands at the heads. A firing whose A names a head that it
does not dequeue keeps the log of a pacer token there, which ends with it where PACE gives a fresh one (R340). -/
theorem not_selectionChoice : ¬ Obligations.SelectionChoice := by
  unfold Obligations.SelectionChoice
  intro h
  obtain ⟨t, ht, v, -, element, -⟩ := h 8 7 _ (List.mem_of_getElem? (i := 1) rfl) start
    ⟨maySelect, by decide +kernel, by decide +kernel⟩
  have inflight : (t.elem 8).inflight = [firingOf start 8 v] := congrArg Element.inflight element
  have kept := log_kept
  rw [show exec (.selection 8) start = .next t from ht, keptAfter, inflight] at kept
  exact absurd kept (by simp [firingOf])

end Sys2Proof.Claims
end

/-! # A legal slot word is the word of its instruction (R141, R234 to R245) -/

section
namespace Sys2Proof

/-! ## Opcodes -/

/-- The rows of the opcode map build instructions of their own opcodes, in the order of the map. -/
theorem opBlocks_opcodes : opBlocks.map (fun b => b.2.map (fun r w => opcodeOf (r.ins w))) =
    opBlocks.map (fun b => (List.range' b.1 b.2.length).map (fun n w => some (n, w))) := rfl

theorem opcodeOf_ins {opc : Nat} {r : OpRow} (h : opRow? opc = some r) (w : Slot) : opcodeOf (r.ins w) = some (opc, w) := by
  unfold opRow? at h
  split at h
  next b hb =>
    have mem := List.mem_of_find?_eq_some hb
    have range := List.find?_some hb
    simp only [Bool.and_eq_true, decide_eq_true_eq] at range
    have rows := List.map_inj_left.1 opBlocks_opcodes b mem
    have row := congrArg (·[opc - b.1]?) rows
    simp only [List.getElem?_map, h, Option.map_some, List.getElem?_range' (show opc - b.1 < b.2.length by omega), Option.some.injEq] at row
    rw [congrFun row w, show b.1 + 1 * (opc - b.1) = opc by omega]
  next => exact nomatch h

/-! ## Fields: the value of what a value names is that value -/

theorem srcCode_of_srcOfCode {b : BitVec 5} {s : Src} (h : srcOfCode b.toNat = some s) : s.code = b := by
  revert b s; decide

theorem dstCode_of_dstOfCode {b : BitVec 5} {d : Dst} (h : dstOfCode b.toNat = some d) : d.code = b := by
  revert b d; decide

theorem pmCode_pmOfCode (b : BitVec 3) : (pmOfCode b).code = b := by
  revert b; decide

theorem testCode_of_testOfCode {b : BitVec 8} {t : Option InputTest} (h : testOfCode b = some t) : testCode t = b := by
  revert b t; decide

theorem ofBool_getLsbD {n : Nat} (w : BitVec n) (k : Nat) : BitVec.ofBool (w.getLsbD k) = w.extractLsb' k 1 := by
  ext i hi
  obtain rfl : i = 0 := by omega
  simp

/-- Bit k of the values of PCOND that stand at lo, lo + 2, …. -/
theorem condMask_getLsbD (w : BitVec 128) (lo : Nat) {k : Nat} (h : k < 8) : (condMask w lo).getLsbD k = w.getLsbD (lo + 2 * k) := by
  interval_cases k <;> simp only [condMask, BitVec.getLsbD_append, BitVec.getLsbD_ofBool] <;> simp

theorem condBits_of_masks {w : BitVec 128} {s : Slot} (t : s.condT = condMask w 110) (f : s.condF = condMask w 109) {k : Nat} (h : k < 8) :
    condBits s k = w.extractLsb' (109 + 2 * k) 2 := by
  rw [condBits, t, f, condMask_getLsbD w 110 h, condMask_getLsbD w 109 h, ofBool_getLsbD, ofBool_getLsbD]
  exact BitVec.extractLsb'_append_extractLsb'_eq_extractLsb' (by omega)

/-! ## The word -/

/-- Every field of a slot is what its bits of the word name (R141, R234). -/
structure FieldsOf (w : BitVec 128) (s : Slot) : Prop where
  pri : s.pri = w.extractLsb' 125 2
  conds : ∀ k < 8, condBits s k = w.extractLsb' (109 + 2 * k) 2
  test0 : testCode s.test0 = w.extractLsb' 101 8
  test1 : testCode s.test1 = w.extractLsb' 93 8
  da : s.da.code = w.extractLsb' 74 5
  db : s.db.code = w.extractLsb' 69 5
  otag : s.otag = w.extractLsb' 65 4
  deq : s.deq = w.extractLsb' 61 4
  sa : s.sa.code = w.extractLsb' 56 5
  sb : s.sb.code = w.extractLsb' 51 5
  sc : s.sc.code = w.extractLsb' 46 5
  pd : BitVec.ofNat 3 s.pd.val = w.extractLsb' 43 3
  pm : s.pm.code = w.extractLsb' 40 3
  rnd : s.rnd = w.extractLsb' 37 3
  d : BitVec.ofBool s.d = w.extractLsb' 36 1
  kt : BitVec.ofBool s.kt = w.extractLsb' 35 1
  sat : BitVec.ofBool s.sat = w.extractLsb' 34 1
  ack : BitVec.ofBool s.ack = w.extractLsb' 33 1
  x : BitVec.ofBool s.x = w.extractLsb' 32 1
  imm : s.imm = w.extractLsb' 0 32

theorem fieldsOf_slotOfWord {w : BitVec 128} {s : Slot} (h : slotOfWord w = some s) : FieldsOf w s := by
  simp only [slotOfWord, Option.bind_eq_bind, Option.bind_eq_some_iff, Option.pure_def, Option.some.injEq] at h
  obtain ⟨t0, ht0, t1, ht1, da, hda, db, hdb, sa, hsa, sb, hsb, sc, hsc, rfl⟩ := h
  exact {
    pri := rfl, otag := rfl, deq := rfl, rnd := rfl, imm := rfl
    conds := fun k hk => condBits_of_masks rfl rfl hk
    test0 := testCode_of_testOfCode ht0, test1 := testCode_of_testOfCode ht1
    da := dstCode_of_dstOfCode hda, db := dstCode_of_dstOfCode hdb
    sa := srcCode_of_srcOfCode hsa, sb := srcCode_of_srcOfCode hsb, sc := srcCode_of_srcOfCode hsc
    pd := BitVec.ofNat_toNat .., pm := pmCode_pmOfCode _
    d := ofBool_getLsbD .., kt := ofBool_getLsbD .., sat := ofBool_getLsbD .., ack := ofBool_getLsbD .., x := ofBool_getLsbD .. }

/-- The fields with V, the reserved bits and the opcode make up the whole word. -/
theorem FieldsOf.encodeSlot {w : BitVec 128} {s : Slot} (h : FieldsOf w s) (valid : w.getLsbD 127 = true)
    (reserved : w.extractLsb' 88 5 = 0) : encodeSlot (w.extractLsb' 79 9).toNat s = w := by
  have v : BitVec.ofBool true = w.extractLsb' 127 1 := by rw [← valid, ofBool_getLsbD]
  have opc : BitVec.ofNat 9 (w.extractLsb' 79 9).toNat = w.extractLsb' 79 9 := BitVec.ofNat_toNat ..
  rw [Sys2Proof.encodeSlot, v, h.pri, h.conds 0 (by decide), h.conds 1 (by decide), h.conds 2 (by decide), h.conds 3 (by decide),
    h.conds 4 (by decide), h.conds 5 (by decide), h.conds 6 (by decide), h.conds 7 (by decide), h.test0, h.test1, ← reserved, opc,
    h.da, h.db, h.otag, h.deq, h.sa, h.sb, h.sc, h.pd, h.pm, h.rnd, h.d, h.kt, h.sat, h.ack, h.x, h.imm]
  simp (disch := rfl) only [BitVec.extractLsb'_append_extractLsb'_eq_extractLsb']
  exact BitVec.extractLsb'_eq_self

/-! ## The checks -/

/-- A word that decodes has passed the checks of R245. -/
theorem decodeSlot_ok {w : BitVec 128} {i : Instr} (h : decodeSlot w = .ok i) : ∃ r s, opRow? (w.extractLsb' 79 9).toNat = some r ∧
    slotOfWord w = some s ∧ w.getLsbD 127 = true ∧ wordTriggerOk w = true ∧ w.extractLsb' 65 4 ≠ 15 ∧
    slotLegal (w.extractLsb' 79 9).toNat r.spec s = true ∧ i = r.ins s := by
  unfold decodeSlot checkSlotWord at h
  split at h
  next => exact nomatch h
  next valid =>
    split at h
    next => exact nomatch h
    next trigger =>
      dsimp only at h
      split at h
      next => exact nomatch h
      next r row =>
        split at h
        next never => exact nomatch never
        split at h
        next => exact nomatch h
        next otag =>
          split at h
          next => exact nomatch h
          next s fields =>
            split at h
            next => exact nomatch h
            next legal =>
              cases h
              exact ⟨r, s, row, fields, by simpa using valid, by simpa using trigger, by simpa using otag, by simpa using legal, rfl⟩

theorem reserved_of_wordTriggerOk {w : BitVec 128} (h : wordTriggerOk w = true) : w.extractLsb' 88 5 = 0 := by
  simp only [wordTriggerOk, Bool.and_eq_true, beq_iff_eq] at h
  obtain ⟨⟨reserved, -⟩, -⟩ := h
  exact reserved

/-- The trigger half of a legal word is legal as fields (R141). -/
theorem triggerOk_of_word {w : BitVec 128} {s : Slot} (h : wordTriggerOk w = true) (hs : slotOfWord w = some s) : triggerOk s = true := by
  simp only [slotOfWord, Option.bind_eq_bind, Option.bind_eq_some_iff, Option.pure_def, Option.some.injEq] at hs
  obtain ⟨t0, ht0, t1, ht1, da, hda, db, hdb, sa, hsa, sb, hsb, sc, hsc, rfl⟩ := hs
  simp only [wordTriggerOk, List.all_cons, List.all_nil, ht0, ht1, Bool.and_true, Bool.and_eq_true, beq_iff_eq] at h
  obtain ⟨⟨-, conds⟩, ok0, ok1⟩ := h
  simp only [triggerOk, conds, List.all_cons, List.all_nil, Bool.and_true, Bool.and_eq_true, beq_self_eq_true, true_and]
  constructor
  · rcases t0 with _ | ⟨_, _ | _, _⟩ <;> exact ok0
  · rcases t1 with _ | ⟨_, _ | _, _⟩ <;> exact ok1

end Sys2Proof

namespace Sys2Proof.Claims

/-- Settles O54: the code of each field is its bits again, so the encoder gives the word, and the checks that the word passed are those
of a well-formed instruction. -/
theorem encodeDecode : Obligations.EncodeDecode := by
  intro w i h
  obtain ⟨r, s, row, named, valid, trigger, otag, legal, rfl⟩ := decodeSlot_ok h
  have fields := fieldsOf_slotOfWord named
  have opc := opcodeOf_ins row s
  constructor
  · rw [encodeWord, opc]
    exact congrArg some (fields.encodeSlot valid (reserved_of_wordTriggerOk trigger))
  · rw [Instr.wellFormed, opc]
    simpa only [slotWellFormed, row, triggerOk_of_word trigger named, legal, fields.otag, Bool.true_and, Bool.and_true, bne_iff_ne] using otag

end Sys2Proof.Claims
end

/-! # A host message behind one of its VF that waits (R42) -/

section
namespace Sys2Proof.Claims
open Sys2Proof.Machine

namespace WaitingMessage

/-- A message of VF 0 with an undefined AMOP. -/
def word : BitVec 128 := 0x20000000000000000000000000000000

/-- Its turn has come, and an earlier message of its VF waits for memory. -/
def start : State := { State.reset with agenda := [.hostAm], amIn := [word], stalled := [amOfWord .host word] }

/-- How many messages wait after a step. -/
def waitingAfter : Res → Option Nat
  | .next t => some t.stalled.length
  | _ => none

/-- The step puts the message behind the one that waits. -/
theorem step_waits : waitingAfter (step start) = some 2 := by decide +kernel

/-- Its meaning makes nothing wait. -/
theorem exec_refuses : waitingAfter (exec (amInstr { amOfWord .host word with part := (start.vf 0).part })
    { start with agenda := [], amIn := [] }) = some 1 := by decide +kernel

end WaitingMessage

open WaitingMessage in
/-- Refutes O56: its fourth clause runs a host message at its turn whatever waits, but a message behind one of its VF that waits for
memory waits too, for the messages of a VF take effect in their order (R42); so the step of such a state is not its meaning. -/
theorem not_stepRunsDecoded : ¬ Obligations.StepRunsDecoded := by
  unfold Obligations.StepRunsDecoded
  rintro ⟨-, -, -, hostAm, -, -⟩
  have runs := congrArg waitingAfter (hostAm start word [] [] rfl rfl rfl)
  rw [step_waits] at runs
  exact absurd (runs.trans exec_refuses) (by decide)

end Sys2Proof.Claims
end
